-- ==== Sys2Proof/Word.lean ====
section
/-! DEFINITION. The words of the module: bytes, registers, scalars, laps and the numbers of its parts. -/

namespace Sys2Proof

/-- A byte of module memory. -/
abbrev Byte := BitVec 8
/-- A register of the register space (R12), and a vector lane. -/
abbrev Word := BitVec 32
/-- A core scalar register (R223). -/
abbrev DWord := BitVec 64
/-- A core tile descriptor register (R223). -/
abbrev Tile := BitVec 128
/-- A flit: the unit of the mesh and of a Baton link, 32 bytes. -/
abbrev Flit := BitVec 256
/-- A lap count: 48 bits (R9, R37). -/
abbrev Lap := BitVec 48
/-- A position within a lap: 2,048 strides of 128 fc, counted in fc. -/
abbrev Pos := BitVec 18
/-- A core site or router, by linear id: row times 64 plus column. -/
abbrev CoreId := BitVec 11
/-- A heat, 0 to 31. -/
abbrev HeatId := BitVec 5
/-- A Baton port, 0 to 11. -/
abbrev PortId := Fin 12
/-- A clock region, 0 to 255. -/
abbrev RegionId := BitVec 8
/-- A console session, 0 to 3 (R667). -/
abbrev SessId := Fin 4
/-- A module address, 0 to 1,023. -/
abbrev ModAddr := BitVec 10

/-- The fc in a lap: 2,048 strides of 128. -/
def lapFc : Nat := 262144

end Sys2Proof
end

