-- ==== Sys2Proof/Syntax.lean ====
section
/-! DEFINITION. The commands of the module: one constructor for each row of the spec's table of commands, with the
operands the spec gives it, and the types those operands have. -/

namespace Sys2Proof

/-- The access path of a register access (R797): BAR0 of a physical function, the console, the management port, or
the control messages of a source router. -/
inductive Path where
  | bar0 (pf : Fin 2)
  | console
  | mgt
  | ctrl (router : CoreId)
  deriving DecidableEq, Repr

/-- The width of a register access: a word, or fewer bytes of it (R12, R13). -/
inductive AccWidth where
  | word
  | half
  | byte
  deriving DecidableEq, Repr

/-- Bytes of an access. -/
def AccWidth.bytes : AccWidth → Nat
  | .word => 4
  | .half => 2
  | .byte => 1

/-- One argument of a console line: key, value and the column of its token (R672, R682). A word that stands without
a key (the verb after `help`, R716) has an empty key. -/
structure Arg where
  key : String
  val : String
  col : Nat
  deriving DecidableEq, Repr

/-- A console line that begins: its session, the tag and CRC of a generated line (none for a typed one), its arguments,
and, for a line that another module is to execute, that module with the bytes to forward (R700). The row that carries it
names the verb and object. -/
structure Line where
  sess : SessId
  gen : Option (String × BitVec 8)
  args : List Arg
  /-- the column just past its last token -/
  endCol : Nat
  route : Option (BitVec 10 × List Byte)
  deriving DecidableEq, Repr


/-- A flit as a consumer receives it: 0 data, or the reason of a void plus one (Table 4-3), its 256 bits, and whether they
were uncorrectable on the way (R147). -/
structure VFlit where
  void : BitVec 2
  data : Flit
  bad : Bool
  deriving DecidableEq, Repr

/-- A frame that a Baton port has received: its header slot, its payload slots as they came (scrambled), and whether every
codeword that holds a bit of it was decoded (Table 11-2, R468). -/
structure XFrame where
  hdr : Flit
  body : List Flit
  cwOk : Bool
  deriving DecidableEq, Repr

/-- A memory target of the mesh: a slice, a reserve controller, the stage of a host attachment, or a core's port. -/
inductive MTarget where
  | slice (n : BitVec 8)
  | reserve (r : BitVec 3)
  | host (a : Fin 2)
  | core (k : CoreId)
  deriving DecidableEq, Repr

/-- The monitors of Table 13-4, those of regions and rails with their number. -/
inductive Monitor where
  | regionClock (r : BitVec 8)
  | fabricLoss
  | fabricFreq
  | reference
  | rail (n : BitVec 8)
  | mainInput
  | inputCurrent
  | inputPower
  | dieWarn
  | dieCritical
  | hbmCritical
  | marshalSupply
  | marshalOscillator
  deriving DecidableEq, Repr

/-- A value as the check tree takes it (R569): its sign, significand and exponent. -/
structure ChkVal where
  neg : Bool
  mant : Nat
  exp : Int
  deriving DecidableEq, Repr

/-- What a datapath checker sees when it reports: the significands and the product of a multiplier (R568); the inputs,
the result and the round-offs of a tree of rounding adders (R569); or another mechanism of Table 13-3, which has found a
fault. -/
inductive Evidence where
  | product (sa sb p : Nat)
  | tree (inputs : List ChkVal) (result : ChkVal) (offs : List ChkVal)
  | found
  deriving DecidableEq, Repr

/-- How the start step in progress ends (R626, R639): the standby milliseconds that pass with it, whether it fails, the
units that fail (rail groups, regions, cores, stacks, controllers, ports), and what the flash does at S-04: 1 it cannot
be read; 2 it cannot be written; 3 what is written does not verify; 4 it is read with per-sector retry alone; else it
works. -/
structure StepResult where
  dur : BitVec 16
  fail : Bool
  bad : List (BitVec 11)
  flash : BitVec 3
  deriving DecidableEq, Repr

/-- One command of the module. Each constructor is one row of the table of commands. -/
inductive Instr where
  /-- REGISTER_WRITE (R20): A 32-bit write, from BAR0, a control message or the management queue, to a register that has
  no row of its own; it follows the access type, including … -/
  | registerWrite (p : Path) (a : AccWidth) (off : BitVec 26) (v : Word)
  /-- LO_READ_CAPTURE (R14): A read of a _LO register captures the _HI value, and any register the field map names, for
  its access path. -/
  | loReadCapture (p : Path) (a : AccWidth) (off : BitVec 26)
  /-- BID_RECEIVED (R33): An election bid block arrives on a port; it is accepted after two consecutive laps and merged,
  and the highest lap count seen is raised. -/
  | bidReceived (port : PortId) (blk : Flit)
  /-- ELECTION_WINDOW_END (R34): At the end of the 32-lap window, the module named by the best bid becomes pacer and
  every other module becomes a follower, or free-runs. -/
  | electionWindowEnd
  /-- LAP_BOUNDARY (R41): A local lap boundary: the pacer originates, or a locked follower forwards, the lap marker;
  lap-timed actions fall due. -/
  | lapBoundary
  /-- LAP_MARKER_RECEIVED (R44): A lap-marker control block with a valid CRC arrives; it becomes a candidate, advances
  lock acquisition, or checks a locked stream. -/
  | lapMarkerReceived (port : PortId) (pos : Pos) (sub : BitVec 4) (blk : Flit)
  /-- MARKER_MISSING (R47): A marker fails to arrive by its deadline and counts as bad; after three, the port loses lock
  and the parent changes or holdover begins. -/
  | markerMissing (port : PortId)
  /-- HOLDOVER_EXPIRED (R64): At lap L0 + 65 without lock, the module halts its cross-module collectives, raises red
  pennants for its team heats and free-runs. -/
  | holdoverExpired
  /-- DELAY_PROBE_SEND (R52): At stride 1024 of each lap the module sends one delay probe on each trained port. -/
  | delayProbeSend
  /-- DELAY_PROBE_RECEIVED (R51): A delay probe arrives, and the neighbour answers it with an echo whose lag holds its
  turnaround wait. -/
  | delayProbeReceived (port : PortId) (pos : Pos) (sub : BitVec 4) (blk : Flit)
  /-- PROBE_ECHO_RECEIVED (R51): A probe echo arrives; the round trip less lag, halved, enters the median delay estimate. -/
  | probeEchoReceived (port : PortId) (rtt : BitVec 24) (blk : Flit)
  /-- LAP_IN_QUALIFIED (R58): LAP_IN has stayed within ±20 ppm for 16 laps and becomes qualified; the pacer returns to
  it by slewing. -/
  | lapInQualified
  /-- LAP_IN_LOST (R59): No LAP_IN edge for 1 µs, or frequency outside ±20 ppm; the pacer changes to its oscillator
  without a phase step. -/
  | lapInLost
  /-- ADOPT_REQUEST_RECEIVED (R71): An adopt request frame arrives; a locked follower forwards it to its parent, and the
  pacer accepts the first valid one and announces the handover. -/
  | adoptRequestReceived (port : PortId) (x : XFrame)
  /-- ADOPT_ANNOUNCE_TIMEOUT (R71): Four laps after `lap pacer adopt`, the requester that has received no announcement
  answers ERR 0333. -/
  | adoptAnnounceTimeout
  /-- LAP_STATUS (R79): Console `lap status` prints the lap state line. -/
  | lapStatus (l : Line)
  /-- LAP_COUNTERS (R79): Console `lap counters` prints the LAP_CNT counters and the phase peak. -/
  | lapCounters (l : Line)
  /-- LAP_SET (R79): Console `lap set` writes LAP_CFG role, pri and ref_en. -/
  | lapSet (l : Line)
  /-- LAP_OUT (R61): Console `lap out` writes LAP_CTL out_en and out_div. -/
  | lapOut (l : Line)
  /-- LAP_REALIGN (R69): Console `lap realign` steps phase and lap count to a locked port's markers when no heat runs. -/
  | lapRealign (l : Line)
  /-- LAP_PACER_ADOPT (R70): Console `lap pacer adopt` requests the pacer role at lap L, or adopts it by force in
  holdover or free-run. -/
  | lapPacerAdopt (l : Line)
  /-- HALYARD_RECORD (R99): A Halyard record reaches a sheaf, hub or masthead and is combined or forwarded. -/
  | halyardRecord (k : CoreId)
  /-- PROVISIONAL_LOWERING (R119): At the position in word 3, with records still missing, the masthead lowers a
  provisional result formed from the records that have arrived. -/
  | provisionalLowering (h : HeatId)
  /-- LOWERING_DELIVERED (R93): A lowering reaches a port, which writes dst and a completion word, or holds it until the
  core issues the descriptor. -/
  | loweringDelivered (h : HeatId)
  /-- BARRIER_COMPLETE (R118): Each port releases the BARRIER completion at fc 0 of position P on its own lap count. -/
  | barrierComplete (h : HeatId)
  /-- LEAF_TIMEOUT (R135): Eight laps after the first record, with a heat leaf still missing, the operation completes
  with leaf timeout. -/
  | leafTimeout (h : HeatId)
  /-- MEMBER_LOST_TIMEOUT (R136): Eight laps after a team operation's first record, a system sheaf lacking a child's
  record lowers member lost. -/
  | memberLostTimeout (h : HeatId)
  /-- TAINT_RECORD (R128): A taint record reaches a sheaf or member; it is merged keeping the lowest lap, or delivered
  to the Marshal and held. -/
  | taintRecord (port : PortId) (h : HeatId) (lap : Lap)
  /-- HALYARD_SHOW (R141): Console `halyard show` prints the per-heat Halyard state. -/
  | halyardShow (l : Line)
  /-- HALYARD_COUNTERS (R141): Console `halyard counters` prints the heat's and the module's Halyard counters. -/
  | halyardCounters (l : Line)
  /-- ROUTER_FC_SLOT (R154): In each fc, each router output forwards the flit named by its slot entry, a control message
  in an open entry, or idle. -/
  | routerFcSlot (r : CoreId) (corrected : BitVec 4) (bad : BitVec 13)
  /-- CONTROL_MESSAGE (R174): A control flit is taken at a router and routed columns first, in open entries, to its
  destination, where it acts as a read, write, reply, doorbell or … -/
  | controlMessage (r : CoreId) (flit : Flit)
  /-- STOP_FLIT (R179): A stop control flit reaches a router; the router halts its core if its heat is named and
  forwards the flood. -/
  | stopFlit (r : CoreId) (flit : Flit)
  /-- REGION_CLOCK_CHANGE (R143): A requested region clock change takes effect at the next stride boundary. -/
  | regionClockChange
  /-- HEAT_COMMIT (R205): Console `heat commit` snapshots the staged settings and runs the commit checks. -/
  | heatCommit (l : Line)
  /-- COMMIT_ACTIVATE (R207): At the first lap boundary after the checks end, every value of the snapshot becomes active
  together. -/
  | commitActivate (h : HeatId)
  /-- HEAT_START (R211): Console `heat start` checks and arms the heat, taking it to starting and running the team check
  for team heats. -/
  | heatStart (l : Line)
  /-- TEAM_CHECK_DEADLINE (R525): At the boundary of lap L − 1 an unfinished team check fails with ERR 0344. -/
  | teamCheckDeadline (h : HeatId)
  /-- HEAT_START_LAP (R211): At the boundary of lap L the starting heat runs, fresh or resumed. -/
  | heatStartLap (h : HeatId)
  /-- HEAT_RECALL (R199): Console `heat recall` begins a recall from the given lap, or takes a halted heat to stopped. -/
  | heatRecall (l : Line)
  /-- RECALL_STOP (R200): At the first lap boundary B with no Halyard operation in flight, cores halt and the heat
  drains. -/
  | recallStop (h : HeatId)
  /-- DRAIN_END (R202): At the end of stride 15 of lap B the heat becomes stopped and unfinished operations complete
  with heat stopped. -/
  | drainEnd (h : HeatId)
  /-- HEAT_RESET (R214): Console `heat reset` resets the heat's cores, flushes its Halyard, closes its slots and
  discards its held results. -/
  | heatReset (l : Line)
  /-- SCRUB_COMPLETE (R215): The reset scrub of scratchpads and tier 1 ends, and the heat becomes stopped. -/
  | scrubComplete (h : HeatId)
  /-- HEAT_SHOW (R715): Console `heat show` prints heat state lines. -/
  | heatShow (l : Line)
  /-- HEAT_SET (R714): Console `heat set` writes the named staged heat fields as one operation. -/
  | heatSet (l : Line)
  /-- ADD (R238): Scalar add. -/
  | add (k : CoreId) (g : BitVec 3) (d a b : BitVec 5)
  /-- SUB (R238): Scalar subtract. -/
  | sub (k : CoreId) (g : BitVec 3) (d a b : BitVec 5)
  /-- AND (R238): Scalar bitwise and. -/
  | andR (k : CoreId) (g : BitVec 3) (d a b : BitVec 5)
  /-- OR (R238): Scalar bitwise or. -/
  | orR (k : CoreId) (g : BitVec 3) (d a b : BitVec 5)
  /-- XOR (R238): Scalar bitwise xor. -/
  | xorR (k : CoreId) (g : BitVec 3) (d a b : BitVec 5)
  /-- SHL (R238): Shift left by b[5:0]. -/
  | shl (k : CoreId) (g : BitVec 3) (d a b : BitVec 5)
  /-- SHR (R238): Logical shift right. -/
  | shr (k : CoreId) (g : BitVec 3) (d a b : BitVec 5)
  /-- SRA (R238): Arithmetic shift right. -/
  | sra (k : CoreId) (g : BitVec 3) (d a b : BitVec 5)
  /-- MUL (R238): Low 64 bits of a product. -/
  | mul (k : CoreId) (g : BitVec 3) (d a b : BitVec 5)
  /-- MULH (R238): High 64 bits of a signed product. -/
  | mulh (k : CoreId) (g : BitVec 3) (d a b : BitVec 5)
  /-- MULHU (R238): High 64 bits of an unsigned product. -/
  | mulhu (k : CoreId) (g : BitVec 3) (d a b : BitVec 5)
  /-- DIV (R238): Signed division toward zero, with defined results for a zero divisor and overflow. -/
  | div (k : CoreId) (g : BitVec 3) (d a b : BitVec 5)
  /-- DIVU (R238): Unsigned division. -/
  | divu (k : CoreId) (g : BitVec 3) (d a b : BitVec 5)
  /-- REM (R238): Signed remainder. -/
  | rem (k : CoreId) (g : BitVec 3) (d a b : BitVec 5)
  /-- REMU (R238): Unsigned remainder. -/
  | remu (k : CoreId) (g : BitVec 3) (d a b : BitVec 5)
  /-- MIN (R238): Signed minimum. -/
  | minR (k : CoreId) (g : BitVec 3) (d a b : BitVec 5)
  /-- MAX (R238): Signed maximum. -/
  | maxR (k : CoreId) (g : BitVec 3) (d a b : BitVec 5)
  /-- MINU (R238): Unsigned minimum. -/
  | minu (k : CoreId) (g : BitVec 3) (d a b : BitVec 5)
  /-- MAXU (R238): Unsigned maximum. -/
  | maxu (k : CoreId) (g : BitVec 3) (d a b : BitVec 5)
  /-- SEQ (R238): Predicate set if equal. -/
  | seq (k : CoreId) (g : BitVec 3) (d a b : BitVec 5)
  /-- SLT (R238): Predicate set if signed less than. -/
  | slt (k : CoreId) (g : BitVec 3) (d a b : BitVec 5)
  /-- SLTU (R238): Predicate set if unsigned less than. -/
  | sltu (k : CoreId) (g : BitVec 3) (d a b : BitVec 5)
  /-- PAND (R238): Predicate and. -/
  | pand (k : CoreId) (g : BitVec 3) (d a b : BitVec 5)
  /-- POR (R238): Predicate or. -/
  | por (k : CoreId) (g : BitVec 3) (d a b : BitVec 5)
  /-- PNOT (R238): Predicate not. -/
  | pnot (k : CoreId) (g : BitVec 3) (d a : BitVec 5)
  /-- ADDI (R238): Add of a sign-extended immediate. -/
  | addi (k : CoreId) (g : BitVec 3) (d a : BitVec 5) (imm : BitVec 12)
  /-- ANDI (R238): And with an immediate. -/
  | andi (k : CoreId) (g : BitVec 3) (d a : BitVec 5) (imm : BitVec 12)
  /-- ORI (R238): Or with an immediate. -/
  | ori (k : CoreId) (g : BitVec 3) (d a : BitVec 5) (imm : BitVec 12)
  /-- XORI (R238): Xor with an immediate. -/
  | xori (k : CoreId) (g : BitVec 3) (d a : BitVec 5) (imm : BitVec 12)
  /-- SHLI (R238): Shift left by an immediate. -/
  | shli (k : CoreId) (g : BitVec 3) (d a : BitVec 5) (imm : BitVec 12)
  /-- SHRI (R238): Logical shift right by an immediate. -/
  | shri (k : CoreId) (g : BitVec 3) (d a : BitVec 5) (imm : BitVec 12)
  /-- SRAI (R238): Arithmetic shift right by an immediate. -/
  | srai (k : CoreId) (g : BitVec 3) (d a : BitVec 5) (imm : BitVec 12)
  /-- SEQI (R238): Predicate set if equal to an immediate. -/
  | seqi (k : CoreId) (g : BitVec 3) (d a : BitVec 5) (imm : BitVec 12)
  /-- SLTI (R238): Predicate set if signed less than an immediate. -/
  | slti (k : CoreId) (g : BitVec 3) (d a : BitVec 5) (imm : BitVec 12)
  /-- SLTUI (R238): Predicate set if unsigned less than an immediate. -/
  | sltui (k : CoreId) (g : BitVec 3) (d a : BitVec 5) (imm : BitVec 12)
  /-- LI (R238): Load a sign-extended 17-bit constant. -/
  | li (k : CoreId) (g : BitVec 3) (d a : BitVec 5) (imm : BitVec 12)
  /-- LIS (R238): Shift d left by 16 and or in 16 bits. -/
  | lis (k : CoreId) (g : BitVec 3) (d a : BitVec 5) (imm : BitVec 12)
  /-- LD8U (R238): Zero-extended byte load from the scratchpad. -/
  | ld8u (k : CoreId) (g : BitVec 3) (d a : BitVec 5) (imm : BitVec 12)
  /-- LD16U (R238): Zero-extended 16-bit load. -/
  | ld16u (k : CoreId) (g : BitVec 3) (d a : BitVec 5) (imm : BitVec 12)
  /-- LD32U (R238): Zero-extended 32-bit load. -/
  | ld32u (k : CoreId) (g : BitVec 3) (d a : BitVec 5) (imm : BitVec 12)
  /-- LD64 (R238): 64-bit load. -/
  | ld64 (k : CoreId) (g : BitVec 3) (d a : BitVec 5) (imm : BitVec 12)
  /-- LD8S (R238): Sign-extended byte load. -/
  | ld8s (k : CoreId) (g : BitVec 3) (d a : BitVec 5) (imm : BitVec 12)
  /-- LD16S (R238): Sign-extended 16-bit load. -/
  | ld16s (k : CoreId) (g : BitVec 3) (d a : BitVec 5) (imm : BitVec 12)
  /-- LD32S (R238): Sign-extended 32-bit load. -/
  | ld32s (k : CoreId) (g : BitVec 3) (d a : BitVec 5) (imm : BitVec 12)
  /-- ST8 (R238): Byte store. -/
  | st8 (k : CoreId) (g : BitVec 3) (d a : BitVec 5) (imm : BitVec 12)
  /-- ST16 (R238): 16-bit store. -/
  | st16 (k : CoreId) (g : BitVec 3) (d a : BitVec 5) (imm : BitVec 12)
  /-- ST32 (R238): 32-bit store. -/
  | st32 (k : CoreId) (g : BitVec 3) (d a : BitVec 5) (imm : BitVec 12)
  /-- ST64 (R238): 64-bit store. -/
  | st64 (k : CoreId) (g : BitVec 3) (d a : BitVec 5) (imm : BitVec 12)
  /-- TLD (R238): Load a tile descriptor from 16 bytes of scratchpad. -/
  | tld (k : CoreId) (g : BitVec 3) (d a : BitVec 5) (imm : BitVec 12)
  /-- TST (R238): Store a tile descriptor. -/
  | tst (k : CoreId) (g : BitVec 3) (d a : BitVec 5) (imm : BitVec 12)
  /-- CSRR (R232): Read a CSR, waiting for VEC and MAT work when the CSR is a NUM_ register. -/
  | csrr (k : CoreId) (g : BitVec 3) (d : BitVec 5) (imm : BitVec 12)
  /-- CSRW (R232): Write a CSR; a NUM_SEED write reseeds the generators. -/
  | csrw (k : CoreId) (g : BitVec 3) (d : BitVec 5) (imm : BitVec 12)
  /-- BR (R238): PC-relative branch. -/
  | br (k : CoreId) (g : BitVec 3) (imm : BitVec 23)
  /-- CALL (R238): Branch with the link address in s31. -/
  | call (k : CoreId) (g : BitVec 3) (imm : BitVec 23)
  /-- JR (R238): Jump to a register. -/
  | jr (k : CoreId) (g : BitVec 3) (a : BitVec 5)
  /-- WAIT_POS (R240): WAIT until a lap:stride:fc position; an already passed position sets late_wait. -/
  | waitPos (k : CoreId) (g : BitVec 3) (a b : BitVec 5)
  /-- WAIT_CQ (R239): WAIT until the completion queue holds a record. -/
  | waitCq (k : CoreId) (g : BitVec 3)
  /-- WAIT_HQ (R239): WAIT until the Halyard completion queue holds a record. -/
  | waitHq (k : CoreId) (g : BitVec 3)
  /-- WAIT_OP (R239): WAIT until a named operation has a completion record. -/
  | waitOp (k : CoreId) (g : BitVec 3) (a : BitVec 5)
  /-- WAIT_CYC (R239): WAIT for a number of core cycles. -/
  | waitCyc (k : CoreId) (g : BitVec 3) (a : BitVec 5)
  /-- WAIT_STRIDE (R240): WAIT until the next stride boundary. -/
  | waitStride (k : CoreId) (g : BitVec 3)
  /-- WAIT_END (R240): The condition of a WAIT is met and issue resumes. -/
  | waitEnd (k : CoreId)
  /-- CKPT (R601): Set the replay checkpoint address. -/
  | ckpt (k : CoreId) (g : BitVec 3) (imm : BitVec 23)
  /-- PRES_OPEN (R269): PRES kind 0 tags a quarantine range and opens a speculative source. -/
  | presOpen (k : CoreId) (g : BitVec 3) (a b : BitVec 5)
  /-- PRES_CLOSE (R270): PRES kind 1 closes one provisional source. -/
  | presClose (k : CoreId) (g : BitVec 3)
  /-- PRES_DISCARD (R270): PRES kind 2 discards tagged state and replays. -/
  | presDiscard (k : CoreId) (g : BitVec 3)
  /-- HALT (R238): The core ends its program and reads done. -/
  | halt (k : CoreId) (g : BitVec 3)
  /-- NOP (R238): No operation. -/
  | nop (k : CoreId) (g : BitVec 3)
  /-- FENCE (R238): Wait until earlier scratchpad writes are complete. -/
  | fence (k : CoreId) (g : BitVec 3)
  /-- SYNCU (R238): Wait until the vector and matrix units are idle. -/
  | syncu (k : CoreId) (g : BitVec 3)
  /-- VADD (R241): Vector add, fast or strict. -/
  | vadd (k : CoreId) (g : BitVec 3) (st : Bool) (d a b : BitVec 5)
  /-- VSUB (R241): Vector subtract. -/
  | vsub (k : CoreId) (g : BitVec 3) (st : Bool) (d a b : BitVec 5)
  /-- VMUL (R241): Vector multiply. -/
  | vmul (k : CoreId) (g : BitVec 3) (st : Bool) (d a b : BitVec 5)
  /-- VFMA (R241): Vector fused multiply-add. -/
  | vfma (k : CoreId) (g : BitVec 3) (st : Bool) (d a b c : BitVec 5)
  /-- VMAX (R312): Vector maximum. -/
  | vmax (k : CoreId) (g : BitVec 3) (st : Bool) (d a b : BitVec 5)
  /-- VMIN (R312): Vector minimum. -/
  | vmin (k : CoreId) (g : BitVec 3) (st : Bool) (d a b : BitVec 5)
  /-- VABS (R301): Clear the sign bits. -/
  | vabs (k : CoreId) (g : BitVec 3) (st : Bool) (d a : BitVec 5)
  /-- VNEG (R301): Invert the sign bits. -/
  | vneg (k : CoreId) (g : BitVec 3) (st : Bool) (d a : BitVec 5)
  /-- VEXP2 (R242): Vector EXP2. -/
  | vexp2 (k : CoreId) (g : BitVec 3) (st : Bool) (d a : BitVec 5)
  /-- VLOG2 (R242): Vector LOG2. -/
  | vlog2 (k : CoreId) (g : BitVec 3) (st : Bool) (d a : BitVec 5)
  /-- VDIV (R313): Strict vector divide. -/
  | vdiv (k : CoreId) (g : BitVec 3) (st : Bool) (d a b : BitVec 5)
  /-- VSQRT (R313): Strict vector square root. -/
  | vsqrt (k : CoreId) (g : BitVec 3) (st : Bool) (d a : BitVec 5)
  /-- VCMPEQ (R312): Vector compare equal. -/
  | vcmpeq (k : CoreId) (g : BitVec 3) (st : Bool) (d a b : BitVec 5)
  /-- VCMPLT (R312): Vector compare less than. -/
  | vcmplt (k : CoreId) (g : BitVec 3) (st : Bool) (d a b : BitVec 5)
  /-- VSEL (R241): Vector select. -/
  | vsel (k : CoreId) (g : BitVec 3) (st : Bool) (d a b c : BitVec 5)
  /-- VAND (R241): Vector bitwise and. -/
  | vand (k : CoreId) (g : BitVec 3) (st : Bool) (d a b : BitVec 5)
  /-- VOR (R241): Vector bitwise or. -/
  | vor (k : CoreId) (g : BitVec 3) (st : Bool) (d a b : BitVec 5)
  /-- VXOR (R241): Vector bitwise xor. -/
  | vxor (k : CoreId) (g : BitVec 3) (st : Bool) (d a b : BitVec 5)
  /-- VSUM (R243): Canonical pairwise sum of 64 lanes. -/
  | vsum (k : CoreId) (g : BitVec 3) (st : Bool) (d a : BitVec 5)
  /-- VRMAX (R244): Pairwise maximum of 64 lanes. -/
  | vrmax (k : CoreId) (g : BitVec 3) (st : Bool) (d a : BitVec 5)
  /-- VBC (R241): Broadcast a scalar to every lane. -/
  | vbc (k : CoreId) (g : BitVec 3) (st : Bool) (d a : BitVec 5)
  /-- VEXT (R241): Extract one lane to a scalar. -/
  | vext (k : CoreId) (g : BitVec 3) (st : Bool) (d a b : BitVec 5)
  /-- VLD (R241): Vector load of 256 bytes. -/
  | vld (k : CoreId) (g : BitVec 3) (st : Bool) (d a : BitVec 5)
  /-- VST (R241): Vector store of 256 bytes. -/
  | vst (k : CoreId) (g : BitVec 3) (st : Bool) (d a : BitVec 5)
  /-- VCVT (R307): Convert lanes to a short format, rounded to nearest or stochastically. -/
  | vcvt (k : CoreId) (g : BitVec 3) (st : Bool) (d a b c : BitVec 5)
  /-- VUNPK (R241): Expand packed elements to binary32. -/
  | vunpk (k : CoreId) (g : BitVec 3) (st : Bool) (d a b : BitVec 5)
  /-- VMXQ (R309): Quantise two MX blocks with their scales. -/
  | vmxq (k : CoreId) (g : BitVec 3) (st : Bool) (d a b c : BitVec 5)
  /-- MMA (R331): One accumulation step of a tile product into an accumulation group. -/
  | mma (k : CoreId) (g : BitVec 3) (x : BitVec 3) (ta tb : BitVec 4)
  /-- AGOPEN (R247): Open an accumulation group in a mode on a region. -/
  | agopen (k : CoreId) (g : BitVec 3) (x : BitVec 3) (tc : BitVec 4) (imm : BitVec 6)
  /-- AGCLOSE (R346): Read out, scale and round the AG into a tile with its header, then close it. -/
  | agclose (k : CoreId) (g : BitVec 3) (x : BitVec 3) (ta tb tc : BitVec 4) (imm : BitVec 6)
  /-- AGRD (R347): Read the AG as an F32 tile, leaving it open. -/
  | agrd (k : CoreId) (g : BitVec 3) (x : BitVec 3) (tc : BitVec 4)
  /-- AGWR (R348): Write an F32 tile into the AG's top level. -/
  | agwr (k : CoreId) (g : BitVec 3) (x : BitVec 3) (ta : BitVec 4)
  /-- AGSAVE (R251): Save the full AG state with its header. -/
  | agsave (k : CoreId) (g : BitVec 3) (x : BitVec 3) (tc : BitVec 4)
  /-- AGLOAD (R251): Restore an AG from a saved image. -/
  | agload (k : CoreId) (g : BitVec 3) (x : BitVec 3) (ta : BitVec 4)
  /-- AGDROP (R805): Close an AG without output. -/
  | agdrop (k : CoreId) (g : BitVec 3) (x : BitVec 3)
  /-- ATTEND (R453): One fused attention command of kind 0 over the heat's ranks. -/
  | attend (k : CoreId) (g : BitVec 3) (ta : BitVec 4)
  /-- ATTEND_COMPLETE (R458): An ATTEND ends and writes a completion record of kind 4 with its status. -/
  | attendComplete (k : CoreId) (replay late : Bool)
  /-- COMMIT (R444): Keeper COMMIT moves accepted candidate slots into place, folds digests and sets len. -/
  | keeperCommit (k : CoreId) (g : BitVec 3) (ta : BitVec 4)
  /-- FORK (R423): Keeper FORK creates a child sheet sharing full blocks and copying the tail. -/
  | keeperFork (k : CoreId) (g : BitVec 3) (ta : BitVec 4)
  /-- RELEASE (R426): Keeper RELEASE decrements refs and frees bundles that reach zero. -/
  | keeperRelease (k : CoreId) (g : BitVec 3) (ta : BitVec 4)
  /-- PIN (R427): Keeper PIN sets or clears pin on a bundle's pages. -/
  | pinPage (k : CoreId) (g : BitVec 3) (ta : BitVec 4)
  /-- GROW (R425): Keeper GROW allocates frames for a free bundle and appends it to the sheet. -/
  | keeperGrow (k : CoreId) (g : BitVec 3) (ta : BitVec 4)
  /-- SEND (R254): Send one packet on a stream's outbound slots. -/
  | send (k : CoreId) (g : BitVec 3) (a b : BitVec 5) (imm : BitVec 12)
  /-- SEND_COMPLETE (R256): A SEND completes with ok or late once its last flit has left. -/
  | sendComplete (k : CoreId) (stream : BitVec 4)
  /-- RQPOP (R252): Pop the oldest receive record. -/
  | rqpop (k : CoreId) (g : BitVec 3) (a b : BitVec 5) (imm : BitVec 12)
  /-- SKIP (R255): Release a stream's next outbound slots. -/
  | skip (k : CoreId) (g : BitVec 3) (a b : BitVec 5) (imm : BitVec 12)
  /-- RSEND (R257): Queue relay flits for a direction. -/
  | rsend (k : CoreId) (g : BitVec 3) (a b : BitVec 5) (imm : BitVec 12)
  /-- RSEND_COMPLETE (R257): An RSEND completes when its last relay flit has left. -/
  | rsendComplete (k : CoreId) (dir : BitVec 2)
  /-- RRECV (R262): Post a relay receive buffer. -/
  | rrecv (k : CoreId) (g : BitVec 3) (a b : BitVec 5) (imm : BitVec 12)
  /-- RRECV_COMPLETE (R262): A posted relay buffer fills and its RRECV completes. -/
  | rrecvComplete (k : CoreId) (dir : BitVec 2)
  /-- HOIST (R88): Issue a Halyard descriptor, checked and entered as a leaf record. -/
  | hoist (k : CoreId) (g : BitVec 3) (a b : BitVec 5) (imm : BitVec 12)
  /-- HQPOP (R270): Pop a Halyard completion, opening, closing or discarding provisional sources. -/
  | hqpop (k : CoreId) (g : BitVec 3) (a b : BitVec 5) (imm : BitVec 12)
  /-- DMA (R385): Hand a descriptor chain to the core's DMA engine. -/
  | dma (k : CoreId) (g : BitVec 3) (a b : BitVec 5) (imm : BitVec 12)
  /-- CQPOP (R263): Pop the oldest completion record and free its identifier. -/
  | cqpop (k : CoreId) (g : BitVec 3) (a b : BitVec 5) (imm : BitVec 12)
  /-- DBELL (R252): Send a doorbell control flit. -/
  | dbell (k : CoreId) (g : BitVec 3) (a b : BitVec 5) (imm : BitVec 12)
  /-- PACKET_ARRIVAL (R258): A packet arrives at a core port; its data are written and a receive record is produced. -/
  | packetArrival (k : CoreId) (slot : BitVec 7) (head : VFlit) (data : List VFlit)
  /-- DOORBELL_ARRIVAL (R260): A doorbell to dport 1 produces a receive record of kind 7. -/
  | doorbellArrival (k : CoreId) (src : CoreId) (v : Word)
  /-- RELAY_FLIT_ARRIVAL (R262): A relay flit fills the oldest posted buffer, or is discarded without one. -/
  | relayFlitArrival (k : CoreId) (dir : BitVec 2) (void : BitVec 2) (data : BitVec 1024)
  /-- CORE_RESET (R277): A write of CORE_CTL.reset, or a Marshal action, resets a core and clears its state. -/
  | coreReset (k : CoreId)
  /-- IMAGE_LOAD (R281): Console `image load` reads, verifies and stages an Itorn image. -/
  | imageLoad (l : Line)
  /-- IMAGE_SHOW (R719): Console `image show` lists the loaded images. -/
  | imageShow (l : Line)
  /-- SLICE_READ_REQUEST (R364): A read request reaches a slice, reserve controller, core port or stage. -/
  | sliceReadRequest (t : MTarget) (head : VFlit) (n : BitVec 8)
  /-- SLICE_REPLY (R364): After the service time, the target sends the reply in the requester's reply-map offsets. -/
  | sliceReply (t : MTarget)
  /-- SLICE_WRITE_PACKET (R366): A write or write-accumulate packet is applied at a memory target and answered. -/
  | sliceWritePacket (t : MTarget) (head : VFlit) (data : List VFlit)
  /-- CE_WINDOW (R380): At each lap that is a multiple of 1,024, the per-unit correction counts start a new window. -/
  | ceWindow
  /-- PATROL_GRANULE (R384): Each stride, each slice and reserve controller patrols one granule and counts completed
  passes. -/
  | patrolGranule (t : MTarget) (found : BitVec 2)
  /-- DMA_DESCRIPTOR (R391): The engine begins a descriptor of its chain once the previous descriptor's writes are
  acknowledged. -/
  | dmaDescriptor (k : CoreId)
  /-- DMA_CHAIN_COMPLETE (R400): A chain ends or fails; the last descriptor is written back and one completion record of
  kind 3 is written. -/
  | dmaChainComplete (k : CoreId)
  /-- STAGE_REQUEST (R373): A stage request reaches the host attachment, which translates the unit and issues PCIe reads. -/
  | stageRequest (att : Fin 2) (k : CoreId) (unit : BitVec 31)
  /-- FAR_READ_COMPLETION (R373): A PCIe read completion arrives for a stage line; the line is marked staged once
  complete, or fails if poisoned or in error. -/
  | farReadCompletion (att : Fin 2) (unit : BitVec 31) (status : BitVec 2) (bytes : List Byte)
  /-- STAGE_TIMEOUT (R378): A stage line lacks completions after stage_to and fails with class 5. -/
  | stageTimeout (att : Fin 2) (unit : BitVec 31)
  /-- BAR2_READ (R405): A host BAR2 read reaches module memory through its attachment, or returns all ones. -/
  | bar2Read (pf : Fin 2) (off : BitVec 39) (len : BitVec 13)
  /-- BAR2_WRITE (R406): A posted BAR2 write is applied in order, or discarded, and a poisoned write stores poison. -/
  | bar2Write (pf : Fin 2) (off : BitVec 39) (bytes : List Byte) (poison : Bool)
  /-- BAR2_RESIZE (R404): The host resizes BAR2, and the base in use is aligned to the new size. -/
  | bar2Resize (pf : Fin 2) (size : Fin 10)
  /-- DMA_BAR2_BASE_WRITE (R404): A write to DMA_BAR2_BASE is stored with the low bits below the current size cleared. -/
  | dmaBar2BaseWrite (p : Path) (pf : Fin 2) (hi : Bool) (v : Word)
  /-- KEEPER_CHECK (R429): At stride 0 of each lap the keeper compares free frames with the water marks and spills or
  promotes pages. -/
  | keeperCheck (h : HeatId)
  /-- KEEPER_MOVE_COPY_DONE (R432): Once the page copy is acknowledged, the keeper writes the new tier and frame and
  frees the old frame. -/
  | keeperMoveCopyDone (h : HeatId) (j : BitVec 6)
  /-- KV_SHOW (R461): Console `kv show` prints the KV configuration, frames and counters. -/
  | kvShow (l : Line)
  /-- CODEWORD_RECEIVED (R467): An RS codeword is decoded on a Baton port, gaining or losing codeword lock and counting
  errors. -/
  | codewordReceived (port : PortId) (lanes : List (List (BitVec 10)))
  /-- FRAME_HEADER_RECEIVED (R477): A frame header is found and parsed for alignment, nesting, acks and naks. -/
  | frameHeaderReceived (port : PortId) (slot : BitVec 48) (blocks : BitVec 6) (hdr : Flit)
  /-- BULK_FRAME_RECEIVED (R483): A bulk frame is accepted, dropped or discarded as a duplicate. -/
  | bulkFrameReceived (port : PortId) (x : XFrame)
  /-- HALYARD_FRAME (R491): A Halyard express frame arrives and is forwarded or delivered as records. -/
  | halyardFrame (port : PortId) (x : XFrame)
  /-- IDENTITY_FRAME (R507): An identity frame arrives and the identity check passes or marks the port miswired. -/
  | identityFrame (port : PortId) (x : XFrame)
  /-- GOING_DOWN_FRAME (R503): A peer's going-down frame takes the port down. -/
  | goingDownFrame (port : PortId) (x : XFrame)
  /-- RETRAIN_REQUEST (R490): A link-management retrain request arrives from the peer. -/
  | retrainRequest (port : PortId) (x : XFrame)
  /-- TUNNEL_FRAME (R701): A console tunnel frame is forwarded, or delivered to the destination's tunnel session. -/
  | tunnelFrame (port : PortId) (x : XFrame)
  /-- ACK_TIMEOUT (R486): An ack of a class with frames outstanding has not advanced for 2 µs and a resend begins. -/
  | ackTimeout (port : PortId) (express : Bool)
  /-- LOSS_OF_SIGNAL (R503): A Baton port loses signal and goes down. -/
  | lossOfSignal (port : PortId)
  /-- FRAME_LOCK_TIMEOUT (R503): Frame lock not regained within 1 ms takes the port down. -/
  | frameLockTimeout (port : PortId)
  /-- PORT_TRAINING (R501): A port trains through adaptation, locks, identity, probes and the blat check, then clears nr. -/
  | portTraining (port : PortId)
  /-- TRAINING_TIMEOUT (R501): A port that has not cleared nr 100 ms after S-16 began is reported not trained. -/
  | trainingTimeout (port : PortId)
  /-- TRANSCEIVER_INSERTED (R777): A cable or transceiver in an enabled cage is powered after 100 ms and its port trains. -/
  | transceiverInserted (port : PortId) (long_ : Bool)
  /-- BTN_P_CTL_RETRAIN (R503): A write of 1 to BTN_P_CTL.retrain takes the port down and starts training again. -/
  | btnPCtlRetrain (p : Path) (port : PortId) (v : Word)
  /-- BATON_SHOW (R711): Console `baton show` prints port lines. -/
  | batonShow (l : Line)
  /-- BATON_TOPO (R505): Console `baton topo` stores BTN_TOPO in the settings record. -/
  | batonTopo (l : Line)
  /-- BATON_RETRAIN (R503): Console `baton retrain` retrains the listed ports. -/
  | batonRetrain (l : Line)
  /-- BATON_EQ (R463): Console `baton eq` writes BTN_P_EQ. -/
  | batonEq (l : Line)
  /-- BATON_SET (R712): Console `baton set` writes BTN_CFG while no team heat runs. -/
  | batonSet (l : Line)
  /-- BATON_ENABLE (R775): Console `baton enable` writes BTN_P_CTL en and auto. -/
  | batonEnable (l : Line)
  /-- TEAM_SHOW (R730): Console `team show` prints the team configuration. -/
  | teamShow (l : Line)
  /-- TEAM_SET (R730): Console `team set` writes the staged team registers. -/
  | teamSet (l : Line)
  /-- TEAM_TAIL (R731): Console `team tail` prints collective run records. -/
  | teamTail (l : Line)
  /-- CHECKER_REPORT (R556): A checker or monitor report reaches the fault collector, which classifies it and decides a
  pennant. -/
  | checkerReport (code : BitVec 12) (site detail : BitVec 16) (ev : Evidence)
  /-- STARTER_HEARTBEAT (R555): The Starter writes its heartbeat to the Marshal. -/
  | starterHeartbeat
  /-- HEARTBEAT_TIMEOUT (R555): No heartbeat for 10 ms logs yellow event 0x116. -/
  | heartbeatTimeout
  /-- SIGNATURE_COLLECTION (R571): By stride 256 the Marshal collects each core's signature comparison and reports
  mismatches as 0x204. -/
  | signatureCollection
  /-- LATENT_FAULT_AUDIT (R573): Each lap, the audit forces errors into the checkers of four regions and takes out of
  service a region that does not report. -/
  | latentFaultAudit (silent : BitVec 4) (restored : Bool)
  /-- MONITOR_SELF_TEST (R575): Every 4,096 laps each monitor's threshold is shifted to confirm a trip. -/
  | monitorSelfTest (trips : Bool)
  /-- MONITOR_EXCURSION (R572): A clock, rail, input, current or temperature monitor passes its limit for its filter
  time. -/
  | monitorExcursion (m : Monitor)
  /-- SAFE_STOP_N (R578): SAFE_STOP_N held low for 20 ns asserts all-stop and logs 0x213 for every heat that exists. -/
  | safeStopN
  /-- SAFE_STOP_N_RELEASED (R578): SAFE_STOP_N returns high; nothing restarts, and heat start is admitted again. -/
  | safeStopNReleased
  /-- TEAM_STOP_FRAME (R579): A team stop safety frame is accepted once, halts the named team heats with 0x212 and is
  forwarded. -/
  | teamStopFrame (port : PortId) (x : XFrame)
  /-- MAR_LOCK_WRITE (R585): The first write to MAR_LOCK sets the lock or consumes the register. -/
  | marLockWrite (p : Path) (v : Word)
  /-- MAR_SVC_WRITE (R588): A write to MAR_SVC.on enters or leaves service mode unless the lock is set. -/
  | marSvcWrite (p : Path) (v : Word)
  /-- INJECTION_ARM (R589): A write of arm to MAR_INJ_CTL in service mode arms an injection. -/
  | injectionArm (p : Path) (v : Word)
  /-- INJECTION_ACTS (R590): At the armed position the injection acts, or is cancelled under R591. -/
  | injectionActs
  /-- MARSHAL_SHOW (R596): Console `marshal show` prints the Marshal state. -/
  | marshalShow (l : Line)
  /-- MARSHAL_LOCK (R722): Console `marshal lock` clears service mode and sets the lock, optionally persisting it. -/
  | marshalLock (l : Line)
  /-- MARSHAL_SERVICE (R588): Console `marshal service` sets MAR_SVC.on. -/
  | marshalService (l : Line)
  /-- MARSHAL_INJECT (R723): Console `marshal inject` arms an injection. -/
  | marshalInject (l : Line)
  /-- MARSHAL_RESTORE (R574): Console `marshal restore` audits a region again and clears its out-of-service mark if the
  audit passes. -/
  | marshalRestore (l : Line)
  /-- RELEASE_DOORBELL (R606): A doorbell at the release engine is accepted, stamping new entries with the lap and
  checking them, or refused. -/
  | releaseDoorbell (att : Fin 2) (src : CoreId) (v : Word)
  /-- RELEASE_DRAIN (R615): The engine drains the next released or discarded entry to host memory and writes its record. -/
  | releaseDrain (h : HeatId)
  /-- HCONS_WRITE (R617): The host advances HEAT_H_REL_HCONS, freeing record ring space for a waiting engine. -/
  | hconsWrite (p : Path) (h : HeatId) (v : Word)
  /-- POWER_UP (R624): The main input has stayed within 40–60 V for 10 ms; t0 is reached and a boot begins. -/
  | powerUp
  /-- AUX_APPLIED (R625): 3.3 V_AUX is applied; the epoch increments and the standby clock starts. -/
  | auxApplied
  /-- MGT_PORT_ACTIVE (R757): Twenty milliseconds after 3.3 V_AUX enters range, the management port becomes active. -/
  | mgtPortActive
  /-- AUX_LOSS (R771): 3.3 V_AUX below 2.9 V opens the input switch and removes all rails within 100 µs. -/
  | auxLoss
  /-- MATE_N_OPEN (R763): MATE_N opens and the input switch opens within 20 µs. -/
  | mateNOpen
  /-- BOOT_STEP (R626): A start step runs to its outcome under its chosen alternative, and the next step begins. -/
  | bootStep (r : StepResult)
  /-- SECTOR_ERASE_DONE (R655): A background erase of the next journal sector completes. -/
  | sectorEraseDone
  /-- PERST_N_ASSERTED (R637): PERST_N low for 1 µs resets the host link and configuration state only. -/
  | perstNAsserted
  /-- PERST_N_DEASSERTED (R634): PERST_N deasserts; the link leaves Detect and the configuration deadline is recomputed. -/
  | perstNDeasserted
  /-- CONFIG_REQUEST (R634): A PCIe configuration request is answered with CRS until release, then served. -/
  | configRequest (pf : Fin 2)
  /-- CONFIG_DEADLINE (R635): At 950 ms after T_ref without S-15, configuration is released with reduced functions. -/
  | configDeadline
  /-- FUNCTION_LEVEL_RESET (R668): A Function Level Reset of a PF closes its mailbox session. -/
  | functionLevelReset (pf : Fin 2)
  /-- STARTER_RESTART (R662): The Starter restarts through S-03, closes every session, rebuilds its view and reopens the
  console. -/
  | starterRestart
  /-- STA_CTL_HOLD_REQ (R717): A write of 1 to STA_CTL.hold_req requests a command hold. -/
  | staCtlHoldReq (p : Path)
  /-- STA_CTL_RELEASE (R649): A write of 1 to STA_CTL.release performs hold release. -/
  | staCtlRelease (p : Path)
  /-- HOLD (R717): Console `hold` sets STA_CTL.hold_req. -/
  | holdCmd (l : Line)
  /-- HOLD_RELEASE (R718): Console `hold release` continues a command hold or withdraws a pending request. -/
  | holdRelease (l : Line)
  /-- STATUS (R630): Console `status` prints the boot, module, heat and Marshal lines. -/
  | statusCmd (l : Line)
  /-- STATUS_FENCE (R198): Console `status fence` prints the fence and out-of-service maps per block. -/
  | statusFence (l : Line)
  /-- JOURNAL (R651): Console `journal` lists recent journal entries. -/
  | journalCmd (l : Line)
  /-- JOURNAL_SHOW (R652): Console `journal show` prints one entry in full. -/
  | journalShow (l : Line)
  /-- JOURNAL_CLEAR (R720): Console `journal clear` writes a settings entry with a clear mask. -/
  | journalClear (l : Line)
  /-- REBOOT (R726): Console `reboot` removes rail groups 1 to 5 and starts a new boot. -/
  | rebootCmd (l : Line)
  /-- UPDATE_SHOW (R732): Console `update show` prints slots and the transfer state. -/
  | updateShow (l : Line)
  /-- UPDATE_BEGIN (R732): Console `update begin` opens a firmware transfer. -/
  | updateBegin (l : Line)
  /-- UPDATE_DATA (R732): Console `update data` appends firmware bytes. -/
  | updateData (l : Line)
  /-- UPDATE_END (R733): Console `update end` verifies the image and writes the inactive slot, or updates the Marshal. -/
  | updateEnd (l : Line)
  /-- UPDATE_APPLY (R734): Console `update apply` restarts the Starter onto the pending image. -/
  | updateApply (l : Line)
  /-- UART_BYTE (R675): A byte arrives on the UART or USB and is edited and echoed in typed form. -/
  | uartByte (usb : Bool) (b : Byte)
  /-- UART_BREAK (R670): A break of at least 1 ms discards the partial line and resets the rate to 115,200. -/
  | uartBreak
  /-- CONSOLE_LINE (R690): A terminator completes a line, which enters the stop recogniser and the line queue. -/
  | consoleLine (sess : SessId) (text : List Byte)
  /-- LINE_EXECUTE (R684): A queued line begins once ordering allows and is checked in order, then executed or answered
  with an error. -/
  | lineExecute
  /-- OUTPUT_SPACE_FREE (R699): Output space frees; a paused reply continues and EVT lost reports dropped lines. -/
  | outputSpaceFree (sess : SessId) (n : BitVec 16)
  /-- USB_OPEN (R668): SET_CONTROL_LINE_STATE with DTR opens a USB session. -/
  | usbOpen
  /-- USB_CLOSE (R668): DTR cleared, bus reset or detach closes the USB session. -/
  | usbClose
  /-- MAILBOX_HCTL_WRITE (R702): A host write to hctl opens or closes a mailbox session and sets irq_en. -/
  | mailboxHctlWrite (pf : Fin 2) (v : Word)
  /-- MAILBOX_DOORBELL (R703): A host write to the mailbox doorbell makes new input lines available. -/
  | mailboxDoorbell (pf : Fin 2) (bytes : List Byte)
  /-- MAILBOX_OUTPUT_TIMEOUT (R704): An output ring with no free byte for 10 s closes the mailbox session. -/
  | mailboxOutputTimeout (pf : Fin 2)
  /-- TUNNEL_IDLE_TIMEOUT (R668): A tunnel session with no line for 60 s closes. -/
  | tunnelIdleTimeout (sess : SessId)
  /-- TUNNEL_TIMEOUT (R700): A routed line without a final reply after 10 s is answered ERR 0405. -/
  | tunnelTimeout (sess : SessId)
  /-- CLAIM (R686): Console `claim` takes the claim if it is free. -/
  | claimCmd (l : Line)
  /-- CLAIM_FORCE (R687): Console `claim force=1` takes the claim from any holder where permitted. -/
  | claimForce (l : Line)
  /-- UNCLAIM (R686): Console `unclaim` gives up the claim. -/
  | unclaim (l : Line)
  /-- SET_SESSION (R698): Console `set session` changes a session setting. -/
  | setSession (l : Line)
  /-- GET_SESSION (R698): Console `get session` prints the session settings. -/
  | getSession (l : Line)
  /-- HELP (R707): Console `help` prints verbs or the syntax of one verb. -/
  | helpCmd (l : Line)
  /-- GET_REG (R713): Console `get reg` reads a register as BAR0 does, staged or active. -/
  | getReg (l : Line)
  /-- SET_REG (R727): Console `set reg` checks and writes a register or field, optionally persisting it. -/
  | setReg (l : Line)
  /-- LOG (R584): Console `log` prints filtered Marshal log entries. -/
  | logCmd (l : Line)
  /-- MESH_SHOW (R185): Console `mesh show` prints mesh counters. -/
  | meshShow (l : Line)
  /-- MESH_DIST (R172): Console `mesh dist` prints the scheduled distance. -/
  | meshDist (l : Line)
  /-- MESH_SLOT (R154): Console `mesh slot` prints a slot entry. -/
  | meshSlot (l : Line)
  /-- MESH_LATE (R167): Console `mesh late` prints a consumer's late count. -/
  | meshLate (l : Line)
  /-- NUM_SHOW (R325): Console `num show` prints a core's numeric state. -/
  | numShow (l : Line)
  /-- NUM_CFG (R724): Console `num cfg` writes NUM_CFG of the listed cores. -/
  | numCfg (l : Line)
  /-- NUM_SEED (R724): Console `num seed` writes NUM_SEED of the listed cores. -/
  | numSeed (l : Line)
  /-- NUM_CLEAR (R724): Console `num clear` clears the numeric counters and flags. -/
  | numClear (l : Line)
  /-- NUM_SEED_WRITE (R306): A write of NUM_SEED reseeds all 64 generators of the core. -/
  | numSeedWrite (p : Path) (k : CoreId) (v : Word)
  /-- POWER_SHOW (R790): Console `power show` prints input power and throttle state. -/
  | powerShow (l : Line)
  /-- POWER_CLOCK (R725): Console `power clock` sets region clocks and VDD_Qq. -/
  | powerClock (l : Line)
  /-- STOP (R729): Console `stop` halts the named heats and discards their held entries. -/
  | stopCmd (l : Line)
  /-- THERMAL_SHOW (R790): Console `thermal show` prints temperatures. -/
  | thermalShow (l : Line)
  /-- THERMAL_WARN (R572): Console `thermal warn` writes MAR_CFG.t_warn. -/
  | thermalWarn (l : Line)
  /-- THROTTLE_STEP (R788): At a lap boundary while a trigger holds, region clocks drop 100 MHz at stride 16. -/
  | throttleStep
  /-- THROTTLE_RAISE (R789): After 64 calm laps, lowered regions rise 100 MHz at stride 16. -/
  | throttleRaise
  /-- MGT_READ (R747): An SPI READ transaction returns standby registers directly, with an optional trailer. -/
  | mgtRead (crc : Bool) (nM1 : BitVec 5) (addr : BitVec 24) (edges : BitVec 16)
  /-- MGT_WRITE (R750): An SPI WRITE commits words directly or into the write queue, subject to CRC and the lock. -/
  | mgtWrite (crc : Bool) (addr : BitVec 24) (words : List Word) (trailer : BitVec 8) (edges : BitVec 16)
  /-- MGT_FETCH (R748): An SPI FETCH reads registers behind the fabric into MGT_FBUF. -/
  | mgtFetch (crc : Bool) (nM1 : BitVec 5) (addr : BitVec 24) (trailer : BitVec 8) (edges : BitVec 16)
  /-- MGT_FETCH_COMPLETE (R748): A fetch finishes reading its words and sets done. -/
  | mgtFetchComplete (late : BitVec 32)
  /-- MGT_WRITE_QUEUE_APPLY (R750): A queued management write word is applied through the BAR0 path. -/
  | mgtWriteQueueApply
  /-- MGT_BAD_COMMAND (R740): A transaction with op 3 is ignored and sets badcmd. -/
  | mgtBadCommand
  /-- BATON_FLIT_SLOT (R470): At each flit slot of a Baton port the transmitter sends a bulk header, a payload flit, an
  express frame, a control block or an idle bulk frame, under … -/
  | batonFlitSlot (port : PortId) (sub : BitVec 4)
  /-- RESERVE_SCRUB_COMPLETE (R215): The scrub of a reset heat's reserve controllers ends, up to 757 ms after the
  command, and HEAT_H_STATE.scrubbing clears. -/
  | reserveScrubComplete (h : HeatId)
  /-- HOST_LINK_TRAINED (R772): The host link finishes training in the background and STA_BOOT.link is set. -/
  | hostLinkTrained
  /-- UART_CTS_CHANGE (R699): CTS_N changes level and, with flow = 1, the UART stops or resumes sending. -/
  | uartCtsChange (off : Bool)
  /-- MAIN_INPUT_POWER_CYCLE (R767): The main input has stayed below 30 V for 20 ms; this counts as a power cycle that
  ends the black safe state, and the rails go out. -/
  | mainInputPowerCycle
  /-- MARSHAL_UPDATE_ARMED (R594): Up to 150 ms after a Marshal update is written, the Marshal has restarted from the
  new slot, repeated its self-tests and armed again, leaving the … -/
  | marshalUpdateArmed
  /-- STARTER_RESTART_COMPLETE (R662): The restarted Starter has rebuilt its view and opens the console; mailbox
  sessions reopen with EVT starter and the heartbeat resumes. -/
  | starterRestartComplete (failed : Bool)
  /-- IMAGE_LOAD_COMPLETE (R719): The deferred `image load` finishes reading the image over control messages, checks it,
  refuses it if a named heat is not free or stopped, and … -/
  | imageLoadComplete
  deriving DecidableEq, Repr

end Sys2Proof
end

