-- ==== Sys2Proof/Decode.lean ====
section
/-! DEFINITION. The words of the core instructions (R237, Tables 6-4 to 6-14). The table of commands gives no bits to
any row, so `decodeTableWord` spells no command; the core's own 32-bit encodings are written here as the spec gives
them, for the signatures of R570. -/

namespace Sys2Proof

/-- The command a word of the table of commands spells: the table gives no row any bits. -/
def decodeTableWord (_nbits _w : Nat) : Option Instr := none

/-- Class and guard of an instruction: bits [31:29] and [28:26] (R237). -/
def classWord (cls : Nat) (g : BitVec 3) (rest : Nat) : Word :=
  BitVec.ofNat 32 (cls * 0x20000000 + g.toNat * 0x4000000 + rest)

/-- Class 0, SR. -/
def srWord (func : Nat) (g : BitVec 3) (d a b : BitVec 5) : Word :=
  classWord 0 g (func * 0x200000 + d.toNat * 0x10000 + a.toNat * 0x800 + b.toNat * 0x40)

/-- Class 1, SI. -/
def siWord (func : Nat) (g : BitVec 3) (d a : BitVec 5) (imm : BitVec 12) : Word :=
  classWord 1 g (func * 0x400000 + d.toNat * 0x20000 + a.toNat * 0x1000 + imm.toNat)

/-- Class 2, MEM. -/
def memWord (func : Nat) (g : BitVec 3) (d a : BitVec 5) (imm : BitVec 12) : Word :=
  classWord 2 g (func * 0x400000 + d.toNat * 0x20000 + a.toNat * 0x1000 + imm.toNat)

/-- Class 3, CTL. -/
def ctlWord (func : Nat) (g : BitVec 3) (rest : Nat) : Word := classWord 3 g (func * 0x800000 + rest)

/-- WAIT (CTL function 3). -/
def waitWord (kind : Nat) (g : BitVec 3) (a b : BitVec 5) : Word :=
  ctlWord 3 g (kind * 0x100000 + a.toNat * 0x8000 + b.toNat * 0x400)

/-- PRES (CTL function 5). -/
def presWord (kind : Nat) (g : BitVec 3) (a b : BitVec 5) : Word :=
  ctlWord 5 g (kind * 0x200000 + a.toNat * 0x10000 + b.toNat * 0x800)

/-- Class 4, VEC. -/
def vecWord (func : Nat) (g : BitVec 3) (st : Bool) (d a b c : BitVec 5) : Word :=
  classWord 4 g (func * 0x200000 + st.toNat * 0x100000 + d.toNat * 0x8000 + a.toNat * 0x400 + b.toNat * 0x20 +
    c.toNat)

/-- Class 5, MAT. -/
def matWord (func : Nat) (g : BitVec 3) (x : BitVec 3) (ta tb tc : BitVec 4) (imm : BitVec 6) : Word :=
  classWord 5 g (func * 0x200000 + x.toNat * 0x40000 + ta.toNat * 0x4000 + tb.toNat * 0x400 + tc.toNat * 0x40 +
    imm.toNat)

/-- Class 6, COM. -/
def comWord (func : Nat) (g : BitVec 3) (a b : BitVec 5) (imm : BitVec 12) : Word :=
  classWord 6 g (func * 0x400000 + a.toNat * 0x20000 + b.toNat * 0x1000 + imm.toNat)

/-- The word of a core instruction, with its core. An ATTEND word names one of the six commands of its class by the
descriptor it points to (Table 10-13), so only `attend` stands for it here. -/
def encodeCore : Instr → Option (CoreId × Word)
  | .add k g d a b => some (k, srWord 0 g d a b)
  | .sub k g d a b => some (k, srWord 1 g d a b)
  | .andR k g d a b => some (k, srWord 2 g d a b)
  | .orR k g d a b => some (k, srWord 3 g d a b)
  | .xorR k g d a b => some (k, srWord 4 g d a b)
  | .shl k g d a b => some (k, srWord 5 g d a b)
  | .shr k g d a b => some (k, srWord 6 g d a b)
  | .sra k g d a b => some (k, srWord 7 g d a b)
  | .mul k g d a b => some (k, srWord 8 g d a b)
  | .mulh k g d a b => some (k, srWord 9 g d a b)
  | .mulhu k g d a b => some (k, srWord 10 g d a b)
  | .div k g d a b => some (k, srWord 11 g d a b)
  | .divu k g d a b => some (k, srWord 12 g d a b)
  | .rem k g d a b => some (k, srWord 13 g d a b)
  | .remu k g d a b => some (k, srWord 14 g d a b)
  | .minR k g d a b => some (k, srWord 15 g d a b)
  | .maxR k g d a b => some (k, srWord 16 g d a b)
  | .minu k g d a b => some (k, srWord 17 g d a b)
  | .maxu k g d a b => some (k, srWord 18 g d a b)
  | .seq k g d a b => some (k, srWord 19 g d a b)
  | .slt k g d a b => some (k, srWord 20 g d a b)
  | .sltu k g d a b => some (k, srWord 21 g d a b)
  | .pand k g d a b => some (k, srWord 22 g d a b)
  | .por k g d a b => some (k, srWord 23 g d a b)
  | .pnot k g d a => some (k, srWord 24 g d a 0)
  | .addi k g d a imm => some (k, siWord 0 g d a imm)
  | .andi k g d a imm => some (k, siWord 1 g d a imm)
  | .ori k g d a imm => some (k, siWord 2 g d a imm)
  | .xori k g d a imm => some (k, siWord 3 g d a imm)
  | .shli k g d a imm => some (k, siWord 4 g d a imm)
  | .shri k g d a imm => some (k, siWord 5 g d a imm)
  | .srai k g d a imm => some (k, siWord 6 g d a imm)
  | .seqi k g d a imm => some (k, siWord 7 g d a imm)
  | .slti k g d a imm => some (k, siWord 8 g d a imm)
  | .sltui k g d a imm => some (k, siWord 9 g d a imm)
  | .li k g d a imm => some (k, siWord 10 g d a imm)
  | .lis k g d a imm => some (k, siWord 11 g d a imm)
  | .ld8u k g d a imm => some (k, memWord 0 g d a imm)
  | .ld16u k g d a imm => some (k, memWord 1 g d a imm)
  | .ld32u k g d a imm => some (k, memWord 2 g d a imm)
  | .ld64 k g d a imm => some (k, memWord 3 g d a imm)
  | .ld8s k g d a imm => some (k, memWord 4 g d a imm)
  | .ld16s k g d a imm => some (k, memWord 5 g d a imm)
  | .ld32s k g d a imm => some (k, memWord 6 g d a imm)
  | .st8 k g d a imm => some (k, memWord 7 g d a imm)
  | .st16 k g d a imm => some (k, memWord 8 g d a imm)
  | .st32 k g d a imm => some (k, memWord 9 g d a imm)
  | .st64 k g d a imm => some (k, memWord 10 g d a imm)
  | .tld k g d a imm => some (k, memWord 11 g d a imm)
  | .tst k g d a imm => some (k, memWord 12 g d a imm)
  | .csrr k g d imm => some (k, memWord 13 g d 0 imm)
  | .csrw k g d imm => some (k, memWord 14 g d 0 imm)
  | .br k g imm => some (k, ctlWord 0 g imm.toNat)
  | .call k g imm => some (k, ctlWord 1 g imm.toNat)
  | .jr k g a => some (k, ctlWord 2 g (a.toNat * 0x40000))
  | .waitPos k g a b => some (k, waitWord 0 g a b)
  | .waitCq k g => some (k, waitWord 1 g 0 0)
  | .waitHq k g => some (k, waitWord 2 g 0 0)
  | .waitOp k g a => some (k, waitWord 3 g a 0)
  | .waitCyc k g a => some (k, waitWord 4 g a 0)
  | .waitStride k g => some (k, waitWord 5 g 0 0)
  | .ckpt k g imm => some (k, ctlWord 4 g imm.toNat)
  | .presOpen k g a b => some (k, presWord 0 g a b)
  | .presClose k g => some (k, presWord 1 g 0 0)
  | .presDiscard k g => some (k, presWord 2 g 0 0)
  | .halt k g => some (k, ctlWord 6 g 0)
  | .nop k g => some (k, ctlWord 7 g 0)
  | .fence k g => some (k, ctlWord 7 g 0x100000)
  | .syncu k g => some (k, ctlWord 7 g 0x200000)
  | .vadd k g st d a b => some (k, vecWord 0 g st d a b 0)
  | .vsub k g st d a b => some (k, vecWord 1 g st d a b 0)
  | .vmul k g st d a b => some (k, vecWord 2 g st d a b 0)
  | .vfma k g st d a b c => some (k, vecWord 3 g st d a b c)
  | .vmax k g st d a b => some (k, vecWord 4 g st d a b 0)
  | .vmin k g st d a b => some (k, vecWord 5 g st d a b 0)
  | .vabs k g st d a => some (k, vecWord 6 g st d a 0 0)
  | .vneg k g st d a => some (k, vecWord 7 g st d a 0 0)
  | .vexp2 k g st d a => some (k, vecWord 8 g st d a 0 0)
  | .vlog2 k g st d a => some (k, vecWord 9 g st d a 0 0)
  | .vdiv k g st d a b => some (k, vecWord 10 g st d a b 0)
  | .vsqrt k g st d a => some (k, vecWord 11 g st d a 0 0)
  | .vcmpeq k g st d a b => some (k, vecWord 12 g st d a b 0)
  | .vcmplt k g st d a b => some (k, vecWord 13 g st d a b 0)
  | .vsel k g st d a b c => some (k, vecWord 14 g st d a b c)
  | .vand k g st d a b => some (k, vecWord 15 g st d a b 0)
  | .vor k g st d a b => some (k, vecWord 16 g st d a b 0)
  | .vxor k g st d a b => some (k, vecWord 17 g st d a b 0)
  | .vsum k g st d a => some (k, vecWord 18 g st d a 0 0)
  | .vrmax k g st d a => some (k, vecWord 19 g st d a 0 0)
  | .vbc k g st d a => some (k, vecWord 20 g st d a 0 0)
  | .vext k g st d a b => some (k, vecWord 21 g st d a b 0)
  | .vld k g st d a => some (k, vecWord 22 g st d a 0 0)
  | .vst k g st d a => some (k, vecWord 23 g st d a 0 0)
  | .vcvt k g st d a b c => some (k, vecWord 24 g st d a b c)
  | .vunpk k g st d a b => some (k, vecWord 25 g st d a b 0)
  | .vmxq k g st d a b c => some (k, vecWord 26 g st d a b c)
  | .mma k g x ta tb => some (k, matWord 0 g x ta tb 0 0)
  | .agopen k g x tc imm => some (k, matWord 1 g x 0 0 tc imm)
  | .agclose k g x ta tb tc imm => some (k, matWord 2 g x ta tb tc imm)
  | .agrd k g x tc => some (k, matWord 3 g x 0 0 tc 0)
  | .agwr k g x ta => some (k, matWord 4 g x ta 0 0 0)
  | .agsave k g x tc => some (k, matWord 5 g x 0 0 tc 0)
  | .agload k g x ta => some (k, matWord 6 g x ta 0 0 0)
  | .agdrop k g x => some (k, matWord 7 g x 0 0 0 0)
  | .attend k g ta => some (k, matWord 8 g 0 ta 0 0 0)
  | .send k g a b imm => some (k, comWord 0 g a b imm)
  | .rqpop k g a b imm => some (k, comWord 1 g a b imm)
  | .skip k g a b imm => some (k, comWord 2 g a b imm)
  | .rsend k g a b imm => some (k, comWord 3 g a b imm)
  | .rrecv k g a b imm => some (k, comWord 4 g a b imm)
  | .hoist k g a b imm => some (k, comWord 5 g a b imm)
  | .hqpop k g a b imm => some (k, comWord 6 g a b imm)
  | .dma k g a b imm => some (k, comWord 7 g a b imm)
  | .cqpop k g a b imm => some (k, comWord 8 g a b imm)
  | .dbell k g a b imm => some (k, comWord 9 g a b imm)
  | _ => none

/-- Bits `lo` to `lo + n - 1` of a number. -/
def fieldAt (x lo : Nat) (n : Nat) : BitVec n := BitVec.ofNat n (x / 2 ^ lo)

/-- Table 6-5. Bits [5:0] are zero. -/
def decodeSr (k : CoreId) (g : BitVec 3) (x : Nat) : Option Instr :=
  let d := fieldAt x 16 5
  let a := fieldAt x 11 5
  let b := fieldAt x 6 5
  if x % 64 ≠ 0 then none else
  match x / 2 ^ 21 % 32 with
  | 0 => some (.add k g d a b)
  | 1 => some (.sub k g d a b)
  | 2 => some (.andR k g d a b)
  | 3 => some (.orR k g d a b)
  | 4 => some (.xorR k g d a b)
  | 5 => some (.shl k g d a b)
  | 6 => some (.shr k g d a b)
  | 7 => some (.sra k g d a b)
  | 8 => some (.mul k g d a b)
  | 9 => some (.mulh k g d a b)
  | 10 => some (.mulhu k g d a b)
  | 11 => some (.div k g d a b)
  | 12 => some (.divu k g d a b)
  | 13 => some (.rem k g d a b)
  | 14 => some (.remu k g d a b)
  | 15 => some (.minR k g d a b)
  | 16 => some (.maxR k g d a b)
  | 17 => some (.minu k g d a b)
  | 18 => some (.maxu k g d a b)
  | 19 => some (.seq k g d a b)
  | 20 => some (.slt k g d a b)
  | 21 => some (.sltu k g d a b)
  | 22 => some (.pand k g d a b)
  | 23 => some (.por k g d a b)
  | 24 => if b = 0 then some (.pnot k g d a) else none
  | _ => none

/-- Table 6-6. -/
def decodeSi (k : CoreId) (g : BitVec 3) (x : Nat) : Option Instr :=
  let d := fieldAt x 17 5
  let a := fieldAt x 12 5
  let imm := fieldAt x 0 12
  match x / 2 ^ 22 % 16 with
  | 0 => some (.addi k g d a imm)
  | 1 => some (.andi k g d a imm)
  | 2 => some (.ori k g d a imm)
  | 3 => some (.xori k g d a imm)
  | 4 => some (.shli k g d a imm)
  | 5 => some (.shri k g d a imm)
  | 6 => some (.srai k g d a imm)
  | 7 => some (.seqi k g d a imm)
  | 8 => some (.slti k g d a imm)
  | 9 => some (.sltui k g d a imm)
  | 10 => some (.li k g d a imm)
  | 11 => some (.lis k g d a imm)
  | _ => none

/-- Table 6-7. -/
def decodeMem (k : CoreId) (g : BitVec 3) (x : Nat) : Option Instr :=
  let d := fieldAt x 17 5
  let a := fieldAt x 12 5
  let imm := fieldAt x 0 12
  match x / 2 ^ 22 % 16 with
  | 0 => some (.ld8u k g d a imm)
  | 1 => some (.ld16u k g d a imm)
  | 2 => some (.ld32u k g d a imm)
  | 3 => some (.ld64 k g d a imm)
  | 4 => some (.ld8s k g d a imm)
  | 5 => some (.ld16s k g d a imm)
  | 6 => some (.ld32s k g d a imm)
  | 7 => some (.st8 k g d a imm)
  | 8 => some (.st16 k g d a imm)
  | 9 => some (.st32 k g d a imm)
  | 10 => some (.st64 k g d a imm)
  | 11 => some (.tld k g d a imm)
  | 12 => some (.tst k g d a imm)
  | 13 => if a = 0 then some (.csrr k g d imm) else none
  | 14 => if a = 0 then some (.csrw k g d imm) else none
  | _ => none

/-- Table 6-9. -/
def decodeWait (k : CoreId) (g : BitVec 3) (x : Nat) : Option Instr :=
  let a := fieldAt x 15 5
  let b := fieldAt x 10 5
  if x % 1024 ≠ 0 then none else
  match x / 2 ^ 20 % 8 with
  | 0 => some (.waitPos k g a b)
  | 1 => if a = 0 ∧ b = 0 then some (.waitCq k g) else none
  | 2 => if a = 0 ∧ b = 0 then some (.waitHq k g) else none
  | 3 => if b = 0 then some (.waitOp k g a) else none
  | 4 => if b = 0 then some (.waitCyc k g a) else none
  | 5 => if a = 0 ∧ b = 0 then some (.waitStride k g) else none
  | _ => none

/-- The provisional source kinds (R271). -/
def decodePres (k : CoreId) (g : BitVec 3) (x : Nat) : Option Instr :=
  let a := fieldAt x 16 5
  let b := fieldAt x 11 5
  if x % 2048 ≠ 0 then none else
  match x / 2 ^ 21 % 4 with
  | 0 => some (.presOpen k g a b)
  | 1 => if a = 0 ∧ b = 0 then some (.presClose k g) else none
  | 2 => if a = 0 ∧ b = 0 then some (.presDiscard k g) else none
  | _ => none

/-- Table 6-8. -/
def decodeCtl (k : CoreId) (g : BitVec 3) (x : Nat) : Option Instr :=
  let imm := fieldAt x 0 23
  match x / 2 ^ 23 % 8 with
  | 0 => some (.br k g imm)
  | 1 => some (.call k g imm)
  | 2 => if x % 2 ^ 18 = 0 then some (.jr k g (fieldAt x 18 5)) else none
  | 3 => decodeWait k g x
  | 4 => some (.ckpt k g imm)
  | 5 => decodePres k g x
  | 6 => if x % 2 ^ 23 = 0 then some (.halt k g) else none
  | 7 => if x % 2 ^ 23 = 0 then some (.nop k g) else if x % 2 ^ 23 = 2 ^ 20 then some (.fence k g) else if x % 2 ^ 23 = 2 ^ 21 then some (.syncu k g) else none
  | _ => none

/-- Table 6-10. Unused register fields are zero. -/
def decodeVec (k : CoreId) (g : BitVec 3) (x : Nat) : Option Instr :=
  let st := x / 2 ^ 20 % 2 == 1
  let d := fieldAt x 15 5
  let a := fieldAt x 10 5
  let b := fieldAt x 5 5
  let c := fieldAt x 0 5
  match x / 2 ^ 21 % 32 with
  | 0 => if c = 0 then some (.vadd k g st d a b) else none
  | 1 => if c = 0 then some (.vsub k g st d a b) else none
  | 2 => if c = 0 then some (.vmul k g st d a b) else none
  | 3 => some (.vfma k g st d a b c)
  | 4 => if c = 0 then some (.vmax k g st d a b) else none
  | 5 => if c = 0 then some (.vmin k g st d a b) else none
  | 6 => if b = 0 ∧ c = 0 then some (.vabs k g st d a) else none
  | 7 => if b = 0 ∧ c = 0 then some (.vneg k g st d a) else none
  | 8 => if b = 0 ∧ c = 0 then some (.vexp2 k g st d a) else none
  | 9 => if b = 0 ∧ c = 0 then some (.vlog2 k g st d a) else none
  | 10 => if c = 0 then some (.vdiv k g st d a b) else none
  | 11 => if b = 0 ∧ c = 0 then some (.vsqrt k g st d a) else none
  | 12 => if c = 0 then some (.vcmpeq k g st d a b) else none
  | 13 => if c = 0 then some (.vcmplt k g st d a b) else none
  | 14 => some (.vsel k g st d a b c)
  | 15 => if c = 0 then some (.vand k g st d a b) else none
  | 16 => if c = 0 then some (.vor k g st d a b) else none
  | 17 => if c = 0 then some (.vxor k g st d a b) else none
  | 18 => if b = 0 ∧ c = 0 then some (.vsum k g st d a) else none
  | 19 => if b = 0 ∧ c = 0 then some (.vrmax k g st d a) else none
  | 20 => if b = 0 ∧ c = 0 then some (.vbc k g st d a) else none
  | 21 => if c = 0 then some (.vext k g st d a b) else none
  | 22 => if b = 0 ∧ c = 0 then some (.vld k g st d a) else none
  | 23 => if b = 0 ∧ c = 0 then some (.vst k g st d a) else none
  | 24 => some (.vcvt k g st d a b c)
  | 25 => if c = 0 then some (.vunpk k g st d a b) else none
  | 26 => some (.vmxq k g st d a b c)
  | _ => none

/-- Table 6-12. -/
def decodeMat (k : CoreId) (g : BitVec 3) (x : Nat) : Option Instr :=
  let y := fieldAt x 18 3
  let ta := fieldAt x 14 4
  let tb := fieldAt x 10 4
  let tc := fieldAt x 6 4
  let imm := fieldAt x 0 6
  match x / 2 ^ 21 % 32 with
  | 0 => if tc = 0 ∧ imm = 0 then some (.mma k g y ta tb) else none
  | 1 => if ta = 0 ∧ tb = 0 then some (.agopen k g y tc imm) else none
  | 2 => some (.agclose k g y ta tb tc imm)
  | 3 => if ta = 0 ∧ tb = 0 ∧ imm = 0 then some (.agrd k g y tc) else none
  | 4 => if tb = 0 ∧ tc = 0 ∧ imm = 0 then some (.agwr k g y ta) else none
  | 5 => if ta = 0 ∧ tb = 0 ∧ imm = 0 then some (.agsave k g y tc) else none
  | 6 => if tb = 0 ∧ tc = 0 ∧ imm = 0 then some (.agload k g y ta) else none
  | 7 => if ta = 0 ∧ tb = 0 ∧ tc = 0 ∧ imm = 0 then some (.agdrop k g y) else none
  | 8 => if y = 0 ∧ tb = 0 ∧ tc = 0 ∧ imm = 0 then some (.attend k g ta) else none
  | _ => none

/-- Table 6-14. -/
def decodeCom (k : CoreId) (g : BitVec 3) (x : Nat) : Option Instr :=
  let a := fieldAt x 17 5
  let b := fieldAt x 12 5
  let imm := fieldAt x 0 12
  match x / 2 ^ 22 % 16 with
  | 0 => some (.send k g a b imm)
  | 1 => some (.rqpop k g a b imm)
  | 2 => some (.skip k g a b imm)
  | 3 => some (.rsend k g a b imm)
  | 4 => some (.rrecv k g a b imm)
  | 5 => some (.hoist k g a b imm)
  | 6 => some (.hqpop k g a b imm)
  | 7 => some (.dma k g a b imm)
  | 8 => some (.cqpop k g a b imm)
  | 9 => some (.dbell k g a b imm)
  | _ => none

/-- The instruction of core `k` that a word spells (R237, Table 6-4); none for class 7, a reserved function code, or a
reserved field that is not zero. -/
def decodeCore (k : CoreId) (w : Word) : Option Instr :=
  let x := w.toNat
  let g := fieldAt x 26 3
  match x / 2 ^ 29 with
  | 0 => decodeSr k g x
  | 1 => decodeSi k g x
  | 2 => decodeMem k g x
  | 3 => decodeCtl k g x
  | 4 => decodeVec k g x
  | 5 => decodeMat k g x
  | 6 => decodeCom k g x
  | _ => none

end Sys2Proof
end

