-- ==== Sys2Proof/Config.lean ====
section
/-! DEFINITION. What an implementation fixes and the free values: constants with no body, so that nothing can be
proved about their values. -/

namespace Sys2Proof

/-- A value the spec leaves open: the n-th value drawn (log entry 1). -/
opaque Config.free : Nat → BitVec 64
/-- A measurement the outside world gives: kind of sensor, and the counter of free values (log entry 4). -/
opaque Config.sensor : Nat → Nat → BitVec 32
/-- The fused SHA-384 digest of key slot 0 to 3 of the Itorn, Starter and Marshal images (R281, R659; log entry 5). -/
opaque Config.keyDigest : Nat → BitVec 384
/-- What the body of an image section of types 3 to 7 holds, as pairs: 3, slot and entry; 4, core and HAL_RANK; 5,
direction times 128 plus slot, and entry; 6, register offset and value; 7, 0 with CORE_ENTRY and 1 with CORE_QUAR. The
spec gives no layout of the bodies (R282; log entry 53). -/
opaque Config.section_ : Nat → List Byte → List (Nat × Nat)
/-- What the schedule of an image fixes and the slot tables do not hold (log entry 59): the data flits of a reply from a
target to requests on a stream (R161, R364); whether a slot of a stream toward a target is that of a read request (R165);
whether a write to a core's port from a requester is answered (R182). -/
opaque Config.replyFlits : (target : Nat) → (stream : Nat) → Nat
opaque Config.readSlot : (target : Nat) → (stream : Nat) → (slot : Nat) → Bool
opaque Config.answersWrite : (core : Nat) → (requester : Nat) → Bool

end Sys2Proof
end

