-- ==== Sys2Proof/Machine/Tab.lean ====
section
/-! DEFINITION. Sparse tables: lists of key and value with keys strictly rising. `Tab.put` keeps every entry it
is given; `Cells.put` (memory) also drops an entry that equals what an unlisted address reads as, so that equal
memories are equal lists. -/

namespace Sys2Proof

/-- A sparse table: keys strictly rising; an absent key reads as the default its reader names. -/
abbrev Tab (α : Type) := List (Nat × α)

/-- The entry at key `k`, or the default `d`. -/
def Tab.get {α : Type} (d : α) : List (Nat × α) → Nat → α
  | [], _ => d
  | (k', v) :: t, k => if k = k' then v else Tab.get d t k

/-- The entry at key `k`, if there is one. -/
def Tab.find {α : Type} : List (Nat × α) → Nat → Option α
  | [], _ => none
  | (k', v) :: t, k => if k = k' then some v else Tab.find t k

/-- Set the entry at key `k`, in the order of keys. -/
def Tab.put {α : Type} (k : Nat) (v : α) : List (Nat × α) → List (Nat × α)
  | [] => [(k, v)]
  | (k', v') :: t =>
    if k < k' then (k, v) :: (k', v') :: t
    else if k = k' then (k, v) :: t
    else (k', v') :: Tab.put k v t

/-- Remove the entry at key `k`. -/
def Tab.del {α : Type} (k : Nat) : List (Nat × α) → List (Nat × α)
  | [] => []
  | (k', v') :: t => if k = k' then t else (k', v') :: Tab.del k t

/-- Keys strictly rise and lie above the bound. -/
def Tab.sortedFrom {α : Type} : Nat → List (Nat × α) → Bool
  | _, [] => true
  | lo, (k, _) :: t => decide (lo ≤ k) && Tab.sortedFrom (k + 1) t

/-- The canonical form of a table: keys strictly rising. -/
def Tab.wf {α : Type} (t : List (Nat × α)) : Bool := Tab.sortedFrom 0 t

/-- What an address that memory does not list reads as (log entry 3). -/
def Cells.blank : Byte := 0

/-- Read one byte. -/
def Cells.get (m : List Host.Cell) (a : Nat) : Byte := Tab.get Cells.blank m a

/-- Write one byte, keeping the canonical form: writing the blank value removes the entry. -/
def Cells.put (a : Nat) (b : Byte) (m : List Host.Cell) : List Host.Cell :=
  if b = Cells.blank then Tab.del a m else Tab.put a b m

/-- The canonical form of memory: addresses strictly rising, no entry equal to the blank value. -/
def Cells.wf (m : List Host.Cell) : Bool :=
  Tab.wf m && m.all fun c => decide (c.2 ≠ Cells.blank)

/-- Write bytes at rising addresses from `a`. -/
def Cells.putList : Nat → List Byte → List Host.Cell → List Host.Cell
  | _, [], m => m
  | a, b :: bs, m => Cells.putList (a + 1) bs (Cells.put a b m)

/-- Read `n` bytes at rising addresses from `a`. -/
def Cells.getList (m : List Host.Cell) (a : Nat) : Nat → List Byte
  | 0 => []
  | n + 1 => Cells.get m a :: Cells.getList m (a + 1) n

/-- Bytes as one number, the byte at the lowest address least significant (R11). -/
def leNat : List Byte → Nat
  | [] => 0
  | b :: bs => b.toNat + 256 * leNat bs

/-- A number as `n` bytes, least significant first (R11). -/
def leBytes (v : Nat) : Nat → List Byte
  | 0 => []
  | n + 1 => BitVec.ofNat 8 v :: leBytes (v / 256) n

end Sys2Proof
end

