-- ==== Sys2Proof/Machine/Num.lean ====
section
/-! DEFINITION. Numbers: exact values, the element encodings of Table 7-1, rounding (R302, R303), the fast path
(R299 to R312), the strict lane (R313 to R315), EXP2 and LOG2 (R242), and the Halyard's long format (R97 to R102).
Every result is formed exactly and rounded once. -/

namespace Sys2Proof.Machine

/-- Two to the power `n`. -/
def p2 (n : Nat) : Nat := Nat.pow 2 n

/-- Bits `lo` to `lo + n - 1` of a number. -/
def bitsOf (w lo n : Nat) : Nat := (w / p2 lo) % p2 n

/-- The value a binary number names: a NaN, an infinity, or (-1)^s × m × 2^e exactly. -/
inductive FV where
  | nan
  | inf (s : Bool)
  | num (s : Bool) (m : Nat) (e : Int)
  deriving DecidableEq, Repr

namespace FV

def isNan : FV → Bool
  | .nan => true
  | _ => false

def isInf : FV → Bool
  | .inf _ => true
  | _ => false

def isZero : FV → Bool
  | .num _ m _ => m == 0
  | _ => false

def neg : FV → FV
  | .nan => .nan
  | .inf s => .inf (!s)
  | .num s m e => .num (!s) m e

def sign : FV → Bool
  | .nan => false
  | .inf s => s
  | .num s _ _ => s

/-- Shift a significand up to a lower exponent. -/
def upTo (m : Nat) (e t : Int) : Nat := m * p2 (e - t).toNat

/-- The exact sum. An exact zero keeps the sign only where both addends have it. -/
def add : FV → FV → FV
  | .nan, _ => .nan
  | _, .nan => .nan
  | .inf s, .inf t => if s = t then .inf s else .nan
  | .inf s, .num _ _ _ => .inf s
  | .num _ _ _, .inf t => .inf t
  | .num s m e, .num t n f =>
    let q := if e ≤ f then e else f
    let a : Int := if s then -(upTo m e q : Int) else (upTo m e q : Int)
    let b : Int := if t then -(upTo n f q : Int) else (upTo n f q : Int)
    let c := a + b
    if c = 0 then .num (s && t) 0 q else .num (decide (c < 0)) c.natAbs q

/-- The exact product. -/
def mul : FV → FV → FV
  | .nan, _ => .nan
  | _, .nan => .nan
  | .inf s, .inf t => .inf (s != t)
  | .inf s, .num t n _ => if n = 0 then .nan else .inf (s != t)
  | .num s m _, .inf t => if m = 0 then .nan else .inf (s != t)
  | .num s m e, .num t n f => .num (s != t) (m * n) (e + f)

/-- Scale by a power of two, exactly. -/
def scale (k : Int) : FV → FV
  | .num s m e => .num s m (e + k)
  | v => v

/-- Compare two finite or infinite values: less than, with zeros equal (R312). -/
def lt (a b : FV) : Bool :=
  match a, b with
  | .nan, _ => false
  | _, .nan => false
  | .inf s, .inf t => s && !t
  | .inf s, .num _ _ _ => s
  | .num _ _ _, .inf t => !t
  | .num s m e, .num t n f =>
    let q := if e ≤ f then e else f
    let x : Int := if s then -(upTo m e q : Int) else (upTo m e q : Int)
    let y : Int := if t then -(upTo n f q : Int) else (upTo n f q : Int)
    decide (x < y)

/-- Equal as numbers. -/
def eqv (a b : FV) : Bool := !a.isNan && !b.isNan && !lt a b && !lt b a

end FV

/-- Divide by 2^sh to nearest, ties to even (R302). -/
def rne (m sh : Nat) : Nat :=
  if sh = 0 then m
  else
    let q := m / p2 sh
    let r := m % p2 sh
    let half := p2 (sh - 1)
    if half < r || (r == half && q % 2 == 1) then q + 1 else q

/-- Round m × 2^e to `p` significant bits with no bit below 2^qmin: significand and exponent. -/
def roundBin (p : Nat) (qmin : Int) (m : Nat) (e : Int) : Nat × Int :=
  if m = 0 then (0, qmin)
  else
    let l : Int := (Nat.log2 m + 1 : Nat)
    let t0 := e + l - (p : Int)
    let t := if t0 < qmin then qmin else t0
    if t ≤ e then (m * p2 (e - t).toNat, t)
    else
      let m' := rne m (t - e).toNat
      if m' = p2 p then (p2 (p - 1), t + 1) else (m', t)

/-- A binary format: significand bits, exponent bits, bias. -/
structure BinFmt where
  p : Nat
  eb : Nat
  bias : Nat
  deriving DecidableEq, Repr

def fmt32 : BinFmt := ⟨24, 8, 127⟩
def fmt16 : BinFmt := ⟨11, 5, 15⟩

/-- Exponent of the least significant bit of the subnormals. -/
def BinFmt.qmin (f : BinFmt) : Int := 2 - (f.bias : Int) - (f.p : Int)

/-- Read a pattern of an IEEE format. -/
def BinFmt.dec (f : BinFmt) (w : Nat) : FV :=
  let fb := f.p - 1
  let fr := bitsOf w 0 fb
  let ex := bitsOf w fb f.eb
  let s := bitsOf w (fb + f.eb) 1 == 1
  if ex = p2 f.eb - 1 then (if fr = 0 then .inf s else .nan)
  else if ex = 0 then .num s fr f.qmin
  else .num s (p2 fb + fr) (f.qmin + (ex - 1 : Nat))

/-- The pattern of a significand and exponent already rounded; an exponent past the largest gives infinity. -/
def BinFmt.pack (f : BinFmt) (s : Bool) (m : Nat) (e : Int) : Nat :=
  let fb := f.p - 1
  let sg := if s then p2 (fb + f.eb) else 0
  if m < p2 fb then sg + m
  else
    let be := (e - f.qmin).toNat + 1
    if p2 f.eb - 1 ≤ be then sg + (p2 f.eb - 1) * p2 fb
    else sg + be * p2 fb + (m - p2 fb)

/-- The canonical NaN of an IEEE format (Table 7-1). -/
def BinFmt.qnan (f : BinFmt) : Nat := (p2 f.eb - 1) * p2 (f.p - 1) + p2 (f.p - 2)

/-- Round a value once, ties to even, subnormals kept, to a pattern. -/
def BinFmt.rnd (f : BinFmt) : FV → Nat
  | .nan => f.qnan
  | .inf s => f.pack s (p2 (f.p - 1)) (p2 f.eb : Nat)
  | .num s m e =>
    let r := roundBin f.p f.qmin m e
    f.pack s r.1 r.2

/-- A binary32 pattern as a value. -/
def f32 (w : Word) : FV := fmt32.dec w.toNat
/-- A value rounded to binary32, ties to even, subnormals kept. -/
def toF32 (v : FV) : Word := BitVec.ofNat 32 (fmt32.rnd v)
/-- A binary16 pattern as a value. -/
def f16 (w : Nat) : FV := fmt16.dec w

/-- Infinite pattern of binary32. -/
def inf32 (w : Word) : Bool := (f32 w).isInf
def nan32 (w : Word) : Bool := (f32 w).isNan
/-- The canonical quiet NaN of binary32. -/
def qnan32 : Word := 0x7FC00000#32

/-- -0 delivered as +0 (R310, R108). -/
def posZero (w : Word) : Word := if w = 0x80000000#32 then 0 else w

/-- A binary32 subnormal pattern. -/
def isSub32 (w : Word) : Bool := bitsOf w.toNat 23 8 == 0 && bitsOf w.toNat 0 23 != 0

/-- A finite value whose binary32 rounding is infinite. -/
def overflows32 (v : FV) : Bool :=
  match v with
  | .num _ _ _ => inf32 (toF32 v)
  | _ => false

/-! ### Element encodings (Table 7-1) -/

/-- Width in bits of an element of each encoding code (R230). -/
def elemBits : Nat → Nat
  | 0 => 32
  | 1 => 16
  | 2 => 8
  | 3 => 8
  | 4 => 8
  | 5 => 8
  | 6 => 6
  | 7 => 6
  | 8 => 4
  | 9 => 8
  | _ => 0

/-- Microscaling encodings (Table 7-2). -/
def isMx (f : Nat) : Bool := decide (4 ≤ f) && decide (f ≤ 9)

/-- Exponent bits, fraction bits and bias of the float elements. -/
def elemShape : Nat → Nat × Nat × Nat
  | 0 => (8, 23, 127)
  | 1 => (5, 10, 15)
  | 2 => (4, 3, 7)
  | 3 => (5, 2, 15)
  | 4 => (4, 3, 7)
  | 5 => (5, 2, 15)
  | 6 => (3, 2, 3)
  | 7 => (2, 3, 1)
  | 8 => (2, 1, 1)
  | _ => (0, 0, 0)

/-- The value of a float element (Table 7-1): E4M3 has one NaN pattern and no infinity; the MX short elements
have neither. -/
def elemVal (f w : Nat) : FV :=
  let (eb, m, bias) := elemShape f
  let fr := bitsOf w 0 m
  let ex := bitsOf w m eb
  let s := bitsOf w (m + eb) 1 == 1
  let top := p2 eb - 1
  if (f == 0 || f == 1 || f == 3 || f == 5) && ex == top then (if fr = 0 then .inf s else .nan)
  else if (f == 2 || f == 4) && ex == top && fr == 7 then .nan
  else if ex = 0 then .num s fr (1 - (bias : Int) - (m : Int))
  else .num s (p2 m + fr) ((ex : Int) - (bias : Int) - (m : Int))

/-- The integer of an MXI8 element: two's complement where `sgn`, else unsigned (Table 7-1). -/
def mxi8 (sgn : Bool) (w : Nat) : Int :=
  if sgn && 128 ≤ w % 256 then (w % 256 : Nat) - 256 else (w % 256 : Nat)

/-- Largest finite pattern (without sign) of a float element. -/
def elemMax : Nat → Nat
  | 0 => 0x7F7FFFFF
  | 1 => 0x7BFF
  | 2 => 0x7E
  | 3 => 0x7B
  | 4 => 0x7E
  | 5 => 0x7B
  | 6 => 0x1F
  | 7 => 0x1F
  | 8 => 0x7
  | _ => 0x7F

/-- emax of Table 7-5. -/
def elemEmax : Nat → Int
  | 4 => 8
  | 5 => 15
  | 6 => 4
  | 7 => 2
  | 8 => 2
  | _ => 0

/-! ### Counts and flags (R318, NUM_FLAGS) -/

/-- What an instruction adds to the NUM_ counters and flags. -/
structure NumEv where
  sat : Nat
  flush : Nat
  nan : Nat
  retry : Nat
  flags : Nat
  deriving DecidableEq, Repr

def NumEv.none : NumEv := ⟨0, 0, 0, 0, 0⟩

def NumEv.join (a b : NumEv) : NumEv :=
  ⟨a.sat + b.sat, a.flush + b.flush, a.nan + b.nan, a.retry + b.retry, Nat.lor a.flags b.flags⟩

def NumEv.flushed : NumEv := ⟨0, 1, 0, 0, 1⟩
def NumEv.satd : NumEv := ⟨1, 0, 0, 0, 2⟩
def NumEv.nanMade : NumEv := ⟨0, 0, 1, 0, 4⟩
def NumEv.ovf : NumEv := ⟨0, 0, 0, 0, 8⟩
def NumEv.invalid : NumEv := ⟨0, 0, 1, 0, 16⟩
/-- An invalid operation on operands none of which is NaN: it also makes a NaN (Table 7-9). -/
def NumEv.invalidMade : NumEv := ⟨0, 0, 1, 0, 20⟩
def NumEv.divzero : NumEv := ⟨0, 0, 0, 0, 32⟩
def NumEv.underflow : NumEv := ⟨0, 0, 0, 0, 64⟩
def NumEv.inexact : NumEv := ⟨0, 0, 0, 0, 128⟩
def NumEv.retried : NumEv := ⟨0, 0, 0, 1, 256⟩

def NumEv.when (b : Bool) (e : NumEv) : NumEv := if b then e else NumEv.none

def NumEv.all : List NumEv → NumEv
  | [] => NumEv.none
  | e :: es => e.join (NumEv.all es)

/-! ### The fast path -/

/-- An F32 input under the flush of R299: a subnormal reads as +0 and counts once. -/
def fastIn (ftz : Bool) (w : Word) : Word × NumEv :=
  if ftz && isSub32 w then (0, NumEv.flushed) else (w, NumEv.none)

/-- A finite non-zero value that, rounded to 24 bits with unbounded exponent range, lies below 2^-126 (R299). -/
def tiny32 : FV → Bool
  | .num _ m e =>
    if m = 0 then false
    else
      let r := roundBin 24 (-100000) m e
      decide ((Nat.log2 r.1 : Int) + r.2 < -126)
  | _ => false

/-- Deliver an exact value as a fast-path binary32 result (R299, R310, R311). `nanIn`: an input was NaN. -/
def fastOut (ftz nanIn : Bool) (v : FV) : Word × NumEv :=
  match v with
  | .nan => (qnan32, NumEv.when (!nanIn) NumEv.nanMade)
  | .inf s => (toF32 (.inf s), NumEv.none)
  | .num s m e =>
    if ftz && tiny32 (.num s m e) then (0, NumEv.flushed)
    else
      let w := posZero (toF32 (.num s m e))
      (w, NumEv.when (inf32 w) NumEv.ovf)

/-- One fast-path lane of two inputs. -/
def fast2 (ftz : Bool) (op : FV → FV → FV) (a b : Word) : Word × NumEv :=
  let x := fastIn ftz a
  let y := fastIn ftz b
  let r := fastOut ftz (nan32 a || nan32 b) (op (f32 x.1) (f32 y.1))
  (r.1, (x.2.join y.2).join r.2)

/-- The larger of two, NaN propagating, zeros equal (R312). -/
def maxV (a b : FV) : FV := if a.isNan || b.isNan then .nan else if FV.lt a b then b else a
/-- The smaller of two. -/
def minV (a b : FV) : FV := if a.isNan || b.isNan then .nan else if FV.lt b a then b else a

/-- a × b + c, exact. -/
def fmaV (a b c : FV) : FV := FV.add (FV.mul a b) c

/-- One fast-path lane of VFMA (Table 6-10). -/
def fastFma (ftz : Bool) (a b c : Word) : Word × NumEv :=
  let x := fastIn ftz a
  let y := fastIn ftz b
  let z := fastIn ftz c
  let r := fastOut ftz (nan32 a || nan32 b || nan32 c) (fmaV (f32 x.1) (f32 y.1) (f32 z.1))
  (r.1, ((x.2.join y.2).join z.2).join r.2)

/-- One lane of a comparison (R312): all ones or zero; a NaN in either input gives 0, no flag and no count. -/
def fastCmp (ftz : Bool) (t : FV → FV → Bool) (a b : Word) : Word × NumEv :=
  if nan32 a || nan32 b then (0, NumEv.none)
  else
    let x := fastIn ftz a
    let y := fastIn ftz b
    (if t (f32 x.1) (f32 y.1) then 0xFFFFFFFF#32 else 0, x.2.join y.2)

/-! ### EXP2 and LOG2 (R242): fixed point of 256 fraction bits, far past any binary32 rounding boundary -/

/-- Fraction bits of the fixed-point work. -/
def fxBits : Nat := 256

/-- ln 2 in 256 fraction bits, rounded down. -/
def ln2Fx : Nat := 0xB17217F7D1CF79ABC9E3B39803F2F6AF40F343267298B62D8A0D175B8BAAFA2B

/-- Sum of the terms t × x^k / k! of e^x - 1, by fuel. -/
def expTerms : Nat → Nat → Nat → Nat → Nat
  | 0, _, _, acc => acc
  | fuel + 1, x, t, acc =>
    let k := 64 - fuel
    let t' := t * x / p2 fxBits / k
    expTerms fuel x t' (acc + t')

/-- 2^f for a fraction f of `fxBits` bits: a number in [1, 2), in fixed point. -/
def exp2Fx (f : Nat) : Nat :=
  let x := f * ln2Fx / p2 fxBits
  expTerms 64 x (p2 fxBits) (p2 fxBits)

/-- EXP2 of a finite value as a value whose rounding is the correctly rounded result: a power of two where the
argument is an integer, and otherwise a 257-bit value with a sticky last bit. Arguments at or above 128 and below
-160 are clamped, where only the overflow or the underflow is seen. -/
def exp2V : FV → FV
  | .nan => .nan
  | .inf s => if s then .num false 0 0 else .inf false
  | .num s m e =>
    if m = 0 then .num false 1 0
    else
      -- |x| at or above 256: overflow, or far below the least subnormal
      if (9 : Int) ≤ (Nat.log2 m : Int) + e then (if s then .num false 1 (-400) else .num false 1 400)
      else
        -- |x| below 2^-200 rounds as 1 with an inexact tail
        if (Nat.log2 m : Int) + e < -200 then
          (if s then .num false (p2 300 - 1) (-300) else .num false (p2 300 + 1) (-300))
        else
          let fx : Nat := if 0 ≤ e + 256 then m * p2 (e + 256).toNat else m / p2 (-(e + 256)).toNat
          let n := fx / p2 fxBits
          let fr := fx % p2 fxBits
          if fr = 0 then .num false 1 (if s then -(n : Int) else (n : Int))
          else if s then
            .num false (2 * exp2Fx (p2 fxBits - fr) + 1) (-(n : Int) - 1 - 257)
          else .num false (2 * exp2Fx fr + 1) ((n : Int) - 257)

/-- Sum of z^(2k+1) / (2k+1), by fuel. -/
def atanhTerms : Nat → Nat → Nat → Nat → Nat → Nat
  | 0, _, _, _, acc => acc
  | fuel + 1, z2, t, k, acc =>
    atanhTerms fuel z2 (t * z2 / p2 fxBits) (k + 2) (acc + t / k)

/-- log2 of y in [1, 2), given in fixed point. -/
def log2Fx (y : Nat) : Nat :=
  let one := p2 fxBits
  let z := (y - one) * one / (y + one)
  let ln := 2 * atanhTerms 90 (z * z / one) z 1 0
  ln * one / ln2Fx

/-- LOG2 of a positive finite value m × 2^e, as a value whose rounding is correct. -/
def log2Num (m : Nat) (e : Int) : FV :=
  let l := Nat.log2 m
  let n : Int := (l : Int) + e
  if m = p2 l then .num (decide (n < 0)) n.natAbs 0
  else
    let y := m * p2 (fxBits - l)
    let fr : Int := (log2Fx y : Nat)
    let t : Int := n * (p2 fxBits : Nat) + fr
    .num (decide (t < 0)) (2 * t.natAbs + 1) (-257)

/-- LOG2 (Table 6-11). -/
def log2V : FV → FV
  | .nan => .nan
  | .inf s => if s then .nan else .inf false
  | .num s m e =>
    if m = 0 then .inf true else if s then .nan else log2Num m e

/-- One fast lane of a unary function. -/
def fast1 (ftz : Bool) (f : FV → FV) (a : Word) : Word × NumEv :=
  let x := fastIn ftz a
  let r := fastOut ftz (nan32 a) (f (f32 x.1))
  (r.1, x.2.join r.2)

/-! ### The strict lane (R313 to R315) -/

/-- A signalling NaN pattern: the most significant fraction bit is clear. -/
def isSnan (w : Word) : Bool := nan32 w && bitsOf w.toNat 22 1 == 0

/-- Quiet a NaN pattern. -/
def quiet (w : Word) : Word := w ||| 0x00400000#32

/-- The first NaN operand, quieted (R314). -/
def firstNan : List Word → Option Word
  | [] => none
  | w :: ws => if nan32 w then some (quiet w) else firstNan ws

/-- Whether rounding loses anything. -/
def inexact32 (v : FV) : Bool :=
  match v with
  | .num _ _ _ => !(FV.eqv (f32 (toF32 v)) v)
  | _ => false

/-- Round an exact non-NaN value on the strict lane, with the flags of IEEE 754-2019: tininess after rounding,
underflow only when inexact (R314). -/
def strictRound (v : FV) : Word × NumEv :=
  let w := toF32 v
  match v with
  | .num _ _ _ =>
    let inex := inexact32 v
    let ov := inf32 w
    (w, ((NumEv.when ov NumEv.ovf).join (NumEv.when inex NumEv.inexact)).join
        (NumEv.when (inex && tiny32 v) NumEv.underflow))
  | _ => (w, NumEv.none)

/-- One strict lane: operands in order, exact result, whether the operation is invalid on them apart from NaNs. -/
def strictLane (ops : List Word) (v : FV) : Word × NumEv :=
  let sn := ops.any isSnan
  match firstNan ops with
  | some q => (q, NumEv.when sn NumEv.invalid)
  | none =>
    match v with
    | .nan => (qnan32, NumEv.invalidMade)
    | v => strictRound v

/-- The exact sum with the sign of an exact zero under roundTiesToEven. -/
def strictAdd (a b : Word) : Word × NumEv := strictLane [a, b] (FV.add (f32 a) (f32 b))
def strictSub (a b : Word) : Word × NumEv :=
  strictLane [a, b] (FV.add (f32 a) (FV.neg (f32 b)))
def strictMul (a b : Word) : Word × NumEv := strictLane [a, b] (FV.mul (f32 a) (f32 b))

/-- Strict VFMA: infinity times zero plus a quiet NaN signals invalid (R314). -/
def strictFma (a b c : Word) : Word × NumEv :=
  let bad := (FV.mul (f32 a) (f32 b)).isNan && !nan32 a && !nan32 b
  let r := strictLane [a, b, c] (fmaV (f32 a) (f32 b) (f32 c))
  if bad && nan32 c && !isSnan c then (r.1, NumEv.invalid) else r

/-- The quotient of two finite non-zero magnitudes, with a sticky last bit. -/
def divV (a b : FV) : FV :=
  match a, b with
  | .num s m e, .num t n f =>
    if n = 0 then (if m = 0 then .nan else .inf (s != t))
    else if m = 0 then .num (s != t) 0 0
    else
      let q := m * p2 80 / n
      let r := m * p2 80 % n
      .num (s != t) (2 * q + (if r = 0 then 0 else 1)) (e - f - 81)
  | .num s _ _, .inf t => .num (s != t) 0 0
  | .inf s, .num t _ _ => .inf (s != t)
  | .inf _, .inf _ => .nan
  | _, _ => .nan

def strictDiv (a b : Word) : Word × NumEv :=
  let r := strictLane [a, b] (divV (f32 a) (f32 b))
  if !nan32 a && !nan32 b && (f32 b).isZero && !(f32 a).isZero && !inf32 a then
    (r.1, NumEv.divzero) else r

/-- Integer square root, bit by bit from bit `n`. -/
def isqrtGo : Nat → Nat → Nat → Nat
  | 0, _, r => r
  | n + 1, x, r =>
    let c := r + p2 n
    isqrtGo n x (if c * c ≤ x then c else r)

/-- Square root of a non-negative value with a sticky last bit. -/
def sqrtV : FV → FV
  | .nan => .nan
  | .inf s => if s then .nan else .inf false
  | .num s m e =>
    if m = 0 then .num s 0 0
    else if s then .nan
    else
      let odd := (e % 2 : Int) ≠ 0
      let m' := (if odd then 2 * m else m) * p2 80
      let e' := (if odd then e - 1 else e) - 80
      let r := isqrtGo 64 m' 0
      .num false (2 * r + (if r * r = m' then 0 else 1)) (e' / 2 - 1)

def strictSqrt (a : Word) : Word × NumEv := strictLane [a] (sqrtV (f32 a))

/-- Strict EXP2 and LOG2: correctly rounded, subnormals kept. Table 6-11 gives EXP2 of any NaN the canonical NaN; LOG2 has
no such row and quiets its operand (R314). LOG2 of zero signals divzero. -/
def strictExp2 (a : Word) : Word × NumEv :=
  if nan32 a then (qnan32, NumEv.when (isSnan a) NumEv.invalid)
  else strictRound (exp2V (f32 a))

def strictLog2 (a : Word) : Word × NumEv :=
  if nan32 a then (quiet a, NumEv.when (isSnan a) NumEv.invalid)
  else if (f32 a).isZero then (0xFF800000#32, NumEv.divzero)
  else match log2V (f32 a) with
    | .nan => (qnan32, NumEv.invalidMade)
    | v => strictRound v

/-! ### Conversions to short formats (R302, R303, R308) -/

/-- One step of a lane's generator (R304). -/
def genStep (x : Word) : Word :=
  let a := x ^^^ (x <<< 13)
  let b := a ^^^ (a >>> 17)
  b ^^^ (b <<< 5)

/-- The seed of lane `i` of a core of identity `k` (R305). -/
def genSeed (seed : Word) (k i : Nat) : Word :=
  let x := (seed ^^^ 0x5A17C3E9#32) + BitVec.ofNat 32 ((k * 64 + i) * 0x9E3779B9)
  if x = 0 then 1 else x

/-- Random bits of a conversion: none for nearest even, else the number of bits and r (R303). -/
inductive Rnd where
  | nearest
  | stoch (bits r : Nat)
  deriving DecidableEq, Repr

/-- Round m × 2^e to a spacing 2^q: nearest even, or stochastically under R303. -/
def roundAt (rd : Rnd) (m : Nat) (e q : Int) : Nat :=
  if q ≤ e then m * p2 (e - q).toNat
  else
    let sh := (q - e).toNat
    match rd with
    | .nearest => rne m sh
    | .stoch b r =>
      let t := m / p2 sh
      let f := (m % p2 sh) * p2 b / p2 sh
      if p2 b ≤ f + r then t + 1 else t

/-- Exponent of the spacing of a float element at magnitude m × 2^e: subnormal spacing below the least normal. -/
def spacing (f m : Nat) (e : Int) : Int :=
  let (_, mb, bias) := elemShape f
  let least : Int := 1 - (bias : Int) - (mb : Int)
  let here : Int := (Nat.log2 m : Int) + e - (mb : Int)
  if here < least then least else here

/-- The pattern of t × 2^q in a float element: none where it lies above the largest finite value. -/
def packElem (f t : Nat) (q : Int) : Option Nat :=
  let (eb, mb, bias) := elemShape f
  let least : Int := 1 - (bias : Int) - (mb : Int)
  let (t, q) := if t = p2 (mb + 1) then (p2 mb, q + 1) else (t, q)
  if t < p2 mb then some t
  else
    let ex := (q - least).toNat + 1
    let w := ex * p2 mb + (t - p2 mb)
    if p2 (eb + mb) ≤ w || elemMax f < w then none else some w

/-- Sign bit of an element pattern. -/
def elemSign (f : Nat) (s : Bool) : Nat := if s then p2 (elemBits f - 1) else 0

/-- Convert a value to F16, E4M3 or E5M2 under Table 7-4 (VCVT, AGCLOSE): pattern, events and whether the value
changed. `keep0`: the strict lane keeps the sign of zero. -/
def convShort (f : Nat) (sat8 keep0 nanIn : Bool) (rd : Rnd) (v : FV) : Nat × NumEv × Bool :=
  let nanP := if f = 1 then 0x7E00 else if f = 2 then 0x7F else 0x7E
  match v with
  | .nan => (nanP, NumEv.when (!nanIn) NumEv.nanMade, false)
  | .inf s =>
    if f = 2 then (0x7F, NumEv.nanMade, false)
    else if f = 1 then (0x7C00 + elemSign 1 s, NumEv.none, false)
    else (0x7C + elemSign 3 s, NumEv.none, false)
  | .num s m e =>
    if m = 0 then (if keep0 then elemSign f s else 0, NumEv.none, false)
    else
      let q := spacing f m e
      let t := roundAt rd m e q
      let changed := !(FV.eqv (.num false t q) (.num false m e))
      match packElem f t q with
      | some w =>
        let w' := if w = 0 && !keep0 then 0 else w + elemSign f s
        (w', NumEv.none, changed)
      | none =>
        if f = 1 then (0x7C00 + elemSign 1 s, NumEv.ovf, true)
        else if sat8 then (elemMax f + elemSign f s, NumEv.satd, true)
        else if f = 2 then (0x7F, NumEv.nanMade, true)
        else (0x7C + elemSign 3 s, NumEv.ovf, true)

/-- Convert a scaled element for VMXQ: saturates to the largest finite value with its sign (Table 7-4). Codes 4 to
8 are floats; code 9 is a signed integer in units of 2^-6, of magnitude at most 127 (Table 7-1). -/
def convMx (f : Nat) (rd : Rnd) (s : Bool) (m : Nat) (e : Int) : Nat × NumEv :=
  if m = 0 then (0, NumEv.none)
  else if f = 9 then
    let t := roundAt rd m e (-6)
    let (t, ev) := if 127 < t then (127, NumEv.satd) else (t, NumEv.none)
    (if s then (256 - t) % 256 else t, ev)
  else
    let q := spacing f m e
    let t := roundAt rd m e q
    match packElem f t q with
    | some w => (if w = 0 then 0 else w + elemSign f s, NumEv.none)
    | none => (elemMax f + elemSign f s, NumEv.satd)

/-! ### Format T and the merges of accumulation groups (R328 to R334) -/

/-- Round to format T: 28 significant bits, ties to even; an exact zero is +0 (R329). -/
def rndT : FV → FV
  | .num s m e =>
    if m = 0 then .num false 0 0
    else
      let r := roundBin 28 (-100000) m e
      .num s r.1 r.2
  | v => v

/-- Pairwise canonical combination of a list (R107): one level. -/
def pairUp {α : Type} (f : α → α → α) : List α → List α
  | a :: b :: t => f a b :: pairUp f t
  | l => l

/-- Combine pairwise until one is left, by fuel. -/
def pairTree {α : Type} (f : α → α → α) : Nat → List α → List α
  | 0, l => l
  | n + 1, l => match l with
    | _ :: _ :: _ => pairTree f n (pairUp f l)
    | l => l

/-- A binary32 operation rounded once, subnormals kept, -0 delivered as +0 (R334). -/
def opAdd (a b : Word) : Word := posZero (toF32 (FV.add (f32 a) (f32 b)))
def opSub (a b : Word) : Word := posZero (toF32 (FV.add (f32 a) (FV.neg (f32 b))))

/-- A pair of binary32 values: value and error. -/
abbrev Pair := Word × Word

/-- two_sum of R109. -/
def twoSum (x y : Word) : Word × Word :=
  let s := opAdd x y
  let z := opSub s x
  let e := opAdd (opSub x (opSub s z)) (opSub y z)
  (s, e)

/-- The merge of R334: result, whether it is a scale-back trigger, and whether it made a NaN of infinities. Only a merge of
finite pairs, errors included, triggers (R350). -/
def mergePair (a b : Pair) : Pair × Bool × Bool :=
  if nan32 a.1 || nan32 b.1 then ((qnan32, 0), false, false)
  else if inf32 a.1 || inf32 b.1 then
    let v := FV.add (f32 a.1) (f32 b.1)
    if v.isNan then ((qnan32, 0), false, true) else ((toF32 v, 0), false, false)
  else
    let s := opAdd a.1 b.1
    let z := opSub s a.1
    let sz := opSub s z
    let xd := opSub a.1 sz
    let yd := opSub b.1 z
    let e := opAdd xd yd
    let t1 := opAdd e a.2
    let t := opAdd t1 b.2
    let hi := opAdd s t
    let hs := opSub hi s
    let lo := opSub t hs
    let odd (w : Word) : Bool := inf32 w || nan32 w
    let made := !nan32 a.2 && !nan32 b.2 && (nan32 hi || nan32 lo)
    if odd a.2 || odd b.2 then ((hi, lo), false, made)
    else if [s, z, sz, xd, yd, e, t1, t, hi, hs, lo].any odd then
      let x := FV.add (FV.add (f32 a.1) (f32 a.2)) (FV.add (f32 b.1) (f32 b.2))
      ((toF32 (.inf x.sign), 0), true, false)
    else ((hi, lo), false, false)

/-- Entry of a step result into modes P and L (R332): pair, events, trigger. -/
def entryPair (ftz : Bool) (p : FV) : Pair × NumEv × Bool :=
  match p with
  | .nan => ((qnan32, 0), NumEv.none, false)
  | .inf s => ((toF32 (.inf s), 0), NumEv.none, false)
  | .num s m e =>
    if m = 0 then ((0, 0), NumEv.none, false)
    else if ftz && decide ((Nat.log2 m : Int) + e < -126) then ((0, 0), NumEv.flushed, false)
    else
      let hi := posZero (toF32 (.num s m e))
      if inf32 hi then ((hi, 0), NumEv.none, true)
      else
        let lo := posZero (toF32 (FV.add (.num s m e) (FV.neg (f32 hi))))
        ((hi, lo), NumEv.none, false)

/-! ### Lane operands (R293 to R296) -/

/-- hi of an F32 operand: truncated toward zero to 11 significant bits, no bit below 2^-136 (R295). -/
def hiF32 : FV → FV
  | .num s m e =>
    if m = 0 then .num false 0 0
    else
      let t0 := (Nat.log2 m : Int) + e - 10
      let t := if t0 < -136 then -136 else t0
      if t ≤ e then .num s m e
      else
        let m' := m / p2 (t - e).toNat
        if m' = 0 then .num false 0 0 else .num s m' t
  | v => v

/-- lo of an F32 operand: the remainder rounded once to a lane operand; +0 for specials (R295). -/
def loF32 (v : FV) : FV :=
  match v with
  | .num _ _ _ =>
    match FV.add v (FV.neg (hiF32 v)) with
    | .num s m e =>
      if m = 0 then .num false 0 0
      else
        let r := roundBin 11 (-136) m e
        if r.1 = 0 then .num false 0 0 else .num s r.1 r.2
    | w => w
  | _ => .num false 0 0

/-- Whether a value is the lane operand +0. -/
def isPosZero : FV → Bool
  | .num _ m _ => m == 0
  | _ => false

/-! ### The long format of the Halyard (R97 to R102) -/

/-- A long-format record: V in [-2^289, 2^289), W, flags (Table 3-7). The residue of R138 is (V + W) mod 3 by
construction and is carried as a value of its own, so that a checker fault can differ from it. -/
structure LongRec where
  v : Int
  w : Int
  nan : Bool
  pinf : Bool
  ninf : Bool
  res : Nat
  deriving DecidableEq, Repr

def LongRec.zero : LongRec := ⟨0, 0, false, false, false, 0⟩

def imod3 (x : Int) : Nat := (x % 3).toNat

/-- The exact leaf of a binary32 value (R98). -/
def longOfV : FV → LongRec
  | .nan => { LongRec.zero with nan := true }
  | .inf s => { LongRec.zero with pinf := !s, ninf := s }
  | .num s m e =>
    let k : Int := (m * p2 (e + 149).toNat : Nat)
    let v := if s then -k else k
    { LongRec.zero with v := v, res := imod3 v }

/-- An I64 leaf (R98). -/
def longOfInt (i : Int) : LongRec := { LongRec.zero with v := i, res := imod3 i }

/-- Two to the 290. -/
def long290 : Int := (p2 290 : Nat)

/-- Combine two records (R99). -/
def longAdd (a b : LongRec) : LongRec :=
  let t := a.v + b.v
  let h := (p2 289 : Nat)
  let v := (t + h) % long290 - h
  { v := v, w := a.w + b.w + (t - v) / long290, nan := a.nan || b.nan, pinf := a.pinf || b.pinf,
    ninf := a.ninf || b.ninf, res := (a.res + b.res) % 3 }

/-- The value of a record before rounding. -/
def longVal (l : LongRec) : FV :=
  if l.nan || (l.pinf && l.ninf) then .nan
  else if l.pinf then .inf false
  else if l.ninf then .inf true
  else
    let t := l.v + l.w * long290
    .num (decide (t < 0)) t.natAbs (-149)

/-- round_f32 of R100, with the overflow bit. -/
def longF32 (l : LongRec) : Word × Bool :=
  let v := longVal l
  (posZero (toF32 v), overflows32 v)

/-- Rounding to F16 (R100): a sum that rounds to zero is +0, whatever its sign (log entry 76). -/
def longF16 (l : LongRec) : Nat × Bool :=
  let v := longVal l
  let w := fmt16.rnd v
  let w := if w = 0x8000 then 0 else w
  match v with
  | .num _ _ _ => (w, (f16 w).isInf)
  | _ => (w, false)

/-- ISUM: saturate to the int64 range (R102). -/
def longI64 (l : LongRec) : Int × Bool :=
  let t := l.v + l.w * long290
  if t < -(p2 63 : Nat) then (-(p2 63 : Nat), true)
  else if (p2 63 - 1 : Nat) < t then ((p2 63 - 1 : Nat), true)
  else (t, false)

/-! ### Mesh write-accumulate (R178) -/

/-- One word: result, and whether a NaN was stored, and whether a finite sum overflowed. -/
def waccWord (w x : Word) : Word × Bool × Bool :=
  let v := FV.add (f32 w) (f32 x)
  if v.isNan then (qnan32, true, false)
  else (posZero (toF32 v), false, overflows32 v)

end Sys2Proof.Machine
end

