-- ==== Sys2Proof/Machine/RegMap.lean ====
section
/-! DEFINITION. The register map: every register of Table 20-2 with its offset, access type, reset value and
fields, from the register summaries and field maps of the chapters (R79, R141, R185, R220, R284, R325, R409, R461,
R509, R551, R596, R623, R666, R760). `R.<register>` is a register's BAR0 offset and reset value,
`F.<register>_<field>` one of its fields, and `regSpecs` the whole map as data, for reads and writes by offset. -/

namespace Sys2Proof.Machine

/-- One register: its BAR0 offset (R795) and its reset value. -/
structure Reg where
  off : Nat
  rst : Nat
  deriving DecidableEq, Repr

/-- One field of a register: its register, its lowest bit, its width. -/
structure Fld where
  reg : Reg
  lo : Nat
  n : Nat
  deriving DecidableEq, Repr

/-- The access types of Table 0-3. -/
inductive Access where
  | rw | ro | w1c | wo1 | rwl | ws
  deriving DecidableEq, Repr

/-- A field of the map: its name, lowest bit, width, and the encodings its map lists as reserved (R16). -/
structure FieldSpec where
  name : String
  lo : Nat
  n : Nat
  bad : List (Nat × Nat)
  deriving DecidableEq, Repr

/-- One index of a register: the stride in bytes, the first index and how many there are. -/
structure DimSpec where
  stride : Nat
  first : Nat
  count : Nat
  deriving DecidableEq, Repr

/-- One row of the map. -/
structure RegSpec where
  name : String
  base : Nat
  dims : List DimSpec
  acc : Access
  rst : Nat
  fields : List FieldSpec
  deriving DecidableEq, Repr

namespace R

def LAP_CFG : Reg := ⟨0x0, 0x61⟩
def LAP_CTL : Reg := ⟨0x4, 0x1⟩
def LAP_STATUS : Reg := ⟨0x8, 0xF0⟩
def LAP_EVT : Reg := ⟨0xC, 0x0⟩
def LAP_NOW_LO : Reg := ⟨0x10, 0x0⟩
def LAP_NOW_HI : Reg := ⟨0x14, 0x0⟩
def LAP_POS : Reg := ⟨0x18, 0x0⟩
def LAP_PACER : Reg := ⟨0x1C, 0x0⟩
def LAP_PHASE : Reg := ⟨0x20, 0x0⟩
def LAP_PHASE_PEAK : Reg := ⟨0x24, 0x0⟩
def LAP_HO_LO : Reg := ⟨0x28, 0x0⟩
def LAP_HO_HI : Reg := ⟨0x2C, 0x0⟩
def LAP_DELAY (n : Nat) : Reg := ⟨0x30 + 4 * n, 0x0⟩
def LAP_CNT_RX : Reg := ⟨0x60, 0x0⟩
def LAP_CNT_BAD : Reg := ⟨0x64, 0x0⟩
def LAP_CNT_LOST : Reg := ⟨0x68, 0x0⟩
def LAP_CNT_FALSE : Reg := ⟨0x6C, 0x0⟩
def LAP_CNT_CONFLICT : Reg := ⟨0x70, 0x0⟩
def HAL_STATUS : Reg := ⟨0x10000, 0x0⟩
def HAL_EVT : Reg := ⟨0x10004, 0x0⟩
def HAL_CNT_CHECKED : Reg := ⟨0x10008, 0x0⟩
def HAL_CNT_MISMATCH : Reg := ⟨0x1000C, 0x0⟩
def HAL_CNT_TIMEOUT : Reg := ⟨0x10010, 0x0⟩
def HAL_CNT_TAINT : Reg := ⟨0x10014, 0x0⟩
def HAL_TAINT_LO : Reg := ⟨0x10018, 0x0⟩
def HAL_TAINT_HI : Reg := ⟨0x1001C, 0x0⟩
def HAL_H_CFG (h : Nat) : Reg := ⟨0x10100 + 64 * h, 0x0⟩
def HAL_H_RANKS (h : Nat) : Reg := ⟨0x10104 + 64 * h, 0x0⟩
def HAL_H_BASE (h : Nat) : Reg := ⟨0x10108 + 64 * h, 0x0⟩
def HAL_H_TREE (h : Nat) : Reg := ⟨0x1010C + 64 * h, 0xF⟩
def HAL_H_STATUS (h : Nat) : Reg := ⟨0x10110 + 64 * h, 0x0⟩
def HAL_H_LAT (h : Nat) : Reg := ⟨0x10114 + 64 * h, 0x0⟩
def HAL_H_CNT_HOIST (h : Nat) : Reg := ⟨0x10118 + 64 * h, 0x0⟩
def HAL_H_CNT_FAIL (h : Nat) : Reg := ⟨0x1011C + 64 * h, 0x0⟩
def HAL_H_CNT_PROV (h : Nat) : Reg := ⟨0x10120 + 64 * h, 0x0⟩
def HAL_H_CNT_NOMATCH (h : Nat) : Reg := ⟨0x10124 + 64 * h, 0x0⟩
def HAL_RANK (n : Nat) : Reg := ⟨0x11000 + 4 * n, 0x0⟩
def HAL_LBUF (h : Nat) (w : Nat) : Reg := ⟨0x14000 + 256 * h + 4 * w, 0x0⟩
def MSH_STATUS : Reg := ⟨0x1000, 0x0⟩
def MSH_EVT : Reg := ⟨0x1004, 0x0⟩
def MSH_EQ_STATUS : Reg := ⟨0x1008, 0x0⟩
def MSH_EQ_WORST : Reg := ⟨0x100C, 0x0⟩
def MSH_SLT_SEL : Reg := ⟨0x1010, 0x0⟩
def MSH_SLT_DATA : Reg := ⟨0x1014, 0xF⟩
def MSH_DIST_SEL : Reg := ⟨0x1018, 0x0⟩
def MSH_DIST_VAL : Reg := ⟨0x101C, 0x0⟩
def MSH_LATE_SEL : Reg := ⟨0x1020, 0x0⟩
def MSH_LATE_VAL : Reg := ⟨0x1024, 0x0⟩
def MSH_CNT_VOID : Reg := ⟨0x1028, 0x0⟩
def MSH_CNT_ORPHAN : Reg := ⟨0x102C, 0x0⟩
def MSH_CNT_CORR : Reg := ⟨0x1030, 0x0⟩
def MSH_CNT_WACC_OVF : Reg := ⟨0x1034, 0x0⟩
def MSH_CNT_WACC_NAN : Reg := ⟨0x1038, 0x0⟩
def MSH_CNT_STOP : Reg := ⟨0x103C, 0x0⟩
def MSH_CTRL_PEAK : Reg := ⟨0x1040, 0x0⟩
def MSH_H_CFG (h : Nat) : Reg := ⟨0x1100 + 16 * h, 0x50⟩
def MSH_H_VOID (h : Nat) : Reg := ⟨0x1104 + 16 * h, 0x0⟩
def MSH_H_OPEN (h : Nat) : Reg := ⟨0x1108 + 16 * h, 0x0⟩
def HEAT_RUN : Reg := ⟨0x20000, 0x0⟩
def HEAT_EXIST : Reg := ⟨0x20004, 0x0⟩
def HEAT_EVT : Reg := ⟨0x20008, 0x0⟩
def HEAT_OWN (n : Nat) : Reg := ⟨0x20040 + 4 * n, 0x0⟩
def HEAT_FENCE (n : Nat) : Reg := ⟨0x20100 + 4 * n, 0x0⟩
def HEAT_H_GEOM (h : Nat) : Reg := ⟨0x20200 + 64 * h, 0x0⟩
def HEAT_H_AGEOM (h : Nat) : Reg := ⟨0x20204 + 64 * h, 0x0⟩
def HEAT_H_CFG (h : Nat) : Reg := ⟨0x20208 + 64 * h, 0x0⟩
def HEAT_H_STATE (h : Nat) : Reg := ⟨0x2020C + 64 * h, 0x0⟩
def HEAT_H_START_LO (h : Nat) : Reg := ⟨0x20210 + 64 * h, 0x0⟩
def HEAT_H_START_HI (h : Nat) : Reg := ⟨0x20214 + 64 * h, 0x0⟩
def HEAT_H_STOP_LO (h : Nat) : Reg := ⟨0x20218 + 64 * h, 0x0⟩
def HEAT_H_STOP_HI (h : Nat) : Reg := ⟨0x2021C + 64 * h, 0x0⟩
def HEAT_H_ATT (h : Nat) : Reg := ⟨0x20220 + 64 * h, 0x0⟩
def HEAT_H_GOOD (h : Nat) : Reg := ⟨0x20224 + 64 * h, 0x0⟩
def HEAT_H_DISCARD (h : Nat) : Reg := ⟨0x20228 + 64 * h, 0x0⟩
def HEAT_H_CNT_START (h : Nat) : Reg := ⟨0x2022C + 64 * h, 0x0⟩
def CORE_CTL (n : Nat) : Reg := ⟨0x100000 + 64 * n, 0x0⟩
def CORE_STATE (n : Nat) : Reg := ⟨0x100004 + 64 * n, 0x0⟩
def CORE_PC (n : Nat) : Reg := ⟨0x100008 + 64 * n, 0x0⟩
def CORE_EXC (n : Nat) : Reg := ⟨0x10000C + 64 * n, 0x0⟩
def CORE_ENTRY (n : Nat) : Reg := ⟨0x100010 + 64 * n, 0x0⟩
def CORE_QUAR (n : Nat) : Reg := ⟨0x100014 + 64 * n, 0x0⟩
def CORE_SMAP_SEL (n : Nat) : Reg := ⟨0x100018 + 64 * n, 0x0⟩
def CORE_SMAP_DATA (n : Nat) : Reg := ⟨0x10001C + 64 * n, 0x0⟩
def CORE_OPS (n : Nat) : Reg := ⟨0x100020 + 64 * n, 0x0⟩
def CORE_LATE (n : Nat) : Reg := ⟨0x100024 + 64 * n, 0x0⟩
def CORE_CNT_RETIRE (n : Nat) : Reg := ⟨0x100028 + 64 * n, 0x0⟩
def CORE_CNT_STALL (n : Nat) : Reg := ⟨0x10002C + 64 * n, 0x0⟩
def CORE_CNT_REPLAY (n : Nat) : Reg := ⟨0x100030 + 64 * n, 0x0⟩
def CORE_CNT_PROVBLK (n : Nat) : Reg := ⟨0x100034 + 64 * n, 0x0⟩
def CORE_CNT_RDROP (n : Nat) : Reg := ⟨0x100038 + 64 * n, 0x0⟩
def CORE_CKPT (n : Nat) : Reg := ⟨0x10003C + 64 * n, 0x0⟩
def NUM_CFG (n : Nat) : Reg := ⟨0x120000 + 64 * n, 0xCF⟩
def NUM_FLAGS (n : Nat) : Reg := ⟨0x120004 + 64 * n, 0x0⟩
def NUM_SEED (n : Nat) : Reg := ⟨0x120008 + 64 * n, 0x0⟩
def NUM_LAST (n : Nat) : Reg := ⟨0x12000C + 64 * n, 0x0⟩
def NUM_CNT_SAT (n : Nat) : Reg := ⟨0x120010 + 64 * n, 0x0⟩
def NUM_CNT_FLUSH (n : Nat) : Reg := ⟨0x120014 + 64 * n, 0x0⟩
def NUM_CNT_NAN (n : Nat) : Reg := ⟨0x120018 + 64 * n, 0x0⟩
def NUM_CNT_RETRY (n : Nat) : Reg := ⟨0x12001C + 64 * n, 0x0⟩
def NUM_PFLAGS (n : Nat) : Reg := ⟨0x120020 + 64 * n, 0x0⟩
def NUM_PCNT_SAT (n : Nat) : Reg := ⟨0x120024 + 64 * n, 0x0⟩
def NUM_PCNT_FLUSH (n : Nat) : Reg := ⟨0x120028 + 64 * n, 0x0⟩
def NUM_PCNT_NAN (n : Nat) : Reg := ⟨0x12002C + 64 * n, 0x0⟩
def NUM_PCNT_RETRY (n : Nat) : Reg := ⟨0x120030 + 64 * n, 0x0⟩
def DMA_STATUS : Reg := ⟨0x40000, 0x0⟩
def DMA_EVT : Reg := ⟨0x40004, 0x0⟩
def DMA_CFG : Reg := ⟨0x40008, 0x403201⟩
def DMA_FW0_BASE_LO : Reg := ⟨0x40010, 0x0⟩
def DMA_FW0_BASE_HI : Reg := ⟨0x40014, 0x0⟩
def DMA_FW0_SIZE : Reg := ⟨0x40018, 0x0⟩
def DMA_FW1_BASE_LO : Reg := ⟨0x40020, 0x0⟩
def DMA_FW1_BASE_HI : Reg := ⟨0x40024, 0x0⟩
def DMA_FW1_SIZE : Reg := ⟨0x40028, 0x0⟩
def DMA_BAR2_BASE0_LO : Reg := ⟨0x40030, 0x0⟩
def DMA_BAR2_BASE0_HI : Reg := ⟨0x40034, 0x0⟩
def DMA_BAR2_BASE1_LO : Reg := ⟨0x40038, 0x0⟩
def DMA_BAR2_BASE1_HI : Reg := ⟨0x4003C, 0x0⟩
def DMA_MERR_LO : Reg := ⟨0x40040, 0x0⟩
def DMA_MERR_HI : Reg := ⟨0x40044, 0x0⟩
def DMA_CNT_CE_SP : Reg := ⟨0x40050, 0x0⟩
def DMA_CNT_CE_T1 : Reg := ⟨0x40054, 0x0⟩
def DMA_CNT_CE_T2 : Reg := ⟨0x40058, 0x0⟩
def DMA_CNT_UE : Reg := ⟨0x4005C, 0x0⟩
def DMA_CNT_FAR : Reg := ⟨0x40060, 0x0⟩
def DMA_CNT_HOSTDROP : Reg := ⟨0x40064, 0x0⟩
def DMA_CNT_PATROL : Reg := ⟨0x40068, 0x0⟩
def DMA_CNT_STAGE : Reg := ⟨0x4006C, 0x0⟩
def DMA_C_CFG (n : Nat) : Reg := ⟨0x41000 + 16 * n, 0x0⟩
def DMA_C_STATE (n : Nat) : Reg := ⟨0x41004 + 16 * n, 0x0⟩
def DMA_C_CNT_UNITS (n : Nat) : Reg := ⟨0x41008 + 16 * n, 0x0⟩
def DMA_C_CNT_ERR (n : Nat) : Reg := ⟨0x4100C + 16 * n, 0x0⟩
def DMA_RMAP_SEL : Reg := ⟨0x4C000, 0x0⟩
def DMA_RMAP_DATA : Reg := ⟨0x4C004, 0x0⟩
def KV_STATUS : Reg := ⟨0x30000, 0x0⟩
def KV_EVT : Reg := ⟨0x30004, 0x0⟩
def KV_H_CFG (h : Nat) : Reg := ⟨0x30100 + 128 * h, 0x1⟩
def KV_H_PFT_LO (h : Nat) : Reg := ⟨0x30104 + 128 * h, 0x0⟩
def KV_H_PFT_HI (h : Nat) : Reg := ⟨0x30108 + 128 * h, 0x0⟩
def KV_H_NPAGE (h : Nat) : Reg := ⟨0x3010C + 128 * h, 0x0⟩
def KV_H_DIG_LO (h : Nat) : Reg := ⟨0x30110 + 128 * h, 0x0⟩
def KV_H_DIG_HI (h : Nat) : Reg := ⟨0x30114 + 128 * h, 0x0⟩
def KV_H_T1_BASE (h : Nat) : Reg := ⟨0x30118 + 128 * h, 0x0⟩
def KV_H_T1_N (h : Nat) : Reg := ⟨0x3011C + 128 * h, 0x0⟩
def KV_H_T2_BASE (h : Nat) : Reg := ⟨0x30120 + 128 * h, 0x0⟩
def KV_H_T2_N (h : Nat) : Reg := ⟨0x30124 + 128 * h, 0x0⟩
def KV_H_T3_BASE (h : Nat) : Reg := ⟨0x30128 + 128 * h, 0x0⟩
def KV_H_T3_N (h : Nat) : Reg := ⟨0x3012C + 128 * h, 0x0⟩
def KV_H_WATER (h : Nat) : Reg := ⟨0x30130 + 128 * h, 0x0⟩
def KV_H_COOL (h : Nat) : Reg := ⟨0x30134 + 128 * h, 0x100⟩
def KV_H_KSTREAM (h : Nat) : Reg := ⟨0x30138 + 128 * h, 0x0⟩
def KV_H_STATUS (h : Nat) : Reg := ⟨0x3013C + 128 * h, 0x0⟩
def KV_H_FREE1 (h : Nat) : Reg := ⟨0x30140 + 128 * h, 0x0⟩
def KV_H_FREE2 (h : Nat) : Reg := ⟨0x30144 + 128 * h, 0x0⟩
def KV_H_FREE3 (h : Nat) : Reg := ⟨0x30148 + 128 * h, 0x0⟩
def KV_H_CNT_ATTEND (h : Nat) : Reg := ⟨0x3014C + 128 * h, 0x0⟩
def KV_H_CNT_SPILL (h : Nat) : Reg := ⟨0x30150 + 128 * h, 0x0⟩
def KV_H_CNT_REPLAY (h : Nat) : Reg := ⟨0x30154 + 128 * h, 0x0⟩
def KV_H_CNT_STALL (h : Nat) : Reg := ⟨0x30158 + 128 * h, 0x0⟩
def KV_H_CNT_ABANDON (h : Nat) : Reg := ⟨0x3015C + 128 * h, 0x0⟩
def KV_H_CNT_EMPTY (h : Nat) : Reg := ⟨0x30160 + 128 * h, 0x0⟩
def BTN_STATUS : Reg := ⟨0x2000, 0x0⟩
def BTN_EVT : Reg := ⟨0x2004, 0x0⟩
def BTN_CFG : Reg := ⟨0x2008, 0x100500⟩
def BTN_TOPO : Reg := ⟨0x200C, 0x0⟩
def BTN_P_CTL (p : Nat) : Reg := ⟨0x2100 + 64 * p, 0x5⟩
def BTN_P_STATUS (p : Nat) : Reg := ⟨0x2104 + 64 * p, 0x60⟩
def BTN_P_PEER (p : Nat) : Reg := ⟨0x2108 + 64 * p, 0x0⟩
def BTN_P_EQ (p : Nat) : Reg := ⟨0x210C + 64 * p, 0x5⟩
def BTN_P_CNT_CE (p : Nat) : Reg := ⟨0x2110 + 64 * p, 0x0⟩
def BTN_P_CNT_UE (p : Nat) : Reg := ⟨0x2114 + 64 * p, 0x0⟩
def BTN_P_CNT_HDR (p : Nat) : Reg := ⟨0x2118 + 64 * p, 0x0⟩
def BTN_P_CNT_NEST (p : Nat) : Reg := ⟨0x211C + 64 * p, 0x0⟩
def BTN_P_CNT_RETRY (p : Nat) : Reg := ⟨0x2120 + 64 * p, 0x0⟩
def BTN_P_CNT_DUP (p : Nat) : Reg := ⟨0x2124 + 64 * p, 0x0⟩
def BTN_P_CNT_LATE (p : Nat) : Reg := ⟨0x2128 + 64 * p, 0x0⟩
def BTN_P_CNT_NRDROP (p : Nat) : Reg := ⟨0x212C + 64 * p, 0x0⟩
def BTN_P_CNT_LOCK (p : Nat) : Reg := ⟨0x2130 + 64 * p, 0x0⟩
def BTN_P_CNT_TXOVF (p : Nat) : Reg := ⟨0x2134 + 64 * p, 0x0⟩
def TEAM_STATUS : Reg := ⟨0x200000, 0x0⟩
def TEAM_EVT : Reg := ⟨0x200004, 0x0⟩
def TEAM_H_CFG (h : Nat) : Reg := ⟨0x200100 + 64 * h, 0x0⟩
def TEAM_H_BLOCK (h : Nat) : Reg := ⟨0x200104 + 64 * h, 0x0⟩
def TEAM_H_ROOT (h : Nat) : Reg := ⟨0x200108 + 64 * h, 0x0⟩
def TEAM_H_MEMBER (h : Nat) : Reg := ⟨0x20010C + 64 * h, 0x0⟩
def TEAM_H_DIGEST_LO (h : Nat) : Reg := ⟨0x200110 + 64 * h, 0x0⟩
def TEAM_H_DIGEST_HI (h : Nat) : Reg := ⟨0x200114 + 64 * h, 0x0⟩
def TEAM_H_REC_LO (h : Nat) : Reg := ⟨0x200118 + 64 * h, 0x0⟩
def TEAM_H_REC_HI (h : Nat) : Reg := ⟨0x20011C + 64 * h, 0x0⟩
def TEAM_H_STATUS (h : Nat) : Reg := ⟨0x200120 + 64 * h, 0x0⟩
def TEAM_H_BUF (h : Nat) (n : Nat) (w : Nat) : Reg := ⟨0x201000 + 1024 * h + 16 * n + 4 * w, 0x0⟩
def TEAM_H_CD (h : Nat) (c : Nat) (w : Nat) : Reg := ⟨0x210000 + 4096 * h + 64 * c + 4 * w, (if w = 0 then 15 else 0)⟩
def TEAM_H_AUX (h : Nat) (a : Nat) : Reg := ⟨0x240000 + 4096 * h + 4 * a, 0x0⟩
def MAR_STATUS : Reg := ⟨0x3FE1000, 0x20⟩
def MAR_EVT : Reg := ⟨0x3FE1004, 0x0⟩
def MAR_LOCK : Reg := ⟨0x3FE1008, 0x0⟩
def MAR_CFG : Reg := ⟨0x3FE100C, 0x5F⟩
def MAR_SVC : Reg := ⟨0x3FE1010, 0x0⟩
def MAR_CNT_LOCKWR : Reg := ⟨0x3FE1014, 0x0⟩
def MAR_CNT_YELLOW : Reg := ⟨0x3FE1018, 0x0⟩
def MAR_CNT_RED : Reg := ⟨0x3FE101C, 0x0⟩
def MAR_CNT_BLACK : Reg := ⟨0x3FE1020, 0x0⟩
def MAR_LOG_SEL : Reg := ⟨0x3FE1024, 0x0⟩
def MAR_LOG_HEAD : Reg := ⟨0x3FE1028, 0x0⟩
def MAR_FW : Reg := ⟨0x3FE102C, 0x0⟩
def MAR_TEMP : Reg := ⟨0x3FE1030, 0x0⟩
def MAR_PWR : Reg := ⟨0x3FE1034, 0x0⟩
def MAR_LOG_W (w : Nat) : Reg := ⟨0x3FE1040 + 4 * w, 0x0⟩
def MAR_OOS (n : Nat) : Reg := ⟨0x3FE1060 + 4 * n, 0x0⟩
def MAR_INJ_CTL : Reg := ⟨0x3FE1080, 0x0⟩
def MAR_INJ_SITE : Reg := ⟨0x3FE1084, 0x0⟩
def MAR_INJ_LAP : Reg := ⟨0x3FE1088, 0x0⟩
def MAR_INJ_POS : Reg := ⟨0x3FE108C, 0x0⟩
def MAR_H_WIN_LO (h : Nat) : Reg := ⟨0x3FE1100 + 32 * h, 0x0⟩
def MAR_H_WIN_HI (h : Nat) : Reg := ⟨0x3FE1104 + 32 * h, 0x0⟩
def MAR_H_FAIL_LO (h : Nat) : Reg := ⟨0x3FE1108 + 32 * h, 0x0⟩
def MAR_H_FAIL_HI (h : Nat) : Reg := ⟨0x3FE110C + 32 * h, 0x0⟩
def MAR_H_CNT (h : Nat) : Reg := ⟨0x3FE1110 + 32 * h, 0x0⟩
def HEAT_H_REL_CFG (h : Nat) : Reg := ⟨0x21000 + 64 * h, 0x0⟩
def HEAT_H_REL_QBASE_LO (h : Nat) : Reg := ⟨0x21004 + 64 * h, 0x0⟩
def HEAT_H_REL_QBASE_HI (h : Nat) : Reg := ⟨0x21008 + 64 * h, 0x0⟩
def HEAT_H_REL_HBASE_LO (h : Nat) : Reg := ⟨0x2100C + 64 * h, 0x0⟩
def HEAT_H_REL_HBASE_HI (h : Nat) : Reg := ⟨0x21010 + 64 * h, 0x0⟩
def HEAT_H_REL_HSIZE (h : Nat) : Reg := ⟨0x21014 + 64 * h, 0x0⟩
def HEAT_H_REL_PROD (h : Nat) : Reg := ⟨0x21018 + 64 * h, 0x0⟩
def HEAT_H_REL_REL (h : Nat) : Reg := ⟨0x2101C + 64 * h, 0x0⟩
def HEAT_H_REL_DONE (h : Nat) : Reg := ⟨0x21020 + 64 * h, 0x0⟩
def HEAT_H_REL_HCONS (h : Nat) : Reg := ⟨0x21024 + 64 * h, 0x0⟩
def HEAT_H_REL_STATUS (h : Nat) : Reg := ⟨0x21028 + 64 * h, 0x0⟩
def HEAT_H_REL_CNT_REL (h : Nat) : Reg := ⟨0x2102C + 64 * h, 0x0⟩
def HEAT_H_REL_CNT_DISC (h : Nat) : Reg := ⟨0x21030 + 64 * h, 0x0⟩
def HEAT_H_REL_CNT_REF (h : Nat) : Reg := ⟨0x21034 + 64 * h, 0x0⟩
def STA_BOOT : Reg := ⟨0x3FE0000, 0x40000⟩
def STA_EVT : Reg := ⟨0x3FE0004, 0x0⟩
def STA_CTL : Reg := ⟨0x3FE0008, 0x0⟩
def STA_BOOTCNT : Reg := ⟨0x3FE000C, 0x0⟩
def STA_T0_LO : Reg := ⟨0x3FE0010, 0x0⟩
def STA_T0_HI : Reg := ⟨0x3FE0014, 0x0⟩
def STA_TREADY : Reg := ⟨0x3FE0018, 0x0⟩
def STA_SLOT : Reg := ⟨0x3FE001C, 0x0⟩
def STA_DEGR : Reg := ⟨0x3FE0020, 0x0⟩
def STA_JHEAD : Reg := ⟨0x3FE0024, 0x0⟩
def STA_JSEL : Reg := ⟨0x3FE0028, 0x0⟩
def STA_CNT_RXDROP : Reg := ⟨0x3FE002C, 0x0⟩
def STA_STEP (n : Nat) : Reg := ⟨0x3FE0040 + 4 * n, 0x0⟩
def STA_JW (w : Nat) : Reg := ⟨0x3FE0100 + 4 * w, 0x0⟩
def STA_OOSC (n : Nat) : Reg := ⟨0x3FE0200 + 4 * n, 0x0⟩
def STA_OOSS (n : Nat) : Reg := ⟨0x3FE0300 + 4 * n, 0x0⟩
def STA_OOSX : Reg := ⟨0x3FE0320, 0x0⟩
def MGT_STATUS : Reg := ⟨0x3FF0000, 0x0⟩
def MGT_STATE : Reg := ⟨0x3FF0004, 0x400⟩
def MGT_CFG : Reg := ⟨0x3FF0008, 0x38⟩
def MGT_ALERT : Reg := ⟨0x3FF000C, 0x0⟩
def MGT_FETCH : Reg := ⟨0x3FF0010, 0x0⟩
def MGT_VIN : Reg := ⟨0x3FF0020, 0x0⟩
def MGT_IIN : Reg := ⟨0x3FF0024, 0x0⟩
def MGT_CNT_TRANS : Reg := ⟨0x3FF0028, 0x0⟩
def MGT_CNT_REFUSED : Reg := ⟨0x3FF002C, 0x0⟩
def MGT_LSEL : Reg := ⟨0x3FF0030, 0x0⟩
def MGT_JSEL : Reg := ⟨0x3FF0034, 0x0⟩
def MGT_FBUF (w : Nat) : Reg := ⟨0x3FF0080 + 4 * w, 0x0⟩
def MGT_LOGW (w : Nat) : Reg := ⟨0x3FF0100 + 4 * w, 0x0⟩
def MGT_JW (w : Nat) : Reg := ⟨0x3FF0200 + 4 * w, 0x0⟩
end R

namespace F

def LAP_CFG_role : Fld := ⟨R.LAP_CFG, 0, 2⟩
def LAP_CFG_pri : Fld := ⟨R.LAP_CFG, 2, 4⟩
def LAP_CFG_ref_en : Fld := ⟨R.LAP_CFG, 6, 1⟩
def LAP_CTL_out_en : Fld := ⟨R.LAP_CTL, 0, 1⟩
def LAP_CTL_out_div : Fld := ⟨R.LAP_CTL, 1, 4⟩
def LAP_STATUS_state : Fld := ⟨R.LAP_STATUS, 0, 3⟩
def LAP_STATUS_parent : Fld := ⟨R.LAP_STATUS, 4, 4⟩
def LAP_STATUS_hops : Fld := ⟨R.LAP_STATUS, 8, 5⟩
def LAP_STATUS_ref_ok : Fld := ⟨R.LAP_STATUS, 13, 1⟩
def LAP_STATUS_ref_used : Fld := ⟨R.LAP_STATUS, 14, 1⟩
def LAP_STATUS_ho_pending : Fld := ⟨R.LAP_STATUS, 15, 1⟩
def LAP_STATUS_holdover : Fld := ⟨R.LAP_STATUS, 16, 7⟩
def LAP_STATUS_slewing : Fld := ⟨R.LAP_STATUS, 23, 1⟩
def LAP_EVT_lock : Fld := ⟨R.LAP_EVT, 0, 1⟩
def LAP_EVT_lost : Fld := ⟨R.LAP_EVT, 1, 1⟩
def LAP_EVT_expired : Fld := ⟨R.LAP_EVT, 2, 1⟩
def LAP_EVT_relocked : Fld := ⟨R.LAP_EVT, 3, 1⟩
def LAP_EVT_ref_lost : Fld := ⟨R.LAP_EVT, 4, 1⟩
def LAP_EVT_ref_back : Fld := ⟨R.LAP_EVT, 5, 1⟩
def LAP_EVT_handover : Fld := ⟨R.LAP_EVT, 6, 1⟩
def LAP_EVT_conflict : Fld := ⟨R.LAP_EVT, 7, 1⟩
def LAP_EVT_change : Fld := ⟨R.LAP_EVT, 8, 1⟩
def LAP_EVT_mismatch : Fld := ⟨R.LAP_EVT, 9, 1⟩
def LAP_NOW_LO_lap_lo : Fld := ⟨R.LAP_NOW_LO, 0, 32⟩
def LAP_NOW_HI_lap_hi : Fld := ⟨R.LAP_NOW_HI, 0, 16⟩
def LAP_POS_fc : Fld := ⟨R.LAP_POS, 0, 7⟩
def LAP_POS_stride : Fld := ⟨R.LAP_POS, 7, 11⟩
def LAP_PACER_addr : Fld := ⟨R.LAP_PACER, 0, 10⟩
def LAP_PACER_pri : Fld := ⟨R.LAP_PACER, 10, 4⟩
def LAP_PACER_ref : Fld := ⟨R.LAP_PACER, 14, 1⟩
def LAP_PACER_forced : Fld := ⟨R.LAP_PACER, 15, 1⟩
def LAP_PHASE_err : Fld := ⟨R.LAP_PHASE, 0, 16⟩
def LAP_PHASE_PEAK_peak : Fld := ⟨R.LAP_PHASE_PEAK, 0, 16⟩
def LAP_HO_LO_lap_lo : Fld := ⟨R.LAP_HO_LO, 0, 32⟩
def LAP_HO_HI_lap_hi : Fld := ⟨R.LAP_HO_HI, 0, 16⟩
def LAP_HO_HI_addr : Fld := ⟨R.LAP_HO_HI, 16, 10⟩
def LAP_HO_HI_valid : Fld := ⟨R.LAP_HO_HI, 31, 1⟩
def LAP_DELAY_delay (n : Nat) : Fld := ⟨R.LAP_DELAY n, 0, 20⟩
def LAP_DELAY_valid (n : Nat) : Fld := ⟨R.LAP_DELAY n, 31, 1⟩
def LAP_CNT_RX_count : Fld := ⟨R.LAP_CNT_RX, 0, 32⟩
def LAP_CNT_BAD_count : Fld := ⟨R.LAP_CNT_BAD, 0, 32⟩
def LAP_CNT_LOST_count : Fld := ⟨R.LAP_CNT_LOST, 0, 32⟩
def LAP_CNT_FALSE_count : Fld := ⟨R.LAP_CNT_FALSE, 0, 32⟩
def LAP_CNT_CONFLICT_count : Fld := ⟨R.LAP_CNT_CONFLICT, 0, 32⟩
def HAL_STATUS_ready : Fld := ⟨R.HAL_STATUS, 0, 1⟩
def HAL_STATUS_sys_up : Fld := ⟨R.HAL_STATUS, 1, 1⟩
def HAL_STATUS_hub_ok : Fld := ⟨R.HAL_STATUS, 2, 4⟩
def HAL_EVT_timeout : Fld := ⟨R.HAL_EVT, 0, 1⟩
def HAL_EVT_member_lost : Fld := ⟨R.HAL_EVT, 1, 1⟩
def HAL_EVT_mismatch : Fld := ⟨R.HAL_EVT, 2, 1⟩
def HAL_EVT_checked : Fld := ⟨R.HAL_EVT, 3, 1⟩
def HAL_EVT_flush : Fld := ⟨R.HAL_EVT, 4, 1⟩
def HAL_EVT_rank_reset : Fld := ⟨R.HAL_EVT, 5, 1⟩
def HAL_EVT_pacer_lost : Fld := ⟨R.HAL_EVT, 6, 1⟩
def HAL_EVT_taint : Fld := ⟨R.HAL_EVT, 7, 1⟩
def HAL_EVT_desc_err : Fld := ⟨R.HAL_EVT, 8, 1⟩
def HAL_CNT_CHECKED_count : Fld := ⟨R.HAL_CNT_CHECKED, 0, 32⟩
def HAL_CNT_MISMATCH_count : Fld := ⟨R.HAL_CNT_MISMATCH, 0, 32⟩
def HAL_CNT_TIMEOUT_count : Fld := ⟨R.HAL_CNT_TIMEOUT, 0, 32⟩
def HAL_CNT_TAINT_count : Fld := ⟨R.HAL_CNT_TAINT, 0, 32⟩
def HAL_TAINT_LO_lap_lo : Fld := ⟨R.HAL_TAINT_LO, 0, 32⟩
def HAL_TAINT_HI_lap_hi : Fld := ⟨R.HAL_TAINT_HI, 0, 16⟩
def HAL_TAINT_HI_heat : Fld := ⟨R.HAL_TAINT_HI, 16, 5⟩
def HAL_TAINT_HI_valid : Fld := ⟨R.HAL_TAINT_HI, 31, 1⟩
def HAL_H_CFG_smxc_k (h : Nat) : Fld := ⟨R.HAL_H_CFG h, 0, 4⟩
def HAL_H_CFG_prov_en (h : Nat) : Fld := ⟨R.HAL_H_CFG h, 4, 1⟩
def HAL_H_CFG_team (h : Nat) : Fld := ⟨R.HAL_H_CFG h, 5, 1⟩
def HAL_H_RANKS_count_m1 (h : Nat) : Fld := ⟨R.HAL_H_RANKS h, 0, 11⟩
def HAL_H_BASE_base (h : Nat) : Fld := ⟨R.HAL_H_BASE h, 0, 21⟩
def HAL_H_TREE_parent_port (h : Nat) : Fld := ⟨R.HAL_H_TREE h, 0, 4⟩
def HAL_H_TREE_children (h : Nat) : Fld := ⟨R.HAL_H_TREE h, 4, 12⟩
def HAL_H_TREE_depth (h : Nat) : Fld := ⟨R.HAL_H_TREE h, 16, 5⟩
def HAL_H_STATUS_state (h : Nat) : Fld := ⟨R.HAL_H_STATUS h, 0, 2⟩
def HAL_H_STATUS_in_flight (h : Nat) : Fld := ⟨R.HAL_H_STATUS h, 2, 3⟩
def HAL_H_STATUS_last (h : Nat) : Fld := ⟨R.HAL_H_STATUS h, 5, 4⟩
def HAL_H_STATUS_mq (h : Nat) : Fld := ⟨R.HAL_H_STATUS h, 9, 2⟩
def HAL_H_STATUS_c (h : Nat) : Fld := ⟨R.HAL_H_STATUS h, 11, 2⟩
def HAL_H_LAT_lat (h : Nat) : Fld := ⟨R.HAL_H_LAT h, 0, 9⟩
def HAL_H_LAT_d (h : Nat) : Fld := ⟨R.HAL_H_LAT h, 16, 8⟩
def HAL_H_CNT_HOIST_count (h : Nat) : Fld := ⟨R.HAL_H_CNT_HOIST h, 0, 32⟩
def HAL_H_CNT_FAIL_count (h : Nat) : Fld := ⟨R.HAL_H_CNT_FAIL h, 0, 32⟩
def HAL_H_CNT_PROV_count (h : Nat) : Fld := ⟨R.HAL_H_CNT_PROV h, 0, 32⟩
def HAL_H_CNT_NOMATCH_count (h : Nat) : Fld := ⟨R.HAL_H_CNT_NOMATCH h, 0, 32⟩
def HAL_RANK_rank (n : Nat) : Fld := ⟨R.HAL_RANK n, 0, 11⟩
def HAL_RANK_valid (n : Nat) : Fld := ⟨R.HAL_RANK n, 31, 1⟩
def HAL_LBUF_data (h : Nat) (w : Nat) : Fld := ⟨R.HAL_LBUF h w, 0, 32⟩
def MSH_STATUS_eq_done : Fld := ⟨R.MSH_STATUS, 0, 1⟩
def MSH_STATUS_eq_fail : Fld := ⟨R.MSH_STATUS, 1, 1⟩
def MSH_STATUS_bad_router : Fld := ⟨R.MSH_STATUS, 2, 11⟩
def MSH_STATUS_bad_output : Fld := ⟨R.MSH_STATUS, 13, 4⟩
def MSH_STATUS_bad_slot : Fld := ⟨R.MSH_STATUS, 17, 7⟩
def MSH_STATUS_bad_cause : Fld := ⟨R.MSH_STATUS, 24, 3⟩
def MSH_EVT_void : Fld := ⟨R.MSH_EVT, 0, 1⟩
def MSH_EVT_orphan : Fld := ⟨R.MSH_EVT, 1, 1⟩
def MSH_EVT_corrected : Fld := ⟨R.MSH_EVT, 2, 1⟩
def MSH_EVT_uncorrectable : Fld := ⟨R.MSH_EVT, 3, 1⟩
def MSH_EVT_wacc_ovf : Fld := ⟨R.MSH_EVT, 4, 1⟩
def MSH_EVT_wacc_nan : Fld := ⟨R.MSH_EVT, 5, 1⟩
def MSH_EVT_stop : Fld := ⟨R.MSH_EVT, 6, 1⟩
def MSH_EQ_STATUS_done : Fld := ⟨R.MSH_EQ_STATUS, 0, 13⟩
def MSH_EQ_STATUS_failed : Fld := ⟨R.MSH_EQ_STATUS, 13, 13⟩
def MSH_EQ_WORST_margin : Fld := ⟨R.MSH_EQ_WORST, 0, 16⟩
def MSH_SLT_SEL_router : Fld := ⟨R.MSH_SLT_SEL, 0, 11⟩
def MSH_SLT_SEL_output : Fld := ⟨R.MSH_SLT_SEL, 11, 4⟩
def MSH_SLT_SEL_slot : Fld := ⟨R.MSH_SLT_SEL, 15, 7⟩
def MSH_SLT_SEL_view : Fld := ⟨R.MSH_SLT_SEL, 31, 1⟩
def MSH_SLT_DATA_entry : Fld := ⟨R.MSH_SLT_DATA, 0, 4⟩
def MSH_DIST_SEL_src : Fld := ⟨R.MSH_DIST_SEL, 0, 11⟩
def MSH_DIST_SEL_kind : Fld := ⟨R.MSH_DIST_SEL, 11, 3⟩
def MSH_DIST_SEL_dst : Fld := ⟨R.MSH_DIST_SEL, 14, 11⟩
def MSH_DIST_VAL_lat : Fld := ⟨R.MSH_DIST_VAL, 0, 10⟩
def MSH_DIST_VAL_hops : Fld := ⟨R.MSH_DIST_VAL, 10, 7⟩
def MSH_DIST_VAL_reg : Fld := ⟨R.MSH_DIST_VAL, 17, 5⟩
def MSH_DIST_VAL_d2d : Fld := ⟨R.MSH_DIST_VAL, 22, 2⟩
def MSH_LATE_SEL_cons : Fld := ⟨R.MSH_LATE_SEL, 0, 9⟩
def MSH_LATE_VAL_count : Fld := ⟨R.MSH_LATE_VAL, 0, 32⟩
def MSH_CNT_VOID_count : Fld := ⟨R.MSH_CNT_VOID, 0, 32⟩
def MSH_CNT_ORPHAN_count : Fld := ⟨R.MSH_CNT_ORPHAN, 0, 32⟩
def MSH_CNT_CORR_count : Fld := ⟨R.MSH_CNT_CORR, 0, 32⟩
def MSH_CNT_WACC_OVF_count : Fld := ⟨R.MSH_CNT_WACC_OVF, 0, 32⟩
def MSH_CNT_WACC_NAN_count : Fld := ⟨R.MSH_CNT_WACC_NAN, 0, 32⟩
def MSH_CNT_STOP_count : Fld := ⟨R.MSH_CNT_STOP, 0, 32⟩
def MSH_CTRL_PEAK_peak : Fld := ⟨R.MSH_CTRL_PEAK, 0, 16⟩
def MSH_H_CFG_floor (h : Nat) : Fld := ⟨R.MSH_H_CFG h, 0, 8⟩
def MSH_H_CFG_uniform (h : Nat) : Fld := ⟨R.MSH_H_CFG h, 8, 1⟩
def MSH_H_VOID_count (h : Nat) : Fld := ⟨R.MSH_H_VOID h, 0, 32⟩
def MSH_H_OPEN_min_open (h : Nat) : Fld := ⟨R.MSH_H_OPEN h, 0, 8⟩
def MSH_H_OPEN_max_gap (h : Nat) : Fld := ⟨R.MSH_H_OPEN h, 8, 8⟩
def HEAT_RUN_running : Fld := ⟨R.HEAT_RUN, 0, 32⟩
def HEAT_EXIST_exists : Fld := ⟨R.HEAT_EXIST, 0, 32⟩
def HEAT_EVT_committed : Fld := ⟨R.HEAT_EVT, 0, 1⟩
def HEAT_EVT_started : Fld := ⟨R.HEAT_EVT, 1, 1⟩
def HEAT_EVT_stopped : Fld := ⟨R.HEAT_EVT, 2, 1⟩
def HEAT_EVT_halted : Fld := ⟨R.HEAT_EVT, 3, 1⟩
def HEAT_EVT_reset : Fld := ⟨R.HEAT_EVT, 4, 1⟩
def HEAT_EVT_discard : Fld := ⟨R.HEAT_EVT, 5, 1⟩
def HEAT_EVT_commit_fail : Fld := ⟨R.HEAT_EVT, 6, 1⟩
def HEAT_OWN_heat0 (n : Nat) : Fld := ⟨R.HEAT_OWN n, 0, 5⟩
def HEAT_OWN_heat1 (n : Nat) : Fld := ⟨R.HEAT_OWN n, 8, 5⟩
def HEAT_OWN_heat2 (n : Nat) : Fld := ⟨R.HEAT_OWN n, 16, 5⟩
def HEAT_OWN_heat3 (n : Nat) : Fld := ⟨R.HEAT_OWN n, 24, 5⟩
def HEAT_OWN_owned0 (n : Nat) : Fld := ⟨R.HEAT_OWN n, 7, 1⟩
def HEAT_OWN_owned1 (n : Nat) : Fld := ⟨R.HEAT_OWN n, 15, 1⟩
def HEAT_OWN_owned2 (n : Nat) : Fld := ⟨R.HEAT_OWN n, 23, 1⟩
def HEAT_OWN_owned3 (n : Nat) : Fld := ⟨R.HEAT_OWN n, 31, 1⟩
def HEAT_FENCE_fenced (n : Nat) : Fld := ⟨R.HEAT_FENCE n, 0, 32⟩
def HEAT_H_GEOM_bc0 (h : Nat) : Fld := ⟨R.HEAT_H_GEOM h, 0, 3⟩
def HEAT_H_GEOM_br0 (h : Nat) : Fld := ⟨R.HEAT_H_GEOM h, 4, 3⟩
def HEAT_H_GEOM_w (h : Nat) : Fld := ⟨R.HEAT_H_GEOM h, 8, 4⟩
def HEAT_H_GEOM_h (h : Nat) : Fld := ⟨R.HEAT_H_GEOM h, 12, 4⟩
def HEAT_H_AGEOM_bc0 (h : Nat) : Fld := ⟨R.HEAT_H_AGEOM h, 0, 3⟩
def HEAT_H_AGEOM_br0 (h : Nat) : Fld := ⟨R.HEAT_H_AGEOM h, 4, 3⟩
def HEAT_H_AGEOM_w (h : Nat) : Fld := ⟨R.HEAT_H_AGEOM h, 8, 4⟩
def HEAT_H_AGEOM_h (h : Nat) : Fld := ⟨R.HEAT_H_AGEOM h, 12, 4⟩
def HEAT_H_CFG_rel_en (h : Nat) : Fld := ⟨R.HEAT_H_CFG h, 0, 1⟩
def HEAT_H_CFG_scrub (h : Nat) : Fld := ⟨R.HEAT_H_CFG h, 1, 1⟩
def HEAT_H_STATE_state (h : Nat) : Fld := ⟨R.HEAT_H_STATE h, 0, 3⟩
def HEAT_H_STATE_resumable (h : Nat) : Fld := ⟨R.HEAT_H_STATE h, 3, 1⟩
def HEAT_H_STATE_cause (h : Nat) : Fld := ⟨R.HEAT_H_STATE h, 4, 4⟩
def HEAT_H_STATE_recall (h : Nat) : Fld := ⟨R.HEAT_H_STATE h, 8, 1⟩
def HEAT_H_STATE_scrubbing (h : Nat) : Fld := ⟨R.HEAT_H_STATE h, 9, 1⟩
def HEAT_H_START_LO_lap_lo (h : Nat) : Fld := ⟨R.HEAT_H_START_LO h, 0, 32⟩
def HEAT_H_START_HI_lap_hi (h : Nat) : Fld := ⟨R.HEAT_H_START_HI h, 0, 16⟩
def HEAT_H_STOP_LO_lap_lo (h : Nat) : Fld := ⟨R.HEAT_H_STOP_LO h, 0, 32⟩
def HEAT_H_STOP_HI_lap_hi (h : Nat) : Fld := ⟨R.HEAT_H_STOP_HI h, 0, 16⟩
def HEAT_H_ATT_baton (h : Nat) : Fld := ⟨R.HEAT_H_ATT h, 0, 12⟩
def HEAT_H_ATT_host (h : Nat) : Fld := ⟨R.HEAT_H_ATT h, 12, 2⟩
def HEAT_H_ATT_reserve (h : Nat) : Fld := ⟨R.HEAT_H_ATT h, 14, 8⟩
def HEAT_H_ATT_starter (h : Nat) : Fld := ⟨R.HEAT_H_ATT h, 22, 1⟩
def HEAT_H_GOOD_good (h : Nat) : Fld := ⟨R.HEAT_H_GOOD h, 0, 12⟩
def HEAT_H_GOOD_ranks (h : Nat) : Fld := ⟨R.HEAT_H_GOOD h, 12, 12⟩
def HEAT_H_DISCARD_flit (h : Nat) : Fld := ⟨R.HEAT_H_DISCARD h, 0, 16⟩
def HEAT_H_DISCARD_addr (h : Nat) : Fld := ⟨R.HEAT_H_DISCARD h, 16, 16⟩
def HEAT_H_CNT_START_count (h : Nat) : Fld := ⟨R.HEAT_H_CNT_START h, 0, 32⟩
def CORE_CTL_reset (n : Nat) : Fld := ⟨R.CORE_CTL n, 0, 1⟩
def CORE_STATE_state (n : Nat) : Fld := ⟨R.CORE_STATE n, 0, 3⟩
def CORE_STATE_recall (n : Nat) : Fld := ⟨R.CORE_STATE n, 3, 1⟩
def CORE_STATE_prov_open (n : Nat) : Fld := ⟨R.CORE_STATE n, 4, 4⟩
def CORE_STATE_prov_any (n : Nat) : Fld := ⟨R.CORE_STATE n, 8, 1⟩
def CORE_STATE_replayed (n : Nat) : Fld := ⟨R.CORE_STATE n, 9, 1⟩
def CORE_STATE_step (n : Nat) : Fld := ⟨R.CORE_STATE n, 16, 9⟩
def CORE_PC_pc (n : Nat) : Fld := ⟨R.CORE_PC n, 0, 16⟩
def CORE_EXC_cause (n : Nat) : Fld := ⟨R.CORE_EXC n, 0, 4⟩
def CORE_EXC_valid (n : Nat) : Fld := ⟨R.CORE_EXC n, 4, 1⟩
def CORE_EXC_pc (n : Nat) : Fld := ⟨R.CORE_EXC n, 16, 16⟩
def CORE_ENTRY_entry (n : Nat) : Fld := ⟨R.CORE_ENTRY n, 2, 14⟩
def CORE_ENTRY_size (n : Nat) : Fld := ⟨R.CORE_ENTRY n, 16, 15⟩
def CORE_QUAR_base (n : Nat) : Fld := ⟨R.CORE_QUAR n, 0, 14⟩
def CORE_QUAR_lines (n : Nat) : Fld := ⟨R.CORE_QUAR n, 16, 14⟩
def CORE_SMAP_SEL_slot (n : Nat) : Fld := ⟨R.CORE_SMAP_SEL n, 0, 7⟩
def CORE_SMAP_SEL_dir (n : Nat) : Fld := ⟨R.CORE_SMAP_SEL n, 7, 1⟩
def CORE_SMAP_SEL_view (n : Nat) : Fld := ⟨R.CORE_SMAP_SEL n, 31, 1⟩
def CORE_SMAP_DATA_stream (n : Nat) : Fld := ⟨R.CORE_SMAP_DATA n, 0, 4⟩
def CORE_SMAP_DATA_valid (n : Nat) : Fld := ⟨R.CORE_SMAP_DATA n, 4, 1⟩
def CORE_SMAP_DATA_quiet (n : Nat) : Fld := ⟨R.CORE_SMAP_DATA n, 5, 1⟩
def CORE_OPS_inflight (n : Nat) : Fld := ⟨R.CORE_OPS n, 0, 6⟩
def CORE_OPS_cq (n : Nat) : Fld := ⟨R.CORE_OPS n, 6, 6⟩
def CORE_OPS_hq (n : Nat) : Fld := ⟨R.CORE_OPS n, 12, 4⟩
def CORE_OPS_rq (n : Nat) : Fld := ⟨R.CORE_OPS n, 16, 7⟩
def CORE_LATE_count (n : Nat) : Fld := ⟨R.CORE_LATE n, 0, 32⟩
def CORE_CNT_RETIRE_count (n : Nat) : Fld := ⟨R.CORE_CNT_RETIRE n, 0, 32⟩
def CORE_CNT_STALL_count (n : Nat) : Fld := ⟨R.CORE_CNT_STALL n, 0, 32⟩
def CORE_CNT_REPLAY_count (n : Nat) : Fld := ⟨R.CORE_CNT_REPLAY n, 0, 32⟩
def CORE_CNT_PROVBLK_count (n : Nat) : Fld := ⟨R.CORE_CNT_PROVBLK n, 0, 32⟩
def CORE_CNT_RDROP_count (n : Nat) : Fld := ⟨R.CORE_CNT_RDROP n, 0, 32⟩
def CORE_CKPT_addr (n : Nat) : Fld := ⟨R.CORE_CKPT n, 0, 16⟩
def CORE_CKPT_valid (n : Nat) : Fld := ⟨R.CORE_CKPT n, 31, 1⟩
def NUM_CFG_passes (n : Nat) : Fld := ⟨R.NUM_CFG n, 0, 2⟩
def NUM_CFG_ftz32 (n : Nat) : Fld := ⟨R.NUM_CFG n, 2, 1⟩
def NUM_CFG_sat8 (n : Nat) : Fld := ⟨R.NUM_CFG n, 3, 1⟩
def NUM_CFG_iq (n : Nat) : Fld := ⟨R.NUM_CFG n, 4, 5⟩
def NUM_FLAGS_flushed (n : Nat) : Fld := ⟨R.NUM_FLAGS n, 0, 1⟩
def NUM_FLAGS_saturated (n : Nat) : Fld := ⟨R.NUM_FLAGS n, 1, 1⟩
def NUM_FLAGS_nan_made (n : Nat) : Fld := ⟨R.NUM_FLAGS n, 2, 1⟩
def NUM_FLAGS_overflow (n : Nat) : Fld := ⟨R.NUM_FLAGS n, 3, 1⟩
def NUM_FLAGS_invalid (n : Nat) : Fld := ⟨R.NUM_FLAGS n, 4, 1⟩
def NUM_FLAGS_divzero (n : Nat) : Fld := ⟨R.NUM_FLAGS n, 5, 1⟩
def NUM_FLAGS_underflow (n : Nat) : Fld := ⟨R.NUM_FLAGS n, 6, 1⟩
def NUM_FLAGS_inexact (n : Nat) : Fld := ⟨R.NUM_FLAGS n, 7, 1⟩
def NUM_FLAGS_retried (n : Nat) : Fld := ⟨R.NUM_FLAGS n, 8, 1⟩
def NUM_SEED_seed (n : Nat) : Fld := ⟨R.NUM_SEED n, 0, 32⟩
def NUM_LAST_sat (n : Nat) : Fld := ⟨R.NUM_LAST n, 0, 8⟩
def NUM_LAST_flush (n : Nat) : Fld := ⟨R.NUM_LAST n, 8, 8⟩
def NUM_LAST_nan (n : Nat) : Fld := ⟨R.NUM_LAST n, 16, 8⟩
def NUM_LAST_retry (n : Nat) : Fld := ⟨R.NUM_LAST n, 24, 3⟩
def NUM_CNT_SAT_count (n : Nat) : Fld := ⟨R.NUM_CNT_SAT n, 0, 32⟩
def NUM_CNT_FLUSH_count (n : Nat) : Fld := ⟨R.NUM_CNT_FLUSH n, 0, 32⟩
def NUM_CNT_NAN_count (n : Nat) : Fld := ⟨R.NUM_CNT_NAN n, 0, 32⟩
def NUM_CNT_RETRY_count (n : Nat) : Fld := ⟨R.NUM_CNT_RETRY n, 0, 32⟩
def NUM_PFLAGS_flushed (n : Nat) : Fld := ⟨R.NUM_PFLAGS n, 0, 1⟩
def NUM_PFLAGS_saturated (n : Nat) : Fld := ⟨R.NUM_PFLAGS n, 1, 1⟩
def NUM_PFLAGS_nan_made (n : Nat) : Fld := ⟨R.NUM_PFLAGS n, 2, 1⟩
def NUM_PFLAGS_overflow (n : Nat) : Fld := ⟨R.NUM_PFLAGS n, 3, 1⟩
def NUM_PFLAGS_invalid (n : Nat) : Fld := ⟨R.NUM_PFLAGS n, 4, 1⟩
def NUM_PFLAGS_divzero (n : Nat) : Fld := ⟨R.NUM_PFLAGS n, 5, 1⟩
def NUM_PFLAGS_underflow (n : Nat) : Fld := ⟨R.NUM_PFLAGS n, 6, 1⟩
def NUM_PFLAGS_inexact (n : Nat) : Fld := ⟨R.NUM_PFLAGS n, 7, 1⟩
def NUM_PFLAGS_retried (n : Nat) : Fld := ⟨R.NUM_PFLAGS n, 8, 1⟩
def NUM_PCNT_SAT_count (n : Nat) : Fld := ⟨R.NUM_PCNT_SAT n, 0, 32⟩
def NUM_PCNT_FLUSH_count (n : Nat) : Fld := ⟨R.NUM_PCNT_FLUSH n, 0, 32⟩
def NUM_PCNT_NAN_count (n : Nat) : Fld := ⟨R.NUM_PCNT_NAN n, 0, 32⟩
def NUM_PCNT_RETRY_count (n : Nat) : Fld := ⟨R.NUM_PCNT_RETRY n, 0, 32⟩
def DMA_STATUS_patrol : Fld := ⟨R.DMA_STATUS, 0, 1⟩
def DMA_STATUS_fw0 : Fld := ⟨R.DMA_STATUS, 1, 1⟩
def DMA_STATUS_fw1 : Fld := ⟨R.DMA_STATUS, 2, 1⟩
def DMA_STATUS_stage0 : Fld := ⟨R.DMA_STATUS, 3, 13⟩
def DMA_STATUS_stage1 : Fld := ⟨R.DMA_STATUS, 16, 13⟩
def DMA_EVT_ce_limit : Fld := ⟨R.DMA_EVT, 0, 1⟩
def DMA_EVT_ue : Fld := ⟨R.DMA_EVT, 1, 1⟩
def DMA_EVT_poison_in : Fld := ⟨R.DMA_EVT, 2, 1⟩
def DMA_EVT_far_err : Fld := ⟨R.DMA_EVT, 3, 1⟩
def DMA_EVT_hostdrop : Fld := ⟨R.DMA_EVT, 4, 1⟩
def DMA_EVT_pass : Fld := ⟨R.DMA_EVT, 5, 1⟩
def DMA_CFG_patrol_en : Fld := ⟨R.DMA_CFG, 0, 1⟩
def DMA_CFG_stage_to : Fld := ⟨R.DMA_CFG, 8, 8⟩
def DMA_CFG_ce_limit : Fld := ⟨R.DMA_CFG, 16, 16⟩
def DMA_FW0_BASE_LO_base_lo : Fld := ⟨R.DMA_FW0_BASE_LO, 3, 29⟩
def DMA_FW0_BASE_HI_base_hi : Fld := ⟨R.DMA_FW0_BASE_HI, 0, 16⟩
def DMA_FW0_SIZE_pages : Fld := ⟨R.DMA_FW0_SIZE, 0, 23⟩
def DMA_FW1_BASE_LO_base_lo : Fld := ⟨R.DMA_FW1_BASE_LO, 3, 29⟩
def DMA_FW1_BASE_HI_base_hi : Fld := ⟨R.DMA_FW1_BASE_HI, 0, 16⟩
def DMA_FW1_SIZE_pages : Fld := ⟨R.DMA_FW1_SIZE, 0, 23⟩
def DMA_BAR2_BASE0_LO_base_lo : Fld := ⟨R.DMA_BAR2_BASE0_LO, 30, 2⟩
def DMA_BAR2_BASE0_HI_base_hi : Fld := ⟨R.DMA_BAR2_BASE0_HI, 0, 16⟩
def DMA_BAR2_BASE1_LO_base_lo : Fld := ⟨R.DMA_BAR2_BASE1_LO, 30, 2⟩
def DMA_BAR2_BASE1_HI_base_hi : Fld := ⟨R.DMA_BAR2_BASE1_HI, 0, 16⟩
def DMA_MERR_LO_addr_lo : Fld := ⟨R.DMA_MERR_LO, 0, 32⟩
def DMA_MERR_HI_addr_hi : Fld := ⟨R.DMA_MERR_HI, 0, 16⟩
def DMA_MERR_HI_class : Fld := ⟨R.DMA_MERR_HI, 16, 4⟩
def DMA_MERR_HI_heat : Fld := ⟨R.DMA_MERR_HI, 20, 5⟩
def DMA_MERR_HI_owned : Fld := ⟨R.DMA_MERR_HI, 25, 1⟩
def DMA_CNT_CE_SP_count : Fld := ⟨R.DMA_CNT_CE_SP, 0, 32⟩
def DMA_CNT_CE_T1_count : Fld := ⟨R.DMA_CNT_CE_T1, 0, 32⟩
def DMA_CNT_CE_T2_count : Fld := ⟨R.DMA_CNT_CE_T2, 0, 32⟩
def DMA_CNT_UE_count : Fld := ⟨R.DMA_CNT_UE, 0, 32⟩
def DMA_CNT_FAR_count : Fld := ⟨R.DMA_CNT_FAR, 0, 32⟩
def DMA_CNT_HOSTDROP_count : Fld := ⟨R.DMA_CNT_HOSTDROP, 0, 32⟩
def DMA_CNT_PATROL_count : Fld := ⟨R.DMA_CNT_PATROL, 0, 32⟩
def DMA_CNT_STAGE_count : Fld := ⟨R.DMA_CNT_STAGE, 0, 32⟩
def DMA_C_CFG_streams (n : Nat) : Fld := ⟨R.DMA_C_CFG n, 0, 16⟩
def DMA_C_STATE_queued (n : Nat) : Fld := ⟨R.DMA_C_STATE n, 0, 4⟩
def DMA_C_STATE_busy (n : Nat) : Fld := ⟨R.DMA_C_STATE n, 4, 1⟩
def DMA_C_STATE_desc (n : Nat) : Fld := ⟨R.DMA_C_STATE n, 5, 16⟩
def DMA_C_CNT_UNITS_count (n : Nat) : Fld := ⟨R.DMA_C_CNT_UNITS n, 0, 32⟩
def DMA_C_CNT_ERR_count (n : Nat) : Fld := ⟨R.DMA_C_CNT_ERR n, 0, 32⟩
def DMA_RMAP_SEL_target : Fld := ⟨R.DMA_RMAP_SEL, 0, 9⟩
def DMA_RMAP_SEL_lane : Fld := ⟨R.DMA_RMAP_SEL, 9, 2⟩
def DMA_RMAP_SEL_slot : Fld := ⟨R.DMA_RMAP_SEL, 11, 7⟩
def DMA_RMAP_SEL_view : Fld := ⟨R.DMA_RMAP_SEL, 31, 1⟩
def DMA_RMAP_DATA_router : Fld := ⟨R.DMA_RMAP_DATA, 0, 11⟩
def DMA_RMAP_DATA_valid : Fld := ⟨R.DMA_RMAP_DATA, 11, 1⟩
def KV_STATUS_ready : Fld := ⟨R.KV_STATUS, 0, 32⟩
def KV_EVT_spill : Fld := ⟨R.KV_EVT, 0, 1⟩
def KV_EVT_full : Fld := ⟨R.KV_EVT, 1, 1⟩
def KV_EVT_replay : Fld := ⟨R.KV_EVT, 2, 1⟩
def KV_EVT_abandon : Fld := ⟨R.KV_EVT, 3, 1⟩
def KV_EVT_empty : Fld := ⟨R.KV_EVT, 4, 1⟩
def KV_H_CFG_dsel (h : Nat) : Fld := ⟨R.KV_H_CFG h, 0, 2⟩
def KV_H_CFG_kvfmt (h : Nat) : Fld := ⟨R.KV_H_CFG h, 2, 1⟩
def KV_H_CFG_g_m1 (h : Nat) : Fld := ⟨R.KV_H_CFG h, 3, 4⟩
def KV_H_CFG_l_m1 (h : Nat) : Fld := ⟨R.KV_H_CFG h, 7, 8⟩
def KV_H_CFG_keep_m1 (h : Nat) : Fld := ⟨R.KV_H_CFG h, 15, 6⟩
def KV_H_CFG_far_en (h : Nat) : Fld := ⟨R.KV_H_CFG h, 21, 1⟩
def KV_H_PFT_LO_pft (h : Nat) : Fld := ⟨R.KV_H_PFT_LO h, 0, 32⟩
def KV_H_PFT_HI_pft (h : Nat) : Fld := ⟨R.KV_H_PFT_HI h, 0, 16⟩
def KV_H_NPAGE_pages (h : Nat) : Fld := ⟨R.KV_H_NPAGE h, 0, 27⟩
def KV_H_DIG_LO_dig (h : Nat) : Fld := ⟨R.KV_H_DIG_LO h, 0, 32⟩
def KV_H_DIG_HI_dig (h : Nat) : Fld := ⟨R.KV_H_DIG_HI h, 0, 16⟩
def KV_H_T1_BASE_base (h : Nat) : Fld := ⟨R.KV_H_T1_BASE h, 0, 32⟩
def KV_H_T1_N_frames (h : Nat) : Fld := ⟨R.KV_H_T1_N h, 0, 32⟩
def KV_H_T2_BASE_base (h : Nat) : Fld := ⟨R.KV_H_T2_BASE h, 0, 32⟩
def KV_H_T2_N_frames (h : Nat) : Fld := ⟨R.KV_H_T2_N h, 0, 32⟩
def KV_H_T3_BASE_base (h : Nat) : Fld := ⟨R.KV_H_T3_BASE h, 0, 32⟩
def KV_H_T3_N_frames (h : Nat) : Fld := ⟨R.KV_H_T3_N h, 0, 32⟩
def KV_H_WATER_low1 (h : Nat) : Fld := ⟨R.KV_H_WATER h, 0, 8⟩
def KV_H_WATER_high1 (h : Nat) : Fld := ⟨R.KV_H_WATER h, 8, 8⟩
def KV_H_WATER_low2 (h : Nat) : Fld := ⟨R.KV_H_WATER h, 16, 8⟩
def KV_H_WATER_high2 (h : Nat) : Fld := ⟨R.KV_H_WATER h, 24, 8⟩
def KV_H_COOL_cool (h : Nat) : Fld := ⟨R.KV_H_COOL h, 0, 16⟩
def KV_H_COOL_promote (h : Nat) : Fld := ⟨R.KV_H_COOL h, 16, 16⟩
def KV_H_KSTREAM_streams (h : Nat) : Fld := ⟨R.KV_H_KSTREAM h, 0, 16⟩
def KV_H_STATUS_ready (h : Nat) : Fld := ⟨R.KV_H_STATUS h, 0, 1⟩
def KV_H_STATUS_layout_bad (h : Nat) : Fld := ⟨R.KV_H_STATUS h, 1, 1⟩
def KV_H_STATUS_spilling (h : Nat) : Fld := ⟨R.KV_H_STATUS h, 2, 1⟩
def KV_H_STATUS_full (h : Nat) : Fld := ⟨R.KV_H_STATUS h, 3, 1⟩
def KV_H_FREE1_free (h : Nat) : Fld := ⟨R.KV_H_FREE1 h, 0, 32⟩
def KV_H_FREE2_free (h : Nat) : Fld := ⟨R.KV_H_FREE2 h, 0, 32⟩
def KV_H_FREE3_free (h : Nat) : Fld := ⟨R.KV_H_FREE3 h, 0, 32⟩
def KV_H_CNT_ATTEND_count (h : Nat) : Fld := ⟨R.KV_H_CNT_ATTEND h, 0, 32⟩
def KV_H_CNT_SPILL_count (h : Nat) : Fld := ⟨R.KV_H_CNT_SPILL h, 0, 32⟩
def KV_H_CNT_REPLAY_count (h : Nat) : Fld := ⟨R.KV_H_CNT_REPLAY h, 0, 32⟩
def KV_H_CNT_STALL_count (h : Nat) : Fld := ⟨R.KV_H_CNT_STALL h, 0, 32⟩
def KV_H_CNT_ABANDON_count (h : Nat) : Fld := ⟨R.KV_H_CNT_ABANDON h, 0, 32⟩
def KV_H_CNT_EMPTY_count (h : Nat) : Fld := ⟨R.KV_H_CNT_EMPTY h, 0, 32⟩
def BTN_STATUS_up : Fld := ⟨R.BTN_STATUS, 0, 12⟩
def BTN_STATUS_topo_set : Fld := ⟨R.BTN_STATUS, 12, 1⟩
def BTN_EVT_down : Fld := ⟨R.BTN_EVT, 0, 1⟩
def BTN_EVT_up : Fld := ⟨R.BTN_EVT, 1, 1⟩
def BTN_EVT_miswired : Fld := ⟨R.BTN_EVT, 2, 1⟩
def BTN_EVT_long : Fld := ⟨R.BTN_EVT, 3, 1⟩
def BTN_EVT_retry_limit : Fld := ⟨R.BTN_EVT, 4, 1⟩
def BTN_EVT_lock_lost : Fld := ⟨R.BTN_EVT, 5, 1⟩
def BTN_EVT_nest : Fld := ⟨R.BTN_EVT, 6, 1⟩
def BTN_EVT_txovf : Fld := ⟨R.BTN_EVT, 7, 1⟩
def BTN_CFG_blat : Fld := ⟨R.BTN_CFG, 0, 11⟩
def BTN_CFG_ue_down : Fld := ⟨R.BTN_CFG, 16, 8⟩
def BTN_TOPO_x : Fld := ⟨R.BTN_TOPO, 0, 4⟩
def BTN_TOPO_y : Fld := ⟨R.BTN_TOPO, 4, 3⟩
def BTN_TOPO_z : Fld := ⟨R.BTN_TOPO, 7, 3⟩
def BTN_TOPO_xd_m1 : Fld := ⟨R.BTN_TOPO, 10, 4⟩
def BTN_TOPO_yd_m1 : Fld := ⟨R.BTN_TOPO, 14, 3⟩
def BTN_TOPO_zd_m1 : Fld := ⟨R.BTN_TOPO, 17, 3⟩
def BTN_P_CTL_en (p : Nat) : Fld := ⟨R.BTN_P_CTL p, 0, 1⟩
def BTN_P_CTL_retrain (p : Nat) : Fld := ⟨R.BTN_P_CTL p, 1, 1⟩
def BTN_P_CTL_auto (p : Nat) : Fld := ⟨R.BTN_P_CTL p, 2, 1⟩
def BTN_P_STATUS_state (p : Nat) : Fld := ⟨R.BTN_P_STATUS p, 0, 3⟩
def BTN_P_STATUS_cw_lock (p : Nat) : Fld := ⟨R.BTN_P_STATUS p, 3, 1⟩
def BTN_P_STATUS_fr_lock (p : Nat) : Fld := ⟨R.BTN_P_STATUS p, 4, 1⟩
def BTN_P_STATUS_peer_nr (p : Nat) : Fld := ⟨R.BTN_P_STATUS p, 5, 1⟩
def BTN_P_STATUS_local_nr (p : Nat) : Fld := ⟨R.BTN_P_STATUS p, 6, 1⟩
def BTN_P_STATUS_long (p : Nat) : Fld := ⟨R.BTN_P_STATUS p, 7, 1⟩
def BTN_P_STATUS_cause (p : Nat) : Fld := ⟨R.BTN_P_STATUS p, 8, 4⟩
def BTN_P_STATUS_train (p : Nat) : Fld := ⟨R.BTN_P_STATUS p, 16, 12⟩
def BTN_P_PEER_addr (p : Nat) : Fld := ⟨R.BTN_P_PEER p, 0, 10⟩
def BTN_P_PEER_port (p : Nat) : Fld := ⟨R.BTN_P_PEER p, 10, 4⟩
def BTN_P_PEER_valid (p : Nat) : Fld := ⟨R.BTN_P_PEER p, 14, 1⟩
def BTN_P_EQ_preset (p : Nat) : Fld := ⟨R.BTN_P_EQ p, 0, 4⟩
def BTN_P_CNT_CE_count (p : Nat) : Fld := ⟨R.BTN_P_CNT_CE p, 0, 32⟩
def BTN_P_CNT_UE_count (p : Nat) : Fld := ⟨R.BTN_P_CNT_UE p, 0, 32⟩
def BTN_P_CNT_HDR_count (p : Nat) : Fld := ⟨R.BTN_P_CNT_HDR p, 0, 32⟩
def BTN_P_CNT_NEST_count (p : Nat) : Fld := ⟨R.BTN_P_CNT_NEST p, 0, 32⟩
def BTN_P_CNT_RETRY_count (p : Nat) : Fld := ⟨R.BTN_P_CNT_RETRY p, 0, 32⟩
def BTN_P_CNT_DUP_count (p : Nat) : Fld := ⟨R.BTN_P_CNT_DUP p, 0, 32⟩
def BTN_P_CNT_LATE_count (p : Nat) : Fld := ⟨R.BTN_P_CNT_LATE p, 0, 32⟩
def BTN_P_CNT_NRDROP_count (p : Nat) : Fld := ⟨R.BTN_P_CNT_NRDROP p, 0, 32⟩
def BTN_P_CNT_LOCK_count (p : Nat) : Fld := ⟨R.BTN_P_CNT_LOCK p, 0, 32⟩
def BTN_P_CNT_TXOVF_count (p : Nat) : Fld := ⟨R.BTN_P_CNT_TXOVF p, 0, 32⟩
def TEAM_STATUS_checked : Fld := ⟨R.TEAM_STATUS, 0, 32⟩
def TEAM_EVT_check_fail : Fld := ⟨R.TEAM_EVT, 0, 1⟩
def TEAM_EVT_mismatch : Fld := ⟨R.TEAM_EVT, 1, 1⟩
def TEAM_EVT_incomplete : Fld := ⟨R.TEAM_EVT, 2, 1⟩
def TEAM_H_CFG_id (h : Nat) : Fld := ⟨R.TEAM_H_CFG h, 0, 6⟩
def TEAM_H_CFG_en (h : Nat) : Fld := ⟨R.TEAM_H_CFG h, 6, 1⟩
def TEAM_H_BLOCK_ox (h : Nat) : Fld := ⟨R.TEAM_H_BLOCK h, 0, 4⟩
def TEAM_H_BLOCK_ex_m1 (h : Nat) : Fld := ⟨R.TEAM_H_BLOCK h, 4, 4⟩
def TEAM_H_BLOCK_oy (h : Nat) : Fld := ⟨R.TEAM_H_BLOCK h, 8, 3⟩
def TEAM_H_BLOCK_ey_m1 (h : Nat) : Fld := ⟨R.TEAM_H_BLOCK h, 11, 3⟩
def TEAM_H_BLOCK_oz (h : Nat) : Fld := ⟨R.TEAM_H_BLOCK h, 14, 3⟩
def TEAM_H_BLOCK_ez_m1 (h : Nat) : Fld := ⟨R.TEAM_H_BLOCK h, 17, 3⟩
def TEAM_H_ROOT_rx (h : Nat) : Fld := ⟨R.TEAM_H_ROOT h, 0, 4⟩
def TEAM_H_ROOT_ry (h : Nat) : Fld := ⟨R.TEAM_H_ROOT h, 4, 3⟩
def TEAM_H_ROOT_rz (h : Nat) : Fld := ⟨R.TEAM_H_ROOT h, 7, 3⟩
def TEAM_H_MEMBER_m (h : Nat) : Fld := ⟨R.TEAM_H_MEMBER h, 0, 10⟩
def TEAM_H_MEMBER_count_m1 (h : Nat) : Fld := ⟨R.TEAM_H_MEMBER h, 10, 10⟩
def TEAM_H_MEMBER_depth (h : Nat) : Fld := ⟨R.TEAM_H_MEMBER h, 20, 5⟩
def TEAM_H_DIGEST_LO_digest (h : Nat) : Fld := ⟨R.TEAM_H_DIGEST_LO h, 0, 32⟩
def TEAM_H_DIGEST_HI_digest (h : Nat) : Fld := ⟨R.TEAM_H_DIGEST_HI h, 0, 32⟩
def TEAM_H_REC_LO_rec (h : Nat) : Fld := ⟨R.TEAM_H_REC_LO h, 5, 27⟩
def TEAM_H_REC_HI_rec (h : Nat) : Fld := ⟨R.TEAM_H_REC_HI h, 0, 16⟩
def TEAM_H_STATUS_check (h : Nat) : Fld := ⟨R.TEAM_H_STATUS h, 0, 2⟩
def TEAM_H_STATUS_ncoll (h : Nat) : Fld := ⟨R.TEAM_H_STATUS h, 2, 7⟩
def TEAM_H_BUF_word (h : Nat) (n : Nat) (w : Nat) : Fld := ⟨R.TEAM_H_BUF h n w, 0, 32⟩
def TEAM_H_CD_word (h : Nat) (c : Nat) (w : Nat) : Fld := ⟨R.TEAM_H_CD h c w, 0, 32⟩
def TEAM_H_AUX_aux (h : Nat) (a : Nat) : Fld := ⟨R.TEAM_H_AUX h a, 0, 32⟩
def MAR_STATUS_state : Fld := ⟨R.MAR_STATUS, 0, 3⟩
def MAR_STATUS_lock : Fld := ⟨R.MAR_STATUS, 3, 1⟩
def MAR_STATUS_service : Fld := ⟨R.MAR_STATUS, 4, 1⟩
def MAR_STATUS_fault_n : Fld := ⟨R.MAR_STATUS, 5, 1⟩
def MAR_STATUS_safe_stop : Fld := ⟨R.MAR_STATUS, 6, 1⟩
def MAR_STATUS_starter_ok : Fld := ⟨R.MAR_STATUS, 7, 1⟩
def MAR_STATUS_audit : Fld := ⟨R.MAR_STATUS, 8, 6⟩
def MAR_EVT_yellow : Fld := ⟨R.MAR_EVT, 0, 1⟩
def MAR_EVT_red : Fld := ⟨R.MAR_EVT, 1, 1⟩
def MAR_EVT_black : Fld := ⟨R.MAR_EVT, 2, 1⟩
def MAR_EVT_lockwr : Fld := ⟨R.MAR_EVT, 3, 1⟩
def MAR_EVT_audit_fail : Fld := ⟨R.MAR_EVT, 4, 1⟩
def MAR_EVT_taint_in : Fld := ⟨R.MAR_EVT, 5, 1⟩
def MAR_EVT_team_stop : Fld := ⟨R.MAR_EVT, 6, 1⟩
def MAR_EVT_injected : Fld := ⟨R.MAR_EVT, 7, 1⟩
def MAR_LOCK_lock : Fld := ⟨R.MAR_LOCK, 0, 1⟩
def MAR_CFG_t_warn : Fld := ⟨R.MAR_CFG, 0, 8⟩
def MAR_CFG_ss_team : Fld := ⟨R.MAR_CFG, 8, 1⟩
def MAR_SVC_on : Fld := ⟨R.MAR_SVC, 0, 1⟩
def MAR_CNT_LOCKWR_count : Fld := ⟨R.MAR_CNT_LOCKWR, 0, 32⟩
def MAR_CNT_YELLOW_count : Fld := ⟨R.MAR_CNT_YELLOW, 0, 32⟩
def MAR_CNT_RED_count : Fld := ⟨R.MAR_CNT_RED, 0, 32⟩
def MAR_CNT_BLACK_count : Fld := ⟨R.MAR_CNT_BLACK, 0, 32⟩
def MAR_LOG_SEL_index : Fld := ⟨R.MAR_LOG_SEL, 0, 10⟩
def MAR_LOG_HEAD_next : Fld := ⟨R.MAR_LOG_HEAD, 0, 10⟩
def MAR_LOG_HEAD_seq : Fld := ⟨R.MAR_LOG_HEAD, 16, 16⟩
def MAR_FW_version : Fld := ⟨R.MAR_FW, 0, 16⟩
def MAR_FW_slot : Fld := ⟨R.MAR_FW, 16, 1⟩
def MAR_TEMP_die : Fld := ⟨R.MAR_TEMP, 0, 8⟩
def MAR_TEMP_hbm : Fld := ⟨R.MAR_TEMP, 8, 8⟩
def MAR_PWR_watts : Fld := ⟨R.MAR_PWR, 0, 16⟩
def MAR_LOG_W_word (w : Nat) : Fld := ⟨R.MAR_LOG_W w, 0, 32⟩
def MAR_OOS_oos (n : Nat) : Fld := ⟨R.MAR_OOS n, 0, 32⟩
def MAR_INJ_CTL_kind : Fld := ⟨R.MAR_INJ_CTL, 0, 4⟩
def MAR_INJ_CTL_arm : Fld := ⟨R.MAR_INJ_CTL, 4, 1⟩
def MAR_INJ_CTL_done : Fld := ⟨R.MAR_INJ_CTL, 5, 1⟩
def MAR_INJ_CTL_cancelled : Fld := ⟨R.MAR_INJ_CTL, 6, 1⟩
def MAR_INJ_SITE_site : Fld := ⟨R.MAR_INJ_SITE, 0, 16⟩
def MAR_INJ_SITE_heat : Fld := ⟨R.MAR_INJ_SITE, 16, 5⟩
def MAR_INJ_LAP_lap_lo : Fld := ⟨R.MAR_INJ_LAP, 0, 32⟩
def MAR_INJ_POS_lap_hi : Fld := ⟨R.MAR_INJ_POS, 0, 16⟩
def MAR_INJ_POS_stride : Fld := ⟨R.MAR_INJ_POS, 16, 11⟩
def MAR_H_WIN_LO_lap_lo (h : Nat) : Fld := ⟨R.MAR_H_WIN_LO h, 0, 32⟩
def MAR_H_WIN_HI_lap_hi (h : Nat) : Fld := ⟨R.MAR_H_WIN_HI h, 0, 16⟩
def MAR_H_WIN_HI_valid (h : Nat) : Fld := ⟨R.MAR_H_WIN_HI h, 31, 1⟩
def MAR_H_FAIL_LO_lap_lo (h : Nat) : Fld := ⟨R.MAR_H_FAIL_LO h, 0, 32⟩
def MAR_H_FAIL_HI_lap_hi (h : Nat) : Fld := ⟨R.MAR_H_FAIL_HI h, 0, 16⟩
def MAR_H_FAIL_HI_red (h : Nat) : Fld := ⟨R.MAR_H_FAIL_HI h, 16, 1⟩
def MAR_H_FAIL_HI_taint (h : Nat) : Fld := ⟨R.MAR_H_FAIL_HI h, 17, 1⟩
def MAR_H_FAIL_HI_valid (h : Nat) : Fld := ⟨R.MAR_H_FAIL_HI h, 31, 1⟩
def MAR_H_CNT_red (h : Nat) : Fld := ⟨R.MAR_H_CNT h, 0, 16⟩
def MAR_H_CNT_yellow (h : Nat) : Fld := ⟨R.MAR_H_CNT h, 16, 16⟩
def HEAT_H_REL_CFG_qsize (h : Nat) : Fld := ⟨R.HEAT_H_REL_CFG h, 0, 4⟩
def HEAT_H_REL_CFG_rsize (h : Nat) : Fld := ⟨R.HEAT_H_REL_CFG h, 4, 4⟩
def HEAT_H_REL_CFG_rank (h : Nat) : Fld := ⟨R.HEAT_H_REL_CFG h, 8, 11⟩
def HEAT_H_REL_QBASE_LO_base_lo (h : Nat) : Fld := ⟨R.HEAT_H_REL_QBASE_LO h, 12, 20⟩
def HEAT_H_REL_QBASE_HI_base_hi (h : Nat) : Fld := ⟨R.HEAT_H_REL_QBASE_HI h, 0, 16⟩
def HEAT_H_REL_HBASE_LO_base_lo (h : Nat) : Fld := ⟨R.HEAT_H_REL_HBASE_LO h, 12, 20⟩
def HEAT_H_REL_HBASE_HI_base_hi (h : Nat) : Fld := ⟨R.HEAT_H_REL_HBASE_HI h, 0, 32⟩
def HEAT_H_REL_HSIZE_pages (h : Nat) : Fld := ⟨R.HEAT_H_REL_HSIZE h, 0, 24⟩
def HEAT_H_REL_PROD_prod (h : Nat) : Fld := ⟨R.HEAT_H_REL_PROD h, 0, 17⟩
def HEAT_H_REL_REL_rel (h : Nat) : Fld := ⟨R.HEAT_H_REL_REL h, 0, 17⟩
def HEAT_H_REL_DONE_done (h : Nat) : Fld := ⟨R.HEAT_H_REL_DONE h, 0, 17⟩
def HEAT_H_REL_HCONS_hcons (h : Nat) : Fld := ⟨R.HEAT_H_REL_HCONS h, 0, 17⟩
def HEAT_H_REL_STATUS_state (h : Nat) : Fld := ⟨R.HEAT_H_REL_STATUS h, 0, 2⟩
def HEAT_H_REL_STATUS_hring_full (h : Nat) : Fld := ⟨R.HEAT_H_REL_STATUS h, 2, 1⟩
def HEAT_H_REL_STATUS_slow (h : Nat) : Fld := ⟨R.HEAT_H_REL_STATUS h, 3, 1⟩
def HEAT_H_REL_CNT_REL_count (h : Nat) : Fld := ⟨R.HEAT_H_REL_CNT_REL h, 0, 32⟩
def HEAT_H_REL_CNT_DISC_count (h : Nat) : Fld := ⟨R.HEAT_H_REL_CNT_DISC h, 0, 32⟩
def HEAT_H_REL_CNT_REF_count (h : Nat) : Fld := ⟨R.HEAT_H_REL_CNT_REF h, 0, 32⟩
def STA_BOOT_step : Fld := ⟨R.STA_BOOT, 0, 5⟩
def STA_BOOT_state : Fld := ⟨R.STA_BOOT, 5, 3⟩
def STA_BOOT_alt : Fld := ⟨R.STA_BOOT, 8, 2⟩
def STA_BOOT_last : Fld := ⟨R.STA_BOOT, 10, 4⟩
def STA_BOOT_cfg_rel : Fld := ⟨R.STA_BOOT, 14, 1⟩
def STA_BOOT_reduced : Fld := ⟨R.STA_BOOT, 15, 1⟩
def STA_BOOT_console : Fld := ⟨R.STA_BOOT, 16, 1⟩
def STA_BOOT_degraded : Fld := ⟨R.STA_BOOT, 17, 1⟩
def STA_BOOT_fault_n : Fld := ⟨R.STA_BOOT, 18, 1⟩
def STA_BOOT_link : Fld := ⟨R.STA_BOOT, 19, 1⟩
def STA_BOOT_boot : Fld := ⟨R.STA_BOOT, 20, 12⟩
def STA_EVT_step : Fld := ⟨R.STA_EVT, 0, 1⟩
def STA_EVT_ready : Fld := ⟨R.STA_EVT, 1, 1⟩
def STA_EVT_hold : Fld := ⟨R.STA_EVT, 2, 1⟩
def STA_EVT_cfg : Fld := ⟨R.STA_EVT, 3, 1⟩
def STA_EVT_full : Fld := ⟨R.STA_EVT, 4, 1⟩
def STA_EVT_restart : Fld := ⟨R.STA_EVT, 5, 1⟩
def STA_EVT_rxdrop : Fld := ⟨R.STA_EVT, 6, 1⟩
def STA_CTL_hold_req : Fld := ⟨R.STA_CTL, 0, 1⟩
def STA_CTL_release : Fld := ⟨R.STA_CTL, 1, 1⟩
def STA_BOOTCNT_boot : Fld := ⟨R.STA_BOOTCNT, 0, 32⟩
def STA_T0_LO_t0 : Fld := ⟨R.STA_T0_LO, 0, 32⟩
def STA_T0_HI_t0 : Fld := ⟨R.STA_T0_HI, 0, 16⟩
def STA_T0_HI_epoch : Fld := ⟨R.STA_T0_HI, 16, 16⟩
def STA_TREADY_ready : Fld := ⟨R.STA_TREADY, 0, 16⟩
def STA_TREADY_cfg : Fld := ⟨R.STA_TREADY, 16, 16⟩
def STA_SLOT_starter : Fld := ⟨R.STA_SLOT, 0, 1⟩
def STA_SLOT_pending : Fld := ⟨R.STA_SLOT, 1, 1⟩
def STA_SLOT_recovery : Fld := ⟨R.STA_SLOT, 2, 1⟩
def STA_SLOT_marshal : Fld := ⟨R.STA_SLOT, 3, 1⟩
def STA_SLOT_version : Fld := ⟨R.STA_SLOT, 16, 16⟩
def STA_DEGR_cores_oos : Fld := ⟨R.STA_DEGR, 0, 1⟩
def STA_DEGR_slices_oos : Fld := ⟨R.STA_DEGR, 1, 1⟩
def STA_DEGR_ctrl_oos : Fld := ⟨R.STA_DEGR, 2, 1⟩
def STA_DEGR_ports_oos : Fld := ⟨R.STA_DEGR, 3, 1⟩
def STA_DEGR_no_host : Fld := ⟨R.STA_DEGR, 4, 1⟩
def STA_DEGR_free_run : Fld := ⟨R.STA_DEGR, 5, 1⟩
def STA_DEGR_journal_new : Fld := ⟨R.STA_DEGR, 6, 1⟩
def STA_DEGR_journal_ro : Fld := ⟨R.STA_DEGR, 7, 1⟩
def STA_DEGR_no_settings : Fld := ⟨R.STA_DEGR, 8, 1⟩
def STA_JHEAD_head : Fld := ⟨R.STA_JHEAD, 0, 8⟩
def STA_JHEAD_newest : Fld := ⟨R.STA_JHEAD, 8, 8⟩
def STA_JHEAD_seq : Fld := ⟨R.STA_JHEAD, 16, 16⟩
def STA_JSEL_slot : Fld := ⟨R.STA_JSEL, 0, 8⟩
def STA_CNT_RXDROP_count : Fld := ⟨R.STA_CNT_RXDROP, 0, 32⟩
def STA_STEP_outcome (n : Nat) : Fld := ⟨R.STA_STEP n, 0, 4⟩
def STA_STEP_alt (n : Nat) : Fld := ⟨R.STA_STEP n, 4, 2⟩
def STA_STEP_units (n : Nat) : Fld := ⟨R.STA_STEP n, 8, 8⟩
def STA_STEP_ms (n : Nat) : Fld := ⟨R.STA_STEP n, 16, 16⟩
def STA_JW_word (w : Nat) : Fld := ⟨R.STA_JW w, 0, 32⟩
def STA_OOSC_oos (n : Nat) : Fld := ⟨R.STA_OOSC n, 0, 32⟩
def STA_OOSS_oos (n : Nat) : Fld := ⟨R.STA_OOSS n, 0, 32⟩
def STA_OOSX_ctrl : Fld := ⟨R.STA_OOSX, 0, 8⟩
def STA_OOSX_ports : Fld := ⟨R.STA_OOSX, 8, 12⟩
def MGT_STATUS_trunc : Fld := ⟨R.MGT_STATUS, 0, 1⟩
def MGT_STATUS_crc_err : Fld := ⟨R.MGT_STATUS, 1, 1⟩
def MGT_STATUS_refused : Fld := ⟨R.MGT_STATUS, 2, 1⟩
def MGT_STATUS_early : Fld := ⟨R.MGT_STATUS, 3, 1⟩
def MGT_STATUS_qfull : Fld := ⟨R.MGT_STATUS, 4, 1⟩
def MGT_STATUS_indirect : Fld := ⟨R.MGT_STATUS, 5, 1⟩
def MGT_STATUS_fbusy : Fld := ⟨R.MGT_STATUS, 6, 1⟩
def MGT_STATUS_badcmd : Fld := ⟨R.MGT_STATUS, 7, 1⟩
def MGT_STATUS_overrun : Fld := ⟨R.MGT_STATUS, 8, 8⟩
def MGT_STATE_main : Fld := ⟨R.MGT_STATE, 0, 1⟩
def MGT_STATE_cfg : Fld := ⟨R.MGT_STATE, 1, 1⟩
def MGT_STATE_lock : Fld := ⟨R.MGT_STATE, 2, 1⟩
def MGT_STATE_alert : Fld := ⟨R.MGT_STATE, 3, 1⟩
def MGT_STATE_qfree : Fld := ⟨R.MGT_STATE, 4, 7⟩
def MGT_CFG_alert_en : Fld := ⟨R.MGT_CFG, 3, 3⟩
def MGT_ALERT_source : Fld := ⟨R.MGT_ALERT, 0, 6⟩
def MGT_FETCH_addr : Fld := ⟨R.MGT_FETCH, 0, 24⟩
def MGT_FETCH_n_m1 : Fld := ⟨R.MGT_FETCH, 24, 5⟩
def MGT_FETCH_done : Fld := ⟨R.MGT_FETCH, 29, 1⟩
def MGT_FETCH_err : Fld := ⟨R.MGT_FETCH, 30, 1⟩
def MGT_FETCH_busy : Fld := ⟨R.MGT_FETCH, 31, 1⟩
def MGT_VIN_mv : Fld := ⟨R.MGT_VIN, 0, 16⟩
def MGT_IIN_ma : Fld := ⟨R.MGT_IIN, 0, 16⟩
def MGT_CNT_TRANS_count : Fld := ⟨R.MGT_CNT_TRANS, 0, 32⟩
def MGT_CNT_REFUSED_count : Fld := ⟨R.MGT_CNT_REFUSED, 0, 32⟩
def MGT_LSEL_index : Fld := ⟨R.MGT_LSEL, 0, 10⟩
def MGT_JSEL_slot : Fld := ⟨R.MGT_JSEL, 0, 8⟩
def MGT_FBUF_word (w : Nat) : Fld := ⟨R.MGT_FBUF w, 0, 32⟩
def MGT_LOGW_word (w : Nat) : Fld := ⟨R.MGT_LOGW w, 0, 32⟩
def MGT_JW_word (w : Nat) : Fld := ⟨R.MGT_JW w, 0, 32⟩
end F

/-- The registers of the LAP_ block. -/
def regSpecsLAP : List RegSpec :=
  [
    ⟨"LAP_CFG", 0x0, [], .rwl, 0x61, [⟨"role", 0, 2, [(3, 3)]⟩, ⟨"pri", 2, 4, []⟩, ⟨"ref_en", 6, 1, []⟩]⟩,
    ⟨"LAP_CTL", 0x4, [], .rw, 0x1, [⟨"out_en", 0, 1, []⟩, ⟨"out_div", 1, 4, [(13, 15)]⟩]⟩,
    ⟨"LAP_STATUS", 0x8, [], .ro, 0xF0, [⟨"state", 0, 3, []⟩, ⟨"parent", 4, 4, []⟩, ⟨"hops", 8, 5, []⟩, ⟨"ref_ok", 13, 1, []⟩, ⟨"ref_used", 14, 1, []⟩, ⟨"ho_pending", 15, 1, []⟩, ⟨"holdover", 16, 7, []⟩, ⟨"slewing", 23, 1, []⟩]⟩,
    ⟨"LAP_EVT", 0xC, [], .w1c, 0x0, [⟨"lock", 0, 1, []⟩, ⟨"lost", 1, 1, []⟩, ⟨"expired", 2, 1, []⟩, ⟨"relocked", 3, 1, []⟩, ⟨"ref_lost", 4, 1, []⟩, ⟨"ref_back", 5, 1, []⟩, ⟨"handover", 6, 1, []⟩, ⟨"conflict", 7, 1, []⟩, ⟨"change", 8, 1, []⟩, ⟨"mismatch", 9, 1, []⟩]⟩,
    ⟨"LAP_NOW_LO", 0x10, [], .ro, 0x0, [⟨"lap_lo", 0, 32, []⟩]⟩,
    ⟨"LAP_NOW_HI", 0x14, [], .ro, 0x0, [⟨"lap_hi", 0, 16, []⟩]⟩,
    ⟨"LAP_POS", 0x18, [], .ro, 0x0, [⟨"fc", 0, 7, []⟩, ⟨"stride", 7, 11, []⟩]⟩,
    ⟨"LAP_PACER", 0x1C, [], .ro, 0x0, [⟨"addr", 0, 10, []⟩, ⟨"pri", 10, 4, []⟩, ⟨"ref", 14, 1, []⟩, ⟨"forced", 15, 1, []⟩]⟩,
    ⟨"LAP_PHASE", 0x20, [], .ro, 0x0, [⟨"err", 0, 16, []⟩]⟩,
    ⟨"LAP_PHASE_PEAK", 0x24, [], .rw, 0x0, [⟨"peak", 0, 16, []⟩]⟩,
    ⟨"LAP_HO_LO", 0x28, [], .ro, 0x0, [⟨"lap_lo", 0, 32, []⟩]⟩,
    ⟨"LAP_HO_HI", 0x2C, [], .ro, 0x0, [⟨"lap_hi", 0, 16, []⟩, ⟨"addr", 16, 10, []⟩, ⟨"valid", 31, 1, []⟩]⟩] ++
  [
    ⟨"LAP_DELAY", 0x30, [⟨4, 0, 12⟩], .ro, 0x0, [⟨"delay", 0, 20, []⟩, ⟨"valid", 31, 1, []⟩]⟩,
    ⟨"LAP_CNT_RX", 0x60, [], .rw, 0x0, [⟨"count", 0, 32, []⟩]⟩,
    ⟨"LAP_CNT_BAD", 0x64, [], .rw, 0x0, [⟨"count", 0, 32, []⟩]⟩,
    ⟨"LAP_CNT_LOST", 0x68, [], .rw, 0x0, [⟨"count", 0, 32, []⟩]⟩,
    ⟨"LAP_CNT_FALSE", 0x6C, [], .rw, 0x0, [⟨"count", 0, 32, []⟩]⟩,
    ⟨"LAP_CNT_CONFLICT", 0x70, [], .rw, 0x0, [⟨"count", 0, 32, []⟩]⟩]

/-- The registers of the HAL_ block. -/
def regSpecsHAL : List RegSpec :=
  [
    ⟨"HAL_STATUS", 0x10000, [], .ro, 0x0, [⟨"ready", 0, 1, []⟩, ⟨"sys_up", 1, 1, []⟩, ⟨"hub_ok", 2, 4, []⟩]⟩,
    ⟨"HAL_EVT", 0x10004, [], .w1c, 0x0, [⟨"timeout", 0, 1, []⟩, ⟨"member_lost", 1, 1, []⟩, ⟨"mismatch", 2, 1, []⟩, ⟨"checked", 3, 1, []⟩, ⟨"flush", 4, 1, []⟩, ⟨"rank_reset", 5, 1, []⟩, ⟨"pacer_lost", 6, 1, []⟩, ⟨"taint", 7, 1, []⟩, ⟨"desc_err", 8, 1, []⟩]⟩,
    ⟨"HAL_CNT_CHECKED", 0x10008, [], .rw, 0x0, [⟨"count", 0, 32, []⟩]⟩,
    ⟨"HAL_CNT_MISMATCH", 0x1000C, [], .rw, 0x0, [⟨"count", 0, 32, []⟩]⟩,
    ⟨"HAL_CNT_TIMEOUT", 0x10010, [], .rw, 0x0, [⟨"count", 0, 32, []⟩]⟩,
    ⟨"HAL_CNT_TAINT", 0x10014, [], .rw, 0x0, [⟨"count", 0, 32, []⟩]⟩,
    ⟨"HAL_TAINT_LO", 0x10018, [], .ro, 0x0, [⟨"lap_lo", 0, 32, []⟩]⟩,
    ⟨"HAL_TAINT_HI", 0x1001C, [], .ro, 0x0, [⟨"lap_hi", 0, 16, []⟩, ⟨"heat", 16, 5, []⟩, ⟨"valid", 31, 1, []⟩]⟩,
    ⟨"HAL_H_CFG", 0x10100, [⟨64, 0, 32⟩], .ws, 0x0, [⟨"smxc_k", 0, 4, []⟩, ⟨"prov_en", 4, 1, []⟩, ⟨"team", 5, 1, []⟩]⟩,
    ⟨"HAL_H_RANKS", 0x10104, [⟨64, 0, 32⟩], .ws, 0x0, [⟨"count_m1", 0, 11, []⟩]⟩,
    ⟨"HAL_H_BASE", 0x10108, [⟨64, 0, 32⟩], .ws, 0x0, [⟨"base", 0, 21, []⟩]⟩,
    ⟨"HAL_H_TREE", 0x1010C, [⟨64, 0, 32⟩], .ws, 0xF, [⟨"parent_port", 0, 4, [(12, 14)]⟩, ⟨"children", 4, 12, []⟩, ⟨"depth", 16, 5, [(17, 31)]⟩]⟩] ++
  [
    ⟨"HAL_H_STATUS", 0x10110, [⟨64, 0, 32⟩], .ro, 0x0, [⟨"state", 0, 2, []⟩, ⟨"in_flight", 2, 3, []⟩, ⟨"last", 5, 4, []⟩, ⟨"mq", 9, 2, []⟩, ⟨"c", 11, 2, []⟩]⟩,
    ⟨"HAL_H_LAT", 0x10114, [⟨64, 0, 32⟩], .ro, 0x0, [⟨"lat", 0, 9, []⟩, ⟨"d", 16, 8, []⟩]⟩,
    ⟨"HAL_H_CNT_HOIST", 0x10118, [⟨64, 0, 32⟩], .rw, 0x0, [⟨"count", 0, 32, []⟩]⟩,
    ⟨"HAL_H_CNT_FAIL", 0x1011C, [⟨64, 0, 32⟩], .rw, 0x0, [⟨"count", 0, 32, []⟩]⟩,
    ⟨"HAL_H_CNT_PROV", 0x10120, [⟨64, 0, 32⟩], .rw, 0x0, [⟨"count", 0, 32, []⟩]⟩,
    ⟨"HAL_H_CNT_NOMATCH", 0x10124, [⟨64, 0, 32⟩], .rw, 0x0, [⟨"count", 0, 32, []⟩]⟩,
    ⟨"HAL_RANK", 0x11000, [⟨4, 0, 2048⟩], .ws, 0x0, [⟨"rank", 0, 11, []⟩, ⟨"valid", 31, 1, []⟩]⟩,
    ⟨"HAL_LBUF", 0x14000, [⟨256, 0, 32⟩, ⟨4, 0, 64⟩], .rw, 0x0, [⟨"data", 0, 32, []⟩]⟩]

/-- The registers of the MSH_ block. -/
def regSpecsMSH : List RegSpec :=
  [
    ⟨"MSH_STATUS", 0x1000, [], .ro, 0x0, [⟨"eq_done", 0, 1, []⟩, ⟨"eq_fail", 1, 1, []⟩, ⟨"bad_router", 2, 11, []⟩, ⟨"bad_output", 13, 4, []⟩, ⟨"bad_slot", 17, 7, []⟩, ⟨"bad_cause", 24, 3, []⟩]⟩,
    ⟨"MSH_EVT", 0x1004, [], .w1c, 0x0, [⟨"void", 0, 1, []⟩, ⟨"orphan", 1, 1, []⟩, ⟨"corrected", 2, 1, []⟩, ⟨"uncorrectable", 3, 1, []⟩, ⟨"wacc_ovf", 4, 1, []⟩, ⟨"wacc_nan", 5, 1, []⟩, ⟨"stop", 6, 1, []⟩]⟩,
    ⟨"MSH_EQ_STATUS", 0x1008, [], .ro, 0x0, [⟨"done", 0, 13, []⟩, ⟨"failed", 13, 13, []⟩]⟩,
    ⟨"MSH_EQ_WORST", 0x100C, [], .ro, 0x0, [⟨"margin", 0, 16, []⟩]⟩,
    ⟨"MSH_SLT_SEL", 0x1010, [], .rw, 0x0, [⟨"router", 0, 11, []⟩, ⟨"output", 11, 4, [(13, 15)]⟩, ⟨"slot", 15, 7, []⟩, ⟨"view", 31, 1, []⟩]⟩,
    ⟨"MSH_SLT_DATA", 0x1014, [], .ws, 0xF, [⟨"entry", 0, 4, []⟩]⟩,
    ⟨"MSH_DIST_SEL", 0x1018, [], .rw, 0x0, [⟨"src", 0, 11, []⟩, ⟨"kind", 11, 3, [(6, 7)]⟩, ⟨"dst", 14, 11, []⟩]⟩,
    ⟨"MSH_DIST_VAL", 0x101C, [], .ro, 0x0, [⟨"lat", 0, 10, []⟩, ⟨"hops", 10, 7, []⟩, ⟨"reg", 17, 5, []⟩, ⟨"d2d", 22, 2, []⟩]⟩,
    ⟨"MSH_LATE_SEL", 0x1020, [], .rw, 0x0, [⟨"cons", 0, 9, [(279, 511)]⟩]⟩,
    ⟨"MSH_LATE_VAL", 0x1024, [], .ro, 0x0, [⟨"count", 0, 32, []⟩]⟩,
    ⟨"MSH_CNT_VOID", 0x1028, [], .rw, 0x0, [⟨"count", 0, 32, []⟩]⟩,
    ⟨"MSH_CNT_ORPHAN", 0x102C, [], .rw, 0x0, [⟨"count", 0, 32, []⟩]⟩] ++
  [
    ⟨"MSH_CNT_CORR", 0x1030, [], .rw, 0x0, [⟨"count", 0, 32, []⟩]⟩,
    ⟨"MSH_CNT_WACC_OVF", 0x1034, [], .rw, 0x0, [⟨"count", 0, 32, []⟩]⟩,
    ⟨"MSH_CNT_WACC_NAN", 0x1038, [], .rw, 0x0, [⟨"count", 0, 32, []⟩]⟩,
    ⟨"MSH_CNT_STOP", 0x103C, [], .rw, 0x0, [⟨"count", 0, 32, []⟩]⟩,
    ⟨"MSH_CTRL_PEAK", 0x1040, [], .rw, 0x0, [⟨"peak", 0, 16, []⟩]⟩,
    ⟨"MSH_H_CFG", 0x1100, [⟨16, 0, 32⟩], .ws, 0x50, [⟨"floor", 0, 8, [(0, 79), (181, 255)]⟩, ⟨"uniform", 8, 1, []⟩]⟩,
    ⟨"MSH_H_VOID", 0x1104, [⟨16, 0, 32⟩], .rw, 0x0, [⟨"count", 0, 32, []⟩]⟩,
    ⟨"MSH_H_OPEN", 0x1108, [⟨16, 0, 32⟩], .ro, 0x0, [⟨"min_open", 0, 8, []⟩, ⟨"max_gap", 8, 8, []⟩]⟩]

/-- The registers of the HEAT_ block. -/
def regSpecsHEAT : List RegSpec :=
  [
    ⟨"HEAT_RUN", 0x20000, [], .ro, 0x0, [⟨"running", 0, 32, []⟩]⟩,
    ⟨"HEAT_EXIST", 0x20004, [], .ro, 0x0, [⟨"exists", 0, 32, []⟩]⟩,
    ⟨"HEAT_EVT", 0x20008, [], .w1c, 0x0, [⟨"committed", 0, 1, []⟩, ⟨"started", 1, 1, []⟩, ⟨"stopped", 2, 1, []⟩, ⟨"halted", 3, 1, []⟩, ⟨"reset", 4, 1, []⟩, ⟨"discard", 5, 1, []⟩, ⟨"commit_fail", 6, 1, []⟩]⟩,
    ⟨"HEAT_OWN", 0x20040, [⟨4, 0, 16⟩], .ro, 0x0, [⟨"heat0", 0, 5, []⟩, ⟨"heat1", 8, 5, []⟩, ⟨"heat2", 16, 5, []⟩, ⟨"heat3", 24, 5, []⟩, ⟨"owned0", 7, 1, []⟩, ⟨"owned1", 15, 1, []⟩, ⟨"owned2", 23, 1, []⟩, ⟨"owned3", 31, 1, []⟩]⟩,
    ⟨"HEAT_FENCE", 0x20100, [⟨4, 0, 64⟩], .ro, 0x0, [⟨"fenced", 0, 32, []⟩]⟩,
    ⟨"HEAT_H_GEOM", 0x20200, [⟨64, 0, 32⟩], .rwl, 0x0, [⟨"bc0", 0, 3, []⟩, ⟨"br0", 4, 3, []⟩, ⟨"w", 8, 4, [(9, 15)]⟩, ⟨"h", 12, 4, [(9, 15)]⟩]⟩,
    ⟨"HEAT_H_AGEOM", 0x20204, [⟨64, 0, 32⟩], .ro, 0x0, [⟨"bc0", 0, 3, []⟩, ⟨"br0", 4, 3, []⟩, ⟨"w", 8, 4, []⟩, ⟨"h", 12, 4, []⟩]⟩,
    ⟨"HEAT_H_CFG", 0x20208, [⟨64, 0, 32⟩], .ws, 0x0, [⟨"rel_en", 0, 1, []⟩, ⟨"scrub", 1, 1, []⟩]⟩,
    ⟨"HEAT_H_STATE", 0x2020C, [⟨64, 0, 32⟩], .ro, 0x0, [⟨"state", 0, 3, []⟩, ⟨"resumable", 3, 1, []⟩, ⟨"cause", 4, 4, []⟩, ⟨"recall", 8, 1, []⟩, ⟨"scrubbing", 9, 1, []⟩]⟩,
    ⟨"HEAT_H_START_LO", 0x20210, [⟨64, 0, 32⟩], .ro, 0x0, [⟨"lap_lo", 0, 32, []⟩]⟩,
    ⟨"HEAT_H_START_HI", 0x20214, [⟨64, 0, 32⟩], .ro, 0x0, [⟨"lap_hi", 0, 16, []⟩]⟩,
    ⟨"HEAT_H_STOP_LO", 0x20218, [⟨64, 0, 32⟩], .ro, 0x0, [⟨"lap_lo", 0, 32, []⟩]⟩] ++
  [
    ⟨"HEAT_H_STOP_HI", 0x2021C, [⟨64, 0, 32⟩], .ro, 0x0, [⟨"lap_hi", 0, 16, []⟩]⟩,
    ⟨"HEAT_H_ATT", 0x20220, [⟨64, 0, 32⟩], .ro, 0x0, [⟨"baton", 0, 12, []⟩, ⟨"host", 12, 2, []⟩, ⟨"reserve", 14, 8, []⟩, ⟨"starter", 22, 1, []⟩]⟩,
    ⟨"HEAT_H_GOOD", 0x20224, [⟨64, 0, 32⟩], .ro, 0x0, [⟨"good", 0, 12, []⟩, ⟨"ranks", 12, 12, []⟩]⟩,
    ⟨"HEAT_H_DISCARD", 0x20228, [⟨64, 0, 32⟩], .rw, 0x0, [⟨"flit", 0, 16, []⟩, ⟨"addr", 16, 16, []⟩]⟩,
    ⟨"HEAT_H_CNT_START", 0x2022C, [⟨64, 0, 32⟩], .rw, 0x0, [⟨"count", 0, 32, []⟩]⟩,
    ⟨"HEAT_H_REL_CFG", 0x21000, [⟨64, 0, 32⟩], .ws, 0x0, [⟨"qsize", 0, 4, [(9, 15)]⟩, ⟨"rsize", 4, 4, [(9, 15)]⟩, ⟨"rank", 8, 11, []⟩]⟩,
    ⟨"HEAT_H_REL_QBASE_LO", 0x21004, [⟨64, 0, 32⟩], .ws, 0x0, [⟨"base_lo", 12, 20, []⟩]⟩,
    ⟨"HEAT_H_REL_QBASE_HI", 0x21008, [⟨64, 0, 32⟩], .ws, 0x0, [⟨"base_hi", 0, 16, []⟩]⟩,
    ⟨"HEAT_H_REL_HBASE_LO", 0x2100C, [⟨64, 0, 32⟩], .ws, 0x0, [⟨"base_lo", 12, 20, []⟩]⟩,
    ⟨"HEAT_H_REL_HBASE_HI", 0x21010, [⟨64, 0, 32⟩], .ws, 0x0, [⟨"base_hi", 0, 32, []⟩]⟩,
    ⟨"HEAT_H_REL_HSIZE", 0x21014, [⟨64, 0, 32⟩], .ws, 0x0, [⟨"pages", 0, 24, []⟩]⟩,
    ⟨"HEAT_H_REL_PROD", 0x21018, [⟨64, 0, 32⟩], .ro, 0x0, [⟨"prod", 0, 17, []⟩]⟩] ++
  [
    ⟨"HEAT_H_REL_REL", 0x2101C, [⟨64, 0, 32⟩], .ro, 0x0, [⟨"rel", 0, 17, []⟩]⟩,
    ⟨"HEAT_H_REL_DONE", 0x21020, [⟨64, 0, 32⟩], .ro, 0x0, [⟨"done", 0, 17, []⟩]⟩,
    ⟨"HEAT_H_REL_HCONS", 0x21024, [⟨64, 0, 32⟩], .rw, 0x0, [⟨"hcons", 0, 17, []⟩]⟩,
    ⟨"HEAT_H_REL_STATUS", 0x21028, [⟨64, 0, 32⟩], .ro, 0x0, [⟨"state", 0, 2, []⟩, ⟨"hring_full", 2, 1, []⟩, ⟨"slow", 3, 1, []⟩]⟩,
    ⟨"HEAT_H_REL_CNT_REL", 0x2102C, [⟨64, 0, 32⟩], .rw, 0x0, [⟨"count", 0, 32, []⟩]⟩,
    ⟨"HEAT_H_REL_CNT_DISC", 0x21030, [⟨64, 0, 32⟩], .rw, 0x0, [⟨"count", 0, 32, []⟩]⟩,
    ⟨"HEAT_H_REL_CNT_REF", 0x21034, [⟨64, 0, 32⟩], .rw, 0x0, [⟨"count", 0, 32, []⟩]⟩]

/-- The registers of the CORE_ block. -/
def regSpecsCORE : List RegSpec :=
  [
    ⟨"CORE_CTL", 0x100000, [⟨64, 0, 2048⟩], .rw, 0x0, [⟨"reset", 0, 1, []⟩]⟩,
    ⟨"CORE_STATE", 0x100004, [⟨64, 0, 2048⟩], .ro, 0x0, [⟨"state", 0, 3, []⟩, ⟨"recall", 3, 1, []⟩, ⟨"prov_open", 4, 4, []⟩, ⟨"prov_any", 8, 1, []⟩, ⟨"replayed", 9, 1, []⟩, ⟨"step", 16, 9, []⟩]⟩,
    ⟨"CORE_PC", 0x100008, [⟨64, 0, 2048⟩], .ro, 0x0, [⟨"pc", 0, 16, []⟩]⟩,
    ⟨"CORE_EXC", 0x10000C, [⟨64, 0, 2048⟩], .ro, 0x0, [⟨"cause", 0, 4, []⟩, ⟨"valid", 4, 1, []⟩, ⟨"pc", 16, 16, []⟩]⟩,
    ⟨"CORE_ENTRY", 0x100010, [⟨64, 0, 2048⟩], .ws, 0x0, [⟨"entry", 2, 14, []⟩, ⟨"size", 16, 15, []⟩]⟩,
    ⟨"CORE_QUAR", 0x100014, [⟨64, 0, 2048⟩], .ws, 0x0, [⟨"base", 0, 14, []⟩, ⟨"lines", 16, 14, []⟩]⟩,
    ⟨"CORE_SMAP_SEL", 0x100018, [⟨64, 0, 2048⟩], .rw, 0x0, [⟨"slot", 0, 7, []⟩, ⟨"dir", 7, 1, []⟩, ⟨"view", 31, 1, []⟩]⟩,
    ⟨"CORE_SMAP_DATA", 0x10001C, [⟨64, 0, 2048⟩], .ws, 0x0, [⟨"stream", 0, 4, []⟩, ⟨"valid", 4, 1, []⟩, ⟨"quiet", 5, 1, []⟩]⟩,
    ⟨"CORE_OPS", 0x100020, [⟨64, 0, 2048⟩], .ro, 0x0, [⟨"inflight", 0, 6, []⟩, ⟨"cq", 6, 6, []⟩, ⟨"hq", 12, 4, []⟩, ⟨"rq", 16, 7, []⟩]⟩,
    ⟨"CORE_LATE", 0x100024, [⟨64, 0, 2048⟩], .rw, 0x0, [⟨"count", 0, 32, []⟩]⟩,
    ⟨"CORE_CNT_RETIRE", 0x100028, [⟨64, 0, 2048⟩], .rw, 0x0, [⟨"count", 0, 32, []⟩]⟩,
    ⟨"CORE_CNT_STALL", 0x10002C, [⟨64, 0, 2048⟩], .rw, 0x0, [⟨"count", 0, 32, []⟩]⟩] ++
  [
    ⟨"CORE_CNT_REPLAY", 0x100030, [⟨64, 0, 2048⟩], .rw, 0x0, [⟨"count", 0, 32, []⟩]⟩,
    ⟨"CORE_CNT_PROVBLK", 0x100034, [⟨64, 0, 2048⟩], .rw, 0x0, [⟨"count", 0, 32, []⟩]⟩,
    ⟨"CORE_CNT_RDROP", 0x100038, [⟨64, 0, 2048⟩], .rw, 0x0, [⟨"count", 0, 32, []⟩]⟩,
    ⟨"CORE_CKPT", 0x10003C, [⟨64, 0, 2048⟩], .ro, 0x0, [⟨"addr", 0, 16, []⟩, ⟨"valid", 31, 1, []⟩]⟩]

/-- The registers of the NUM_ block. -/
def regSpecsNUM : List RegSpec :=
  [
    ⟨"NUM_CFG", 0x120000, [⟨64, 0, 2048⟩], .rw, 0xCF, [⟨"passes", 0, 2, [(0, 0)]⟩, ⟨"ftz32", 2, 1, []⟩, ⟨"sat8", 3, 1, []⟩, ⟨"iq", 4, 5, []⟩]⟩,
    ⟨"NUM_FLAGS", 0x120004, [⟨64, 0, 2048⟩], .w1c, 0x0, [⟨"flushed", 0, 1, []⟩, ⟨"saturated", 1, 1, []⟩, ⟨"nan_made", 2, 1, []⟩, ⟨"overflow", 3, 1, []⟩, ⟨"invalid", 4, 1, []⟩, ⟨"divzero", 5, 1, []⟩, ⟨"underflow", 6, 1, []⟩, ⟨"inexact", 7, 1, []⟩, ⟨"retried", 8, 1, []⟩]⟩,
    ⟨"NUM_SEED", 0x120008, [⟨64, 0, 2048⟩], .rw, 0x0, [⟨"seed", 0, 32, []⟩]⟩,
    ⟨"NUM_LAST", 0x12000C, [⟨64, 0, 2048⟩], .ro, 0x0, [⟨"sat", 0, 8, []⟩, ⟨"flush", 8, 8, []⟩, ⟨"nan", 16, 8, []⟩, ⟨"retry", 24, 3, []⟩]⟩,
    ⟨"NUM_CNT_SAT", 0x120010, [⟨64, 0, 2048⟩], .rw, 0x0, [⟨"count", 0, 32, []⟩]⟩,
    ⟨"NUM_CNT_FLUSH", 0x120014, [⟨64, 0, 2048⟩], .rw, 0x0, [⟨"count", 0, 32, []⟩]⟩,
    ⟨"NUM_CNT_NAN", 0x120018, [⟨64, 0, 2048⟩], .rw, 0x0, [⟨"count", 0, 32, []⟩]⟩,
    ⟨"NUM_CNT_RETRY", 0x12001C, [⟨64, 0, 2048⟩], .rw, 0x0, [⟨"count", 0, 32, []⟩]⟩,
    ⟨"NUM_PFLAGS", 0x120020, [⟨64, 0, 2048⟩], .ro, 0x0, [⟨"flushed", 0, 1, []⟩, ⟨"saturated", 1, 1, []⟩, ⟨"nan_made", 2, 1, []⟩, ⟨"overflow", 3, 1, []⟩, ⟨"invalid", 4, 1, []⟩, ⟨"divzero", 5, 1, []⟩, ⟨"underflow", 6, 1, []⟩, ⟨"inexact", 7, 1, []⟩, ⟨"retried", 8, 1, []⟩]⟩,
    ⟨"NUM_PCNT_SAT", 0x120024, [⟨64, 0, 2048⟩], .ro, 0x0, [⟨"count", 0, 32, []⟩]⟩,
    ⟨"NUM_PCNT_FLUSH", 0x120028, [⟨64, 0, 2048⟩], .ro, 0x0, [⟨"count", 0, 32, []⟩]⟩,
    ⟨"NUM_PCNT_NAN", 0x12002C, [⟨64, 0, 2048⟩], .ro, 0x0, [⟨"count", 0, 32, []⟩]⟩] ++
  [
    ⟨"NUM_PCNT_RETRY", 0x120030, [⟨64, 0, 2048⟩], .ro, 0x0, [⟨"count", 0, 32, []⟩]⟩]

/-- The registers of the DMA_ block. -/
def regSpecsDMA : List RegSpec :=
  [
    ⟨"DMA_STATUS", 0x40000, [], .ro, 0x0, [⟨"patrol", 0, 1, []⟩, ⟨"fw0", 1, 1, []⟩, ⟨"fw1", 2, 1, []⟩, ⟨"stage0", 3, 13, []⟩, ⟨"stage1", 16, 13, []⟩]⟩,
    ⟨"DMA_EVT", 0x40004, [], .w1c, 0x0, [⟨"ce_limit", 0, 1, []⟩, ⟨"ue", 1, 1, []⟩, ⟨"poison_in", 2, 1, []⟩, ⟨"far_err", 3, 1, []⟩, ⟨"hostdrop", 4, 1, []⟩, ⟨"pass", 5, 1, []⟩]⟩,
    ⟨"DMA_CFG", 0x40008, [], .rw, 0x403201, [⟨"patrol_en", 0, 1, []⟩, ⟨"stage_to", 8, 8, [(0, 0)]⟩, ⟨"ce_limit", 16, 16, []⟩]⟩,
    ⟨"DMA_FW0_BASE_LO", 0x40010, [], .rwl, 0x0, [⟨"base_lo", 3, 29, []⟩]⟩,
    ⟨"DMA_FW0_BASE_HI", 0x40014, [], .rwl, 0x0, [⟨"base_hi", 0, 16, []⟩]⟩,
    ⟨"DMA_FW0_SIZE", 0x40018, [], .rwl, 0x0, [⟨"pages", 0, 23, []⟩]⟩,
    ⟨"DMA_FW1_BASE_LO", 0x40020, [], .rwl, 0x0, [⟨"base_lo", 3, 29, []⟩]⟩,
    ⟨"DMA_FW1_BASE_HI", 0x40024, [], .rwl, 0x0, [⟨"base_hi", 0, 16, []⟩]⟩,
    ⟨"DMA_FW1_SIZE", 0x40028, [], .rwl, 0x0, [⟨"pages", 0, 23, []⟩]⟩,
    ⟨"DMA_BAR2_BASE0_LO", 0x40030, [], .rw, 0x0, [⟨"base_lo", 30, 2, []⟩]⟩,
    ⟨"DMA_BAR2_BASE0_HI", 0x40034, [], .rw, 0x0, [⟨"base_hi", 0, 16, []⟩]⟩,
    ⟨"DMA_BAR2_BASE1_LO", 0x40038, [], .rw, 0x0, [⟨"base_lo", 30, 2, []⟩]⟩] ++
  [
    ⟨"DMA_BAR2_BASE1_HI", 0x4003C, [], .rw, 0x0, [⟨"base_hi", 0, 16, []⟩]⟩,
    ⟨"DMA_MERR_LO", 0x40040, [], .ro, 0x0, [⟨"addr_lo", 0, 32, []⟩]⟩,
    ⟨"DMA_MERR_HI", 0x40044, [], .ro, 0x0, [⟨"addr_hi", 0, 16, []⟩, ⟨"class", 16, 4, []⟩, ⟨"heat", 20, 5, []⟩, ⟨"owned", 25, 1, []⟩]⟩,
    ⟨"DMA_CNT_CE_SP", 0x40050, [], .rw, 0x0, [⟨"count", 0, 32, []⟩]⟩,
    ⟨"DMA_CNT_CE_T1", 0x40054, [], .rw, 0x0, [⟨"count", 0, 32, []⟩]⟩,
    ⟨"DMA_CNT_CE_T2", 0x40058, [], .rw, 0x0, [⟨"count", 0, 32, []⟩]⟩,
    ⟨"DMA_CNT_UE", 0x4005C, [], .rw, 0x0, [⟨"count", 0, 32, []⟩]⟩,
    ⟨"DMA_CNT_FAR", 0x40060, [], .rw, 0x0, [⟨"count", 0, 32, []⟩]⟩,
    ⟨"DMA_CNT_HOSTDROP", 0x40064, [], .rw, 0x0, [⟨"count", 0, 32, []⟩]⟩,
    ⟨"DMA_CNT_PATROL", 0x40068, [], .rw, 0x0, [⟨"count", 0, 32, []⟩]⟩,
    ⟨"DMA_CNT_STAGE", 0x4006C, [], .rw, 0x0, [⟨"count", 0, 32, []⟩]⟩,
    ⟨"DMA_C_CFG", 0x41000, [⟨16, 0, 2048⟩], .ws, 0x0, [⟨"streams", 0, 16, []⟩]⟩] ++
  [
    ⟨"DMA_C_STATE", 0x41004, [⟨16, 0, 2048⟩], .ro, 0x0, [⟨"queued", 0, 4, []⟩, ⟨"busy", 4, 1, []⟩, ⟨"desc", 5, 16, []⟩]⟩,
    ⟨"DMA_C_CNT_UNITS", 0x41008, [⟨16, 0, 2048⟩], .rw, 0x0, [⟨"count", 0, 32, []⟩]⟩,
    ⟨"DMA_C_CNT_ERR", 0x4100C, [⟨16, 0, 2048⟩], .rw, 0x0, [⟨"count", 0, 32, []⟩]⟩,
    ⟨"DMA_RMAP_SEL", 0x4C000, [], .rw, 0x0, [⟨"target", 0, 9, [(266, 511)]⟩, ⟨"lane", 9, 2, []⟩, ⟨"slot", 11, 7, []⟩, ⟨"view", 31, 1, []⟩]⟩,
    ⟨"DMA_RMAP_DATA", 0x4C004, [], .ws, 0x0, [⟨"router", 0, 11, []⟩, ⟨"valid", 11, 1, []⟩]⟩]

/-- The registers of the KV_ block. -/
def regSpecsKV : List RegSpec :=
  [
    ⟨"KV_STATUS", 0x30000, [], .ro, 0x0, [⟨"ready", 0, 32, []⟩]⟩,
    ⟨"KV_EVT", 0x30004, [], .w1c, 0x0, [⟨"spill", 0, 1, []⟩, ⟨"full", 1, 1, []⟩, ⟨"replay", 2, 1, []⟩, ⟨"abandon", 3, 1, []⟩, ⟨"empty", 4, 1, []⟩]⟩,
    ⟨"KV_H_CFG", 0x30100, [⟨128, 0, 32⟩], .ws, 0x1, [⟨"dsel", 0, 2, [(3, 3)]⟩, ⟨"kvfmt", 2, 1, []⟩, ⟨"g_m1", 3, 4, []⟩, ⟨"l_m1", 7, 8, []⟩, ⟨"keep_m1", 15, 6, []⟩, ⟨"far_en", 21, 1, []⟩]⟩,
    ⟨"KV_H_PFT_LO", 0x30104, [⟨128, 0, 32⟩], .ws, 0x0, [⟨"pft", 0, 32, []⟩]⟩,
    ⟨"KV_H_PFT_HI", 0x30108, [⟨128, 0, 32⟩], .ws, 0x0, [⟨"pft", 0, 16, []⟩]⟩,
    ⟨"KV_H_NPAGE", 0x3010C, [⟨128, 0, 32⟩], .ws, 0x0, [⟨"pages", 0, 27, []⟩]⟩,
    ⟨"KV_H_DIG_LO", 0x30110, [⟨128, 0, 32⟩], .ws, 0x0, [⟨"dig", 0, 32, []⟩]⟩,
    ⟨"KV_H_DIG_HI", 0x30114, [⟨128, 0, 32⟩], .ws, 0x0, [⟨"dig", 0, 16, []⟩]⟩,
    ⟨"KV_H_T1_BASE", 0x30118, [⟨128, 0, 32⟩], .ws, 0x0, [⟨"base", 0, 32, []⟩]⟩,
    ⟨"KV_H_T1_N", 0x3011C, [⟨128, 0, 32⟩], .ws, 0x0, [⟨"frames", 0, 32, []⟩]⟩,
    ⟨"KV_H_T2_BASE", 0x30120, [⟨128, 0, 32⟩], .ws, 0x0, [⟨"base", 0, 32, []⟩]⟩,
    ⟨"KV_H_T2_N", 0x30124, [⟨128, 0, 32⟩], .ws, 0x0, [⟨"frames", 0, 32, []⟩]⟩] ++
  [
    ⟨"KV_H_T3_BASE", 0x30128, [⟨128, 0, 32⟩], .ws, 0x0, [⟨"base", 0, 32, []⟩]⟩,
    ⟨"KV_H_T3_N", 0x3012C, [⟨128, 0, 32⟩], .ws, 0x0, [⟨"frames", 0, 32, []⟩]⟩,
    ⟨"KV_H_WATER", 0x30130, [⟨128, 0, 32⟩], .ws, 0x0, [⟨"low1", 0, 8, []⟩, ⟨"high1", 8, 8, []⟩, ⟨"low2", 16, 8, []⟩, ⟨"high2", 24, 8, []⟩]⟩,
    ⟨"KV_H_COOL", 0x30134, [⟨128, 0, 32⟩], .ws, 0x100, [⟨"cool", 0, 16, []⟩, ⟨"promote", 16, 16, []⟩]⟩,
    ⟨"KV_H_KSTREAM", 0x30138, [⟨128, 0, 32⟩], .ws, 0x0, [⟨"streams", 0, 16, []⟩]⟩,
    ⟨"KV_H_STATUS", 0x3013C, [⟨128, 0, 32⟩], .ro, 0x0, [⟨"ready", 0, 1, []⟩, ⟨"layout_bad", 1, 1, []⟩, ⟨"spilling", 2, 1, []⟩, ⟨"full", 3, 1, []⟩]⟩,
    ⟨"KV_H_FREE1", 0x30140, [⟨128, 0, 32⟩], .ro, 0x0, [⟨"free", 0, 32, []⟩]⟩,
    ⟨"KV_H_FREE2", 0x30144, [⟨128, 0, 32⟩], .ro, 0x0, [⟨"free", 0, 32, []⟩]⟩,
    ⟨"KV_H_FREE3", 0x30148, [⟨128, 0, 32⟩], .ro, 0x0, [⟨"free", 0, 32, []⟩]⟩,
    ⟨"KV_H_CNT_ATTEND", 0x3014C, [⟨128, 0, 32⟩], .rw, 0x0, [⟨"count", 0, 32, []⟩]⟩,
    ⟨"KV_H_CNT_SPILL", 0x30150, [⟨128, 0, 32⟩], .rw, 0x0, [⟨"count", 0, 32, []⟩]⟩,
    ⟨"KV_H_CNT_REPLAY", 0x30154, [⟨128, 0, 32⟩], .rw, 0x0, [⟨"count", 0, 32, []⟩]⟩] ++
  [
    ⟨"KV_H_CNT_STALL", 0x30158, [⟨128, 0, 32⟩], .rw, 0x0, [⟨"count", 0, 32, []⟩]⟩,
    ⟨"KV_H_CNT_ABANDON", 0x3015C, [⟨128, 0, 32⟩], .rw, 0x0, [⟨"count", 0, 32, []⟩]⟩,
    ⟨"KV_H_CNT_EMPTY", 0x30160, [⟨128, 0, 32⟩], .rw, 0x0, [⟨"count", 0, 32, []⟩]⟩]

/-- The registers of the BTN_ block. -/
def regSpecsBTN : List RegSpec :=
  [
    ⟨"BTN_STATUS", 0x2000, [], .ro, 0x0, [⟨"up", 0, 12, []⟩, ⟨"topo_set", 12, 1, []⟩]⟩,
    ⟨"BTN_EVT", 0x2004, [], .w1c, 0x0, [⟨"down", 0, 1, []⟩, ⟨"up", 1, 1, []⟩, ⟨"miswired", 2, 1, []⟩, ⟨"long", 3, 1, []⟩, ⟨"retry_limit", 4, 1, []⟩, ⟨"lock_lost", 5, 1, []⟩, ⟨"nest", 6, 1, []⟩, ⟨"txovf", 7, 1, []⟩]⟩,
    ⟨"BTN_CFG", 0x2008, [], .rwl, 0x100500, [⟨"blat", 0, 11, [(0, 255), (1793, 2047)]⟩, ⟨"ue_down", 16, 8, []⟩]⟩,
    ⟨"BTN_TOPO", 0x200C, [], .rwl, 0x0, [⟨"x", 0, 4, []⟩, ⟨"y", 4, 3, []⟩, ⟨"z", 7, 3, []⟩, ⟨"xd_m1", 10, 4, []⟩, ⟨"yd_m1", 14, 3, []⟩, ⟨"zd_m1", 17, 3, []⟩]⟩,
    ⟨"BTN_P_CTL", 0x2100, [⟨64, 0, 12⟩], .rw, 0x5, [⟨"en", 0, 1, []⟩, ⟨"retrain", 1, 1, []⟩, ⟨"auto", 2, 1, []⟩]⟩,
    ⟨"BTN_P_STATUS", 0x2104, [⟨64, 0, 12⟩], .ro, 0x60, [⟨"state", 0, 3, []⟩, ⟨"cw_lock", 3, 1, []⟩, ⟨"fr_lock", 4, 1, []⟩, ⟨"peer_nr", 5, 1, []⟩, ⟨"local_nr", 6, 1, []⟩, ⟨"long", 7, 1, []⟩, ⟨"cause", 8, 4, []⟩, ⟨"train", 16, 12, []⟩]⟩,
    ⟨"BTN_P_PEER", 0x2108, [⟨64, 0, 12⟩], .ro, 0x0, [⟨"addr", 0, 10, []⟩, ⟨"port", 10, 4, []⟩, ⟨"valid", 14, 1, []⟩]⟩,
    ⟨"BTN_P_EQ", 0x210C, [⟨64, 0, 12⟩], .rwl, 0x5, [⟨"preset", 0, 4, [(12, 15)]⟩]⟩,
    ⟨"BTN_P_CNT_CE", 0x2110, [⟨64, 0, 12⟩], .rw, 0x0, [⟨"count", 0, 32, []⟩]⟩,
    ⟨"BTN_P_CNT_UE", 0x2114, [⟨64, 0, 12⟩], .rw, 0x0, [⟨"count", 0, 32, []⟩]⟩,
    ⟨"BTN_P_CNT_HDR", 0x2118, [⟨64, 0, 12⟩], .rw, 0x0, [⟨"count", 0, 32, []⟩]⟩,
    ⟨"BTN_P_CNT_NEST", 0x211C, [⟨64, 0, 12⟩], .rw, 0x0, [⟨"count", 0, 32, []⟩]⟩] ++
  [
    ⟨"BTN_P_CNT_RETRY", 0x2120, [⟨64, 0, 12⟩], .rw, 0x0, [⟨"count", 0, 32, []⟩]⟩,
    ⟨"BTN_P_CNT_DUP", 0x2124, [⟨64, 0, 12⟩], .rw, 0x0, [⟨"count", 0, 32, []⟩]⟩,
    ⟨"BTN_P_CNT_LATE", 0x2128, [⟨64, 0, 12⟩], .rw, 0x0, [⟨"count", 0, 32, []⟩]⟩,
    ⟨"BTN_P_CNT_NRDROP", 0x212C, [⟨64, 0, 12⟩], .rw, 0x0, [⟨"count", 0, 32, []⟩]⟩,
    ⟨"BTN_P_CNT_LOCK", 0x2130, [⟨64, 0, 12⟩], .rw, 0x0, [⟨"count", 0, 32, []⟩]⟩,
    ⟨"BTN_P_CNT_TXOVF", 0x2134, [⟨64, 0, 12⟩], .rw, 0x0, [⟨"count", 0, 32, []⟩]⟩]

/-- The registers of the TEAM_ block. -/
def regSpecsTEAM : List RegSpec :=
  [
    ⟨"TEAM_STATUS", 0x200000, [], .ro, 0x0, [⟨"checked", 0, 32, []⟩]⟩,
    ⟨"TEAM_EVT", 0x200004, [], .w1c, 0x0, [⟨"check_fail", 0, 1, []⟩, ⟨"mismatch", 1, 1, []⟩, ⟨"incomplete", 2, 1, []⟩]⟩,
    ⟨"TEAM_H_CFG", 0x200100, [⟨64, 0, 32⟩], .ws, 0x0, [⟨"id", 0, 6, []⟩, ⟨"en", 6, 1, []⟩]⟩,
    ⟨"TEAM_H_BLOCK", 0x200104, [⟨64, 0, 32⟩], .ws, 0x0, [⟨"ox", 0, 4, []⟩, ⟨"ex_m1", 4, 4, []⟩, ⟨"oy", 8, 3, []⟩, ⟨"ey_m1", 11, 3, []⟩, ⟨"oz", 14, 3, []⟩, ⟨"ez_m1", 17, 3, []⟩]⟩,
    ⟨"TEAM_H_ROOT", 0x200108, [⟨64, 0, 32⟩], .ws, 0x0, [⟨"rx", 0, 4, []⟩, ⟨"ry", 4, 3, []⟩, ⟨"rz", 7, 3, []⟩]⟩,
    ⟨"TEAM_H_MEMBER", 0x20010C, [⟨64, 0, 32⟩], .ro, 0x0, [⟨"m", 0, 10, []⟩, ⟨"count_m1", 10, 10, []⟩, ⟨"depth", 20, 5, []⟩]⟩,
    ⟨"TEAM_H_DIGEST_LO", 0x200110, [⟨64, 0, 32⟩], .ro, 0x0, [⟨"digest", 0, 32, []⟩]⟩,
    ⟨"TEAM_H_DIGEST_HI", 0x200114, [⟨64, 0, 32⟩], .ro, 0x0, [⟨"digest", 0, 32, []⟩]⟩,
    ⟨"TEAM_H_REC_LO", 0x200118, [⟨64, 0, 32⟩], .ws, 0x0, [⟨"rec", 5, 27, []⟩]⟩,
    ⟨"TEAM_H_REC_HI", 0x20011C, [⟨64, 0, 32⟩], .ws, 0x0, [⟨"rec", 0, 16, []⟩]⟩,
    ⟨"TEAM_H_STATUS", 0x200120, [⟨64, 0, 32⟩], .ro, 0x0, [⟨"check", 0, 2, []⟩, ⟨"ncoll", 2, 7, []⟩]⟩,
    ⟨"TEAM_H_BUF", 0x201000, [⟨1024, 0, 32⟩, ⟨16, 0, 64⟩, ⟨4, 0, 4⟩], .ws, 0x0, [⟨"word", 0, 32, []⟩]⟩] ++
  [
    ⟨"TEAM_H_CD", 0x210000, [⟨4096, 0, 32⟩, ⟨64, 0, 64⟩, ⟨4, 0, 16⟩], .ws, 0x0, [⟨"word", 0, 32, []⟩]⟩,
    ⟨"TEAM_H_AUX", 0x240000, [⟨4096, 0, 32⟩, ⟨4, 0, 1024⟩], .ws, 0x0, [⟨"aux", 0, 32, []⟩]⟩]

/-- The registers of the MAR_ block. -/
def regSpecsMAR : List RegSpec :=
  [
    ⟨"MAR_STATUS", 0x3FE1000, [], .ro, 0x20, [⟨"state", 0, 3, []⟩, ⟨"lock", 3, 1, []⟩, ⟨"service", 4, 1, []⟩, ⟨"fault_n", 5, 1, []⟩, ⟨"safe_stop", 6, 1, []⟩, ⟨"starter_ok", 7, 1, []⟩, ⟨"audit", 8, 6, []⟩]⟩,
    ⟨"MAR_EVT", 0x3FE1004, [], .w1c, 0x0, [⟨"yellow", 0, 1, []⟩, ⟨"red", 1, 1, []⟩, ⟨"black", 2, 1, []⟩, ⟨"lockwr", 3, 1, []⟩, ⟨"audit_fail", 4, 1, []⟩, ⟨"taint_in", 5, 1, []⟩, ⟨"team_stop", 6, 1, []⟩, ⟨"injected", 7, 1, []⟩]⟩,
    ⟨"MAR_LOCK", 0x3FE1008, [], .wo1, 0x0, [⟨"lock", 0, 1, []⟩]⟩,
    ⟨"MAR_CFG", 0x3FE100C, [], .rwl, 0x5F, [⟨"t_warn", 0, 8, [(0, 79), (106, 255)]⟩, ⟨"ss_team", 8, 1, []⟩]⟩,
    ⟨"MAR_SVC", 0x3FE1010, [], .rwl, 0x0, [⟨"on", 0, 1, []⟩]⟩,
    ⟨"MAR_CNT_LOCKWR", 0x3FE1014, [], .ro, 0x0, [⟨"count", 0, 32, []⟩]⟩,
    ⟨"MAR_CNT_YELLOW", 0x3FE1018, [], .ro, 0x0, [⟨"count", 0, 32, []⟩]⟩,
    ⟨"MAR_CNT_RED", 0x3FE101C, [], .ro, 0x0, [⟨"count", 0, 32, []⟩]⟩,
    ⟨"MAR_CNT_BLACK", 0x3FE1020, [], .ro, 0x0, [⟨"count", 0, 32, []⟩]⟩,
    ⟨"MAR_LOG_SEL", 0x3FE1024, [], .rw, 0x0, [⟨"index", 0, 10, []⟩]⟩,
    ⟨"MAR_LOG_HEAD", 0x3FE1028, [], .ro, 0x0, [⟨"next", 0, 10, []⟩, ⟨"seq", 16, 16, []⟩]⟩,
    ⟨"MAR_FW", 0x3FE102C, [], .ro, 0x0, [⟨"version", 0, 16, []⟩, ⟨"slot", 16, 1, []⟩]⟩] ++
  [
    ⟨"MAR_TEMP", 0x3FE1030, [], .ro, 0x0, [⟨"die", 0, 8, []⟩, ⟨"hbm", 8, 8, []⟩]⟩,
    ⟨"MAR_PWR", 0x3FE1034, [], .ro, 0x0, [⟨"watts", 0, 16, []⟩]⟩,
    ⟨"MAR_LOG_W", 0x3FE1040, [⟨4, 0, 8⟩], .ro, 0x0, [⟨"word", 0, 32, []⟩]⟩,
    ⟨"MAR_OOS", 0x3FE1060, [⟨4, 0, 8⟩], .ro, 0x0, [⟨"oos", 0, 32, []⟩]⟩,
    ⟨"MAR_INJ_CTL", 0x3FE1080, [], .rw, 0x0, [⟨"kind", 0, 4, [(13, 15)]⟩, ⟨"arm", 4, 1, []⟩, ⟨"done", 5, 1, []⟩, ⟨"cancelled", 6, 1, []⟩]⟩,
    ⟨"MAR_INJ_SITE", 0x3FE1084, [], .rw, 0x0, [⟨"site", 0, 16, []⟩, ⟨"heat", 16, 5, []⟩]⟩,
    ⟨"MAR_INJ_LAP", 0x3FE1088, [], .rw, 0x0, [⟨"lap_lo", 0, 32, []⟩]⟩,
    ⟨"MAR_INJ_POS", 0x3FE108C, [], .rw, 0x0, [⟨"lap_hi", 0, 16, []⟩, ⟨"stride", 16, 11, []⟩]⟩,
    ⟨"MAR_H_WIN_LO", 0x3FE1100, [⟨32, 0, 32⟩], .ro, 0x0, [⟨"lap_lo", 0, 32, []⟩]⟩,
    ⟨"MAR_H_WIN_HI", 0x3FE1104, [⟨32, 0, 32⟩], .ro, 0x0, [⟨"lap_hi", 0, 16, []⟩, ⟨"valid", 31, 1, []⟩]⟩,
    ⟨"MAR_H_FAIL_LO", 0x3FE1108, [⟨32, 0, 32⟩], .ro, 0x0, [⟨"lap_lo", 0, 32, []⟩]⟩,
    ⟨"MAR_H_FAIL_HI", 0x3FE110C, [⟨32, 0, 32⟩], .ro, 0x0, [⟨"lap_hi", 0, 16, []⟩, ⟨"red", 16, 1, []⟩, ⟨"taint", 17, 1, []⟩, ⟨"valid", 31, 1, []⟩]⟩] ++
  [
    ⟨"MAR_H_CNT", 0x3FE1110, [⟨32, 0, 32⟩], .ro, 0x0, [⟨"red", 0, 16, []⟩, ⟨"yellow", 16, 16, []⟩]⟩]

/-- The registers of the STA_ block. -/
def regSpecsSTA : List RegSpec :=
  [
    ⟨"STA_BOOT", 0x3FE0000, [], .ro, 0x40000, [⟨"step", 0, 5, []⟩, ⟨"state", 5, 3, []⟩, ⟨"alt", 8, 2, []⟩, ⟨"last", 10, 4, []⟩, ⟨"cfg_rel", 14, 1, []⟩, ⟨"reduced", 15, 1, []⟩, ⟨"console", 16, 1, []⟩, ⟨"degraded", 17, 1, []⟩, ⟨"fault_n", 18, 1, []⟩, ⟨"link", 19, 1, []⟩, ⟨"boot", 20, 12, []⟩]⟩,
    ⟨"STA_EVT", 0x3FE0004, [], .w1c, 0x0, [⟨"step", 0, 1, []⟩, ⟨"ready", 1, 1, []⟩, ⟨"hold", 2, 1, []⟩, ⟨"cfg", 3, 1, []⟩, ⟨"full", 4, 1, []⟩, ⟨"restart", 5, 1, []⟩, ⟨"rxdrop", 6, 1, []⟩]⟩,
    ⟨"STA_CTL", 0x3FE0008, [], .rw, 0x0, [⟨"hold_req", 0, 1, []⟩, ⟨"release", 1, 1, []⟩]⟩,
    ⟨"STA_BOOTCNT", 0x3FE000C, [], .ro, 0x0, [⟨"boot", 0, 32, []⟩]⟩,
    ⟨"STA_T0_LO", 0x3FE0010, [], .ro, 0x0, [⟨"t0", 0, 32, []⟩]⟩,
    ⟨"STA_T0_HI", 0x3FE0014, [], .ro, 0x0, [⟨"t0", 0, 16, []⟩, ⟨"epoch", 16, 16, []⟩]⟩,
    ⟨"STA_TREADY", 0x3FE0018, [], .ro, 0x0, [⟨"ready", 0, 16, []⟩, ⟨"cfg", 16, 16, []⟩]⟩,
    ⟨"STA_SLOT", 0x3FE001C, [], .ro, 0x0, [⟨"starter", 0, 1, []⟩, ⟨"pending", 1, 1, []⟩, ⟨"recovery", 2, 1, []⟩, ⟨"marshal", 3, 1, []⟩, ⟨"version", 16, 16, []⟩]⟩,
    ⟨"STA_DEGR", 0x3FE0020, [], .ro, 0x0, [⟨"cores_oos", 0, 1, []⟩, ⟨"slices_oos", 1, 1, []⟩, ⟨"ctrl_oos", 2, 1, []⟩, ⟨"ports_oos", 3, 1, []⟩, ⟨"no_host", 4, 1, []⟩, ⟨"free_run", 5, 1, []⟩, ⟨"journal_new", 6, 1, []⟩, ⟨"journal_ro", 7, 1, []⟩, ⟨"no_settings", 8, 1, []⟩]⟩,
    ⟨"STA_JHEAD", 0x3FE0024, [], .ro, 0x0, [⟨"head", 0, 8, []⟩, ⟨"newest", 8, 8, []⟩, ⟨"seq", 16, 16, []⟩]⟩,
    ⟨"STA_JSEL", 0x3FE0028, [], .rw, 0x0, [⟨"slot", 0, 8, []⟩]⟩,
    ⟨"STA_CNT_RXDROP", 0x3FE002C, [], .rw, 0x0, [⟨"count", 0, 32, []⟩]⟩] ++
  [
    ⟨"STA_STEP", 0x3FE0044, [⟨4, 1, 19⟩], .ro, 0x0, [⟨"outcome", 0, 4, []⟩, ⟨"alt", 4, 2, []⟩, ⟨"units", 8, 8, []⟩, ⟨"ms", 16, 16, []⟩]⟩,
    ⟨"STA_JW", 0x3FE0100, [⟨4, 0, 64⟩], .ro, 0x0, [⟨"word", 0, 32, []⟩]⟩,
    ⟨"STA_OOSC", 0x3FE0200, [⟨4, 0, 64⟩], .ro, 0x0, [⟨"oos", 0, 32, []⟩]⟩,
    ⟨"STA_OOSS", 0x3FE0300, [⟨4, 0, 8⟩], .ro, 0x0, [⟨"oos", 0, 32, []⟩]⟩,
    ⟨"STA_OOSX", 0x3FE0320, [], .ro, 0x0, [⟨"ctrl", 0, 8, []⟩, ⟨"ports", 8, 12, []⟩]⟩]

/-- The registers of the MGT_ block. -/
def regSpecsMGT : List RegSpec :=
  [
    ⟨"MGT_STATUS", 0x3FF0000, [], .w1c, 0x0, [⟨"trunc", 0, 1, []⟩, ⟨"crc_err", 1, 1, []⟩, ⟨"refused", 2, 1, []⟩, ⟨"early", 3, 1, []⟩, ⟨"qfull", 4, 1, []⟩, ⟨"indirect", 5, 1, []⟩, ⟨"fbusy", 6, 1, []⟩, ⟨"badcmd", 7, 1, []⟩, ⟨"overrun", 8, 8, []⟩]⟩,
    ⟨"MGT_STATE", 0x3FF0004, [], .ro, 0x400, [⟨"main", 0, 1, []⟩, ⟨"cfg", 1, 1, []⟩, ⟨"lock", 2, 1, []⟩, ⟨"alert", 3, 1, []⟩, ⟨"qfree", 4, 7, []⟩]⟩,
    ⟨"MGT_CFG", 0x3FF0008, [], .rw, 0x38, [⟨"alert_en", 3, 3, []⟩]⟩,
    ⟨"MGT_ALERT", 0x3FF000C, [], .w1c, 0x0, [⟨"source", 0, 6, []⟩]⟩,
    ⟨"MGT_FETCH", 0x3FF0010, [], .ro, 0x0, [⟨"addr", 0, 24, []⟩, ⟨"n_m1", 24, 5, []⟩, ⟨"done", 29, 1, []⟩, ⟨"err", 30, 1, []⟩, ⟨"busy", 31, 1, []⟩]⟩,
    ⟨"MGT_VIN", 0x3FF0020, [], .ro, 0x0, [⟨"mv", 0, 16, []⟩]⟩,
    ⟨"MGT_IIN", 0x3FF0024, [], .ro, 0x0, [⟨"ma", 0, 16, []⟩]⟩,
    ⟨"MGT_CNT_TRANS", 0x3FF0028, [], .rw, 0x0, [⟨"count", 0, 32, []⟩]⟩,
    ⟨"MGT_CNT_REFUSED", 0x3FF002C, [], .rw, 0x0, [⟨"count", 0, 32, []⟩]⟩,
    ⟨"MGT_LSEL", 0x3FF0030, [], .rw, 0x0, [⟨"index", 0, 10, []⟩]⟩,
    ⟨"MGT_JSEL", 0x3FF0034, [], .rw, 0x0, [⟨"slot", 0, 8, []⟩]⟩,
    ⟨"MGT_FBUF", 0x3FF0080, [⟨4, 0, 32⟩], .ro, 0x0, [⟨"word", 0, 32, []⟩]⟩] ++
  [
    ⟨"MGT_LOGW", 0x3FF0100, [⟨4, 0, 8⟩], .ro, 0x0, [⟨"word", 0, 32, []⟩]⟩,
    ⟨"MGT_JW", 0x3FF0200, [⟨4, 0, 64⟩], .ro, 0x0, [⟨"word", 0, 32, []⟩]⟩]

/-- Every register of the register space (R799). -/
def regSpecs : List RegSpec :=
  regSpecsLAP ++ regSpecsHAL ++ regSpecsMSH ++ regSpecsHEAT ++ regSpecsCORE ++ regSpecsNUM ++ regSpecsDMA ++ regSpecsKV ++ regSpecsBTN ++ regSpecsTEAM ++ regSpecsMAR ++ regSpecsSTA ++ regSpecsMGT

end Sys2Proof.Machine
end

