-- ==== Sys2Proof/Machine/State.lean ====
section
/-! DEFINITION. The state of the module as plain data, its faults and refusals, and the state after reset. A record
per part of the module; registers live in `State.regs` by BAR0 offset (Machine/RegMap.lean). -/

namespace Sys2Proof.Machine

/-! ### Laps (Laps and Strides) -/

/-- A lap-marker candidate of a port (R44): the lap it last carried, its arrival less its lag in 1/16 fc since lap 0,
and how many consecutive markers it has. -/
structure MarkCand where
  lap : Nat
  time : Nat
  count : Nat
  deriving DecidableEq, Repr

/-- The marker stream a port is locked to: the lap and instant of the last marker that was due, the bad or missing ones in
turn, the lap of the last good one, and its fields (R44, R47, R63, Table 2-1). -/
structure LapLock where
  lap : Nat
  time : Nat
  bad : Nat
  good : Nat
  pacer : Nat
  pri : Nat
  ref : Bool
  forced : Bool
  hops : Nat
  ho : Bool
  hoAddr : Nat
  hoLap : Nat
  deriving DecidableEq, Repr

/-- What a Baton port knows of the lap: candidates (the least recently extended first, log entry 65), the locked stream, the
last bid received with its lap of receipt (R33), the last 16 delay samples in 1/16 fc (R51), and the fc since lap 0 of the
last probe sent (R52). -/
structure LapPort where
  cands : List MarkCand
  lock : Option LapLock
  bid : Option (Nat × Nat × Nat)
  samples : List Nat
  probed : Option Nat
  deriving DecidableEq, Repr

def LapPort.blank : LapPort := { cands := [], lock := none, bid := none, samples := [], probed := none }

/-- A requester's adopt request that waits for its announcement (R70, R71). -/
structure AdoptReq where
  line : Line
  lap : Nat
  deadline : Nat
  deriving DecidableEq, Repr

structure LapSt where
  ports : Tab LapPort
  /-- election window: laps left (R34) -/
  electing : Option Nat
  /-- best bid seen: priority and address (R33) -/
  best : Option (Nat × Nat)
  /-- this module's own bid in the present election (R31, R35) -/
  own : Option (Nat × Nat)
  /-- highest lap count seen (R33) -/
  highest : Nat
  /-- a first lock has been taken since power-up (R49) -/
  locked1 : Bool
  /-- phase and lap count step to the markers of a locked port at the next boundary (R49, R69) -/
  step : Bool
  /-- a first lock was refused under R49: the module returns only by `lap realign` -/
  barred : Bool
  /-- a pacer has been named to this module: LAP_PACER.addr means one (R75) -/
  known : Bool
  /-- the pacer before the last handover recorded, which markers on their way still name (R72, R75) -/
  prev : Option Nat
  /-- locked ports carry different pacers, and R76 has acted on it -/
  clash : Bool
  /-- the lap number an elected pacer takes at the next boundary (R36) -/
  raise_ : Option Nat
  /-- last lap with a good marker, while in holdover (R63) -/
  holdL0 : Option Nat
  /-- R64 has acted since lock was lost -/
  expired : Bool
  adopt : Option AdoptReq
  /-- lap from which a forced adoption originates markers (R74) -/
  forceAt : Option Nat
  /-- S-17 has begun: markers have effect (R39) -/
  s17 : Bool
  /-- LAP_IN was qualified and then lost -/
  refLost : Bool
  deriving DecidableEq, Repr

/-! ### Cores -/

/-- Run states of a core, with the codes of CORE_STATE.state (R284). -/
inductive CoreRun where
  | inReset | running | halted | trapped | waiting | done
  deriving DecidableEq, Repr

/-- What a waiting core waits for (Table 6-9): a position, a queue record, an operation, core cycles from an fc, or a
stride boundary. -/
inductive WaitCond where
  | pos (fc : Nat)
  | cq
  | hq
  | op (id : Nat)
  | cyc (from_ : Nat) (n : Nat)
  | stride (fc : Nat)
  deriving DecidableEq, Repr

/-- An accumulation group's control state (R337, Table 6-13). `chan`: none until the first MMA takes a channel
(R342), then whether it is the MXI8 channel. `fresh`: opened in mode H and never written. `dirty`: a write by other
means made the value undefined (R248): its bytes are free values when it is next used. -/
structure AGrp where
  mode : Nat
  m : Nat
  levels : Nat
  retries : Nat
  tagged : Bool
  occ : Nat
  steps : Nat
  rbase : Nat
  chan : Option Bool
  fresh : Bool
  dirty : Bool
  deriving DecidableEq, Repr

/-- A packet in an outbound stream queue (R254): its operation, the fc since lap 0 in which it entered, its destination
address, its slots and those it has left, whether its head slot went void (R164), whether its completion record already
stands (R268), the flits that left as data, and the flits still to leave, head first. -/
structure OutPkt where
  op : Nat
  at_ : Nat
  dst : Nat
  total : Nat
  left : Nat
  late : Bool
  refused : Bool
  units : Nat
  flits : List Flit
  deriving DecidableEq, Repr

/-- One item of an outbound stream queue: slots released by SKIP (R255), or a packet. -/
inductive OutItem where
  | skip (n : Nat)
  | pkt (p : OutPkt)
  deriving DecidableEq, Repr

/-- An RSEND in a relay send queue: the fc in which it entered, its slots and those left, late, refused, relay flits sent
and still to leave (R257). -/
structure RelaySend where
  op : Nat
  at_ : Nat
  total : Nat
  left : Nat
  late : Bool
  refused : Bool
  units : Nat
  flits : List (BitVec 1024)
  deriving DecidableEq, Repr

/-- A posted relay buffer (R262). -/
structure RelayBuf where
  op : Nat
  addr : Nat
  n : Nat
  filled : Nat
  late : Bool
  deriving DecidableEq, Repr

/-- A lowering of a heat's operation: status, the bits of Table 3-3, the result, and the position of a BARRIER in fc
since lap 0 (R93, R118). -/
structure HalLow where
  status : Nat
  match_ : Bool
  ovf : Bool
  nan : Bool
  data : List Byte
  at_ : Option Nat
  deriving DecidableEq, Repr

/-- A lowering that a port holds for an operation its core has not issued (R803): the operation's sequence number, and
whether the lowering is provisional. -/
structure Lowering where
  seq : Nat
  prov : Bool
  low : HalLow
  deriving DecidableEq, Repr

/-- A Halyard descriptor a core has issued and whose final completion has not come: its sequence number, operation
identifier, four words, leaf elements taken at issue, whether R91 accepts it, whether its record has reached the masthead
(R88 to R92). -/
structure HalIssue where
  seq : Nat
  op : Nat
  words : List Word
  data : List Byte
  valid : Bool
  sent : Bool
  deriving DecidableEq, Repr

/-- A completion in a core's Halyard queue: the word, the sequence number, the identifier, and the lines the result
wrote (R269). -/
structure HalDone where
  word : BitVec 64
  seq : Nat
  op : Nat
  dst : Nat
  len : Nat
  deriving DecidableEq, Repr

/-- A DMA chain of a core (R385, R400): identifier, offset of the present descriptor, whether it has begun, its 32-byte
units moved and those of the whole chain, descriptors begun, whether the chain has ended, with which status and class. -/
structure DmaChain where
  op : Nat
  at_ : Nat
  begun : Bool
  done : Nat
  total : Nat
  count : Nat
  ended : Bool
  status : Nat
  cls : Nat
  deriving DecidableEq, Repr

/-- An ATTEND in progress (R453, R457, R458): identifier, descriptor offset and words, fc since lap 0 of its issue, whether
its result stands, its status and units, and the headers of the output buffers it roots. -/
structure AttendOp where
  op : Nat
  desc : Nat
  words : List Word
  start : Nat
  ready : Bool
  status : Nat
  units : Nat
  heads : List Nat
  /-- what it reads carries a tag (R266) -/
  tag : Bool
  deriving DecidableEq, Repr

structure Core where
  run : CoreRun
  pc : BitVec 16
  s : Tab DWord
  p : BitVec 8
  t : Tab Tile
  v : Tab (List Word)
  tagS : BitVec 32
  tagP : BitVec 8
  tagV : BitVec 32
  /-- scratchpad lines that carry the provisional tag -/
  tagL : List Nat
  ag : Tab AGrp
  /-- open provisional sources (R269) -/
  prov : Nat
  /-- sequence numbers of operations whose provisional completion was popped (R270) -/
  provSeq : List Nat
  ckpt : Option (BitVec 16)
  exc : Option (Nat × BitVec 16)
  recallFlag : Bool
  lateWait : Bool
  replayed : Bool
  /-- fc since lap 0 at which the heat last started: core cycles count from it -/
  startFc : Nat
  posCap : Nat
  wait : Option WaitCond
  /-- fc in which the WAIT began, and the next step of a halted one (R275, R284) -/
  waitFrom : Nat
  step : Nat
  /-- an instruction waits at issue: 1/1200 cc of it not yet counted (R234) -/
  stall : Option Nat
  opNext : Nat
  busy : BitVec 32
  cq : List DWord
  /-- the Halyard completion queue, of eight records; completions beyond them wait in the port (log entry 81) -/
  hq : List HalDone
  rq : List DWord
  outQ : Tab (List OutItem)
  /-- slots of a stream, or of a relay direction, that went void before a SEND or SKIP claimed them (R162, R163) -/
  missed : Tab Nat
  missedR : Tab Nat
  relQ : Tab (List RelaySend)
  relBuf : Tab (List RelayBuf)
  /-- descriptors issued since the heat's start, those held in the port (R92, R199), and those in flight -/
  halSeq : Nat
  halWait : List HalIssue
  halOut : List HalIssue
  held : List Lowering
  /-- completions of refused HOISTs that wait for those of earlier descriptors, with the number of descriptors before
  (R94) -/
  halRef : List (Nat × HalDone)
  dma : List DmaChain
  attend : Option AttendOp
  gens : Tab Word
  seed : Word
  genId : Nat
  sig : BitVec 32
  sigShadow : BitVec 32
  sigLatched : BitVec 32
  sigShadowLatched : BitVec 32
  imem : Tab Word
  deriving DecidableEq, Repr

/-- Core `n` in reset: every register zero, every queue empty (R277). Instruction memory and scratchpad are kept. -/
def Core.blank (n : Nat) : Core :=
  { run := .inReset, pc := 0, s := [], p := 1, t := [], v := [], tagS := 0, tagP := 0, tagV := 0, tagL := [],
    ag := [], prov := 0, provSeq := [], ckpt := none, exc := none, recallFlag := false, lateWait := false,
    replayed := false, startFc := 0, posCap := 0, wait := none, waitFrom := 0, step := 0, stall := none, opNext := 0, busy := 0, cq := [], hq := [], rq := [],
    outQ := [], missed := [], missedR := [], relQ := [], relBuf := [], halSeq := 0, halWait := [], halOut := [], held := [], halRef := [], dma := [],
    attend := none, gens := [], seed := 0, genId := 2048 + n, sig := 0, sigShadow := 0, sigLatched := 0,
    sigShadowLatched := 0, imem := [] }

/-! ### Heats -/

/-- An image accepted by `image load` for a heat (R282): identifier, section count, code and scratchpad data that the
heat's next commit writes into its cores. -/
structure HeatImage where
  id : BitVec 64
  sections : Nat
  code : List (Nat × List Byte)
  data : List (Nat × List Byte)
  active : Bool
  deriving DecidableEq, Repr

/-- A commit snapshot (R205): pending geometry, staged registers, rank, slot, stream and reply-map entries of the heat,
and whether the checks have passed. -/
structure Snapshot where
  line : Line
  geom : Word
  regs : Tab Word
  slots : Tab (BitVec 4)
  smap : Tab (BitVec 6)
  rmap : Tab (BitVec 12)
  /-- the image whose code and data the commit writes, where they have not been written yet (R282) -/
  image : Option HeatImage
  deriving DecidableEq, Repr

structure HeatRec where
  snap : Option Snapshot
  /-- accepted start: lap, resume, the console line of a team start (R211, R525) -/
  start : Option (Nat × Bool × Option Line)
  /-- recall: lap from which it acts (R199), and the lines that wait for the stop -/
  recallAt : Option Nat
  stopLines : List Line
  /-- Halyard ports hold back new descriptors (R199) -/
  holdBack : Bool
  /-- lap B of the stop in progress -/
  drain : Option Nat
  resetLines : List Line
  image : Option HeatImage
  deriving DecidableEq, Repr

def HeatRec.blank : HeatRec :=
  { snap := none, start := none, recallAt := none, stopLines := [], holdBack := false, drain := none,
    resetLines := [], image := none }

/-! ### The Marshal -/

/-- A pennant: yellow, red or black (Table 13-8). -/
inductive Pen where
  | yellow | red | black
  deriving DecidableEq, Repr

/-- An entry of the Marshal's log (Table 13-8). -/
structure LogEntry where
  code : Nat
  pen : Pen
  injected : Bool
  taint : Bool
  heat : Option Nat
  site : Nat
  detail : Nat
  lap : Nat
  fc : Nat
  seq : Nat
  flap : Nat
  repeats : Nat
  deriving DecidableEq, Repr

structure MarSt where
  log : Tab LogEntry
  /-- MAR_LOCK has been consumed (R19) -/
  lockUsed : Bool
  /-- taints held per heat: laps (R561) -/
  taints : Tab (List Nat)
  /-- heat starts since arming: windows are open (R593) -/
  armed : Bool
  /-- team stops accepted in the present lap (R580) -/
  stops : List (Nat × Nat)
  /-- number of the next team stop frame sent (Table 13-5) -/
  stopNum : Nat
  /-- deferred `marshal restore`: line and region (R723) -/
  restore : Option (Line × Nat)
  /-- regions whose checkers an injection disabled (kind 8) -/
  mute : List Nat
  /-- ms of the standby clock up to which a missing heartbeat logs nothing (R555) -/
  quietTo : Nat
  /-- standby ms of the last heartbeat (R555) -/
  beatMs : Nat
  /-- injected faults whose event has not been logged: code and heat (R590) -/
  inj : List (Nat × Option Nat)
  /-- red and black entries of this lap not yet in the journal (R654) -/
  toJournal : List LogEntry
  deriving DecidableEq, Repr

/-! ### The console -/

/-- Where a session's endpoint is (Table 16-1). -/
inductive Endpoint where
  | uart
  | usb
  | mailbox (pf : Fin 2)
  | tunnel (mod : Nat) (sess : Nat)
  deriving DecidableEq, Repr

/-- session.form (R680). -/
inductive SForm where
  | typed | generated | auto
  deriving DecidableEq, Repr

/-- A kept reply (R679): tag, CRC, final line, and the standby ms of the line. -/
structure Kept where
  tag : String
  crc : BitVec 8
  final : String
  ms : Nat
  deriving DecidableEq, Repr

structure Session where
  ep : Endpoint
  echo : Bool
  form : SForm
  lastGen : Bool
  events : Nat
  baud : Nat
  newBaud : Option Nat
  flow : Bool
  /-- CTS_N is deasserted, and RTS_N is, with flow = 1 (Table 16-12) -/
  ctsOff : Bool
  rtsOff : Bool
  /-- the line being received, and how many of its bytes were beyond 512 -/
  part : List Byte
  long_ : Bool
  lastCr : Bool
  /-- bytes sent and not yet taken, oldest first (UART and USB) -/
  out : List Byte
  /-- lines and prompts of a reply that wait for space (R699) -/
  paused : List (List Byte)
  dropped : Nat
  kept : List Kept
  /-- the line of this session that has begun and not finished (R690) -/
  line : Option Line
  /-- standby ms of its last line, or of its opening (R668) -/
  lastMs : Nat
  deriving DecidableEq, Repr

/-- A complete line in the queue (R690): session, text, whether it was too long, and the heats that its recognised
stop halted (R693). -/
structure QLine where
  sess : Nat
  text : List Byte
  long_ : Bool
  stopped : Option (List Nat)
  deriving DecidableEq, Repr

/-- A mailbox's words (Table 16-13), with its rings' bytes by offset in the ring. -/
structure Mailbox where
  hctl : Nat
  mstat : Nat
  inProd : Nat
  inCons : Nat
  outProd : Nat
  outCons : Nat
  lost : Nat
  inRing : Tab Byte
  outRing : Tab Byte
  /-- standby time in fc of the last MSI-X signal, and whether another waits for the end of its 10 µs (R703) -/
  irqAt : Option Nat
  irqDue : Bool
  /-- standby ms from which output has found no room (R704) -/
  fullMs : Option Nat
  deriving DecidableEq, Repr

def Mailbox.blank : Mailbox :=
  { hctl := 0, mstat := 0, inProd := 0, inCons := 0, outProd := 0, outCons := 0, lost := 0, inRing := [],
    outRing := [], irqAt := none, irqDue := false, fullMs := none }

/-- A line routed to another module that waits for its reply (R700): the line, the module, the bytes of the reply line
being received, the reply lines so far, whether it has been answered, its reply to be discarded, and the standby ms at which
it was sent. -/
structure Routed where
  line : Line
  mod : Nat
  part : List Byte
  lines : List String
  dead : Bool
  sentMs : Nat
  deriving DecidableEq, Repr

/-- A firmware transfer (R732). -/
structure Transfer where
  sess : Nat
  marshal : Bool
  len : Nat
  bytes : List Byte
  deriving DecidableEq, Repr

structure ConSt where
  sess : Tab Session
  queue : List QLine
  claim : Option Nat
  mail : Tab Mailbox
  routed : List Routed
  /-- lines that run on after their session has closed: their replies are discarded (Table 16-14) -/
  orphans : List Line
  transfer : Option Transfer
  /-- endpoints that opened with every session allotted (R669) -/
  refused : List Endpoint
  /-- UART bytes received from S-03 until S-06 (R631) -/
  early : List Byte
  /-- deferred `image load` (R719), `update end` of the Marshal (R733) -/
  imageLoad : Option (Line × Nat × Nat)
  marUpdate : Option Line
  deriving DecidableEq, Repr

/-! ### Start sequence, journal, settings, firmware -/

/-- A stored settings record (R664): sequence, pairs, lock request; and whether its CRC is valid. -/
structure Settings where
  seq : Nat
  pairs : List (Nat × Word)
  lock : Bool
  valid : Bool
  deriving DecidableEq, Repr

/-- A firmware slot's contents as far as the module tells of them: its version and the first 8 bytes of its SHA-384
digest. -/
structure Firmware where
  version : Nat
  digest : Nat
  deriving DecidableEq, Repr

structure BootSt where
  /-- 3.3 V_AUX and main input present -/
  aux : Bool
  main : Bool
  mate : Bool
  /-- standby clock, ms since 3.3 V_AUX (R625), and the epoch -/
  ms : Nat
  epoch : Nat
  bootCount : Nat
  t0 : Nat
  /-- step running, and when it began, ms after t0 -/
  step : Nat
  stepMs : Nat
  /-- ms after t0 of the end of the last step -/
  now : Nat
  /-- the step at which the module holds, when in hold -/
  holdAt : Option Nat
  /-- PERST_N asserted; ms after t0 of its last deassertion -/
  perst : Bool
  perstMs : Nat
  /-- S-15 has been reached in this boot -/
  s15 : Bool
  recovery : Bool
  /-- ports reported to S-16 as not trained (R501) -/
  untrained : List Nat
  /-- fc of the present ms of the standby clock, while the module idles -/
  sub : Nat
  /-- STA_BOOT.state of the hold that the end of S-06 enters, or 0 (R646) -/
  holdKind : Nat
  /-- configuration was released with reduced functions in this boot (R635) -/
  reducedRel : Bool
  journal : Tab (List Byte)
  jErased : Bool
  /-- the flash cannot be written; what is written does not read back -/
  jReadOnly : Bool
  jVerify : Bool
  slotEntry : Option Nat
  copy0 : Settings
  copy1 : Settings
  /-- firmware slots A and B of the Starter and the Marshal; the Marshal's pending mark -/
  fwStarter : Firmware × Firmware
  fwMarshal : Firmware × Firmware
  marPending : Bool
  /-- what S-02 and S-03 found of a pending slot, until S-04 writes it: Marshal or Starter, slot, outcome of Table 17-3 -/
  fwNotes : List (Bool × Nat × Nat)
  restarting : Bool
  /-- rail groups 1 to 5 on -/
  rails : BitVec 5
  deriving DecidableEq, Repr

/-! ### The management port -/

structure MgtSt where
  active : Bool
  /-- write queue: word address and value -/
  queue : List (Nat × Word)
  /-- the fetch in progress: word address, words, and the queued words that come before it -/
  fetch : Option (Nat × Nat × Nat)
  deriving DecidableEq, Repr

/-! ### The mesh (Mesh, Relay Lanes and Clock Regions) -/

/-- A flit or void on the mesh: kind of unit by position in its packet, the reason of a void, the data, and the stream whose
slot it fills, which the schedule fixes for each slot (log entry 59). -/
structure MFlit where
  head : Bool
  tail : Bool
  /-- void reason plus one; 0: not a void -/
  void : Nat
  data : Flit
  /-- its bits were uncorrectable on the way (R147) -/
  bad : Bool
  strm : Nat
  deriving DecidableEq, Repr

/-- A flit in flight toward a router input: arrival in fc since lap 0, router, input (the output code it came from,
seen from the receiving router). -/
structure Flight where
  at_ : Nat
  router : Nat
  input : Nat
  flit : MFlit
  /-- a control flit (sideband kind 3) -/
  ctl : Bool
  deriving DecidableEq, Repr

/-- A relay flit as a lane carries it (Table 4-3): head and tail of its RSEND, reason plus one (0: data), data. -/
structure RFlit where
  head : Bool
  tail : Bool
  void : Nat
  data : BitVec 1024
  deriving DecidableEq, Repr

/-- A relay flit in flight: arrival, router, relay input. -/
structure RelayFlight where
  at_ : Nat
  router : Nat
  input : Nat
  flit : RFlit
  deriving DecidableEq, Repr

/-- A packet in arrival at a consumer (R177, R258, R366): its head, the fc since lap 0 and the offset of the stride at which
the head came, the data flits that have come, the first void among its flits (reason plus one), whether its data are
applied, and whether a granule was found uncorrectable. -/
structure Arrival where
  head : VFlit
  at_ : Nat
  slot : Nat
  n : Nat
  void : Nat
  take : Bool
  hit : Bool
  deriving DecidableEq, Repr

/-- A control flit waiting at a router output: output, flit, and the fc since lap 0 from which it has waited. -/
structure CtrlWait where
  output : Nat
  flit : Flit
  since : Nat
  deriving DecidableEq, Repr

structure MeshSt where
  /-- slot entries, staged and active, by (router × 13 + output) × 128 + slot (R154) -/
  slotS : Tab (BitVec 4)
  slotA : Tab (BitVec 4)
  /-- stream maps by (core × 2 + direction) × 128 + slot (R255) -/
  smapS : Tab (BitVec 6)
  smapA : Tab (BitVec 6)
  /-- reply maps by (target × 4 + lane) × 128 + slot (R362) -/
  rmapS : Tab (BitVec 12)
  rmapA : Tab (BitVec 12)
  flights : List Flight
  relays : List RelayFlight
  ctrl : Tab (List CtrlWait)
  /-- packets in arrival, by (router × 13 + output) × 2^32 + stream -/
  asm : Tab Arrival
  /-- fc since lap 0 after that in which each router last acted -/
  acted : Tab Nat
  /-- routers that have forwarded a stop flood, with the heats named since they last started, one bit per heat (R180) -/
  stopSeen : Tab Nat
  /-- late counters of consumers 0 to 278 (R167) -/
  late : Tab Word
  /-- clock of each region in MHz, set and requested (R143) -/
  clk : Tab Nat
  clkReq : Tab Nat
  /-- heats that logged 0x10B in the present lap (R196) -/
  discLogged : List Nat
  deriving DecidableEq, Repr

/-- The nominal region clock in MHz (log entry 2). -/
def MeshSt.nominalClk : Nat := 1500

def MeshSt.blank : MeshSt :=
  { slotS := [], slotA := [], smapS := [], smapA := [], rmapS := [], rmapA := [], flights := [], relays := [],
    ctrl := [], asm := [], acted := [], stopSeen := [], late := [], clk := [], clkReq := [], discLogged := [] }

/-! ### The Halyard at a heat's masthead -/

/-- A leaf's record at the masthead: its descriptor words, elements, and whether R91 accepts it. -/
structure LeafRec where
  words : List Word
  data : List Byte
  valid : Bool
  deriving DecidableEq, Repr

/-- A record of a team operation received on a Baton port: port, source module, op code, status, element index, and the
record; a frame without elements has none (Table 11-4). -/
structure TeamRec where
  port : Nat
  src : Nat
  op : Nat
  status : Nat
  idx : Nat
  data : Option Nat
  deriving DecidableEq, Repr

/-- A Halyard operation in flight at the masthead (R88 to R95): its sequence number, the words of its first record, its
number among the team operations where it is one, the fc since lap 0 of its first record, the records by rank, whether
its own record has gone to the parent, the provisional result once lowered, a provisional lowering and the final one not
yet delivered. -/
structure HalOp where
  seq : Nat
  words : List Word
  team : Option Nat
  first : Nat
  recs : Tab LeafRec
  sent : Bool
  prov : Option (List Byte)
  provLow : Option HalLow
  final : Option HalLow
  deriving DecidableEq, Repr

structure HalHeat where
  /-- operations in flight, oldest first (R92) -/
  ops : List HalOp
  /-- operations whose final completion has been delivered, and team operations begun -/
  done : Nat
  teams : Nat
  /-- frames of team operations received, by team operation number: from children, and lowerings from the parent -/
  teamUp : Tab (List TeamRec)
  teamDown : Tab (List TeamRec)
  /-- by team operation number: the fc since lap 0 of its first record at the system sheaf (R89, R136), and the failure sent
  toward the system masthead -/
  teamAt : Tab Nat
  teamSent : Tab Nat
  /-- team operations whose final completion has been delivered -/
  teamsDone : Nat
  /-- a leaf was reset since the heat's last recall (R132) -/
  rankReset : Bool
  /-- member lost recorded, held until recall (R136) -/
  memberLost : Bool
  /-- an injection flipped a sheaf residue: the next check fails (kind 7) -/
  flip : Bool
  /-- the heat was reset: until its next start it sends nothing to its team (R133) -/
  flushed : Bool
  deriving DecidableEq, Repr

def HalHeat.blank : HalHeat :=
  { ops := [], done := 0, teams := 0, teamUp := [], teamDown := [], teamAt := [], teamSent := [], teamsDone := 0,
    rankReset := false, memberLost := false, flip := false, flushed := false }

/-! ### Release (Provisional Values and Release) -/

/-- An accepted release entry: index, stamp, state (1 held, 2 released), status and cause lap once decided. -/
structure RelEnt where
  idx : Nat
  stamp : Nat
  state : Nat
  status : Nat
  cause : Nat
  deriving DecidableEq, Repr

structure RelSt where
  ents : List RelEnt
  /-- entries recorded since the ring position was last set to zero, modulo 2^32 -/
  recs : Nat
  deriving DecidableEq, Repr

def RelSt.blank : RelSt := { ents := [], recs := 0 }

/-! ### Parts whose chapters follow -/

/-- What the fuses hold (R7, R281; log entry 6): fenced core sites, revoked key slots. -/
structure FuseSt where
  fenced : List Nat
  revoked : List Nat
  deriving DecidableEq, Repr

/-- A reply that a memory target owes a requester: source router and port, tag, address of its data, data flits, the fc
since lap 0 from which it may leave, status, whether every flit is a void, and whether it is a reply of data (read). -/
structure ReplyDue where
  src : Nat
  sport : Nat
  tag : Nat
  addr : Nat
  n : Nat
  due : Nat
  status : Nat
  void : Bool
  read : Bool
  data : List Byte
  deriving DecidableEq, Repr

/-- A stage line of a host attachment (R373, R374): attachment, page-relative far unit (window offset div 4096), the
core that asked, the standby ms of the request, host address, bytes still to come, whether it is staged, a failure class,
whether PREFETCH staged it and no move has used it, and the bytes received. -/
structure StageLine where
  att : Nat
  unit : Nat
  core : Nat
  ms : Nat
  host : Nat
  left : Nat
  staged : Bool
  fail : Nat
  pre : Bool
  data : List Byte
  deriving DecidableEq, Repr

/-- The memories: bytes by module address; granules with an error, by address div 8 (1 correctable, 2 uncorrectable or
poisoned); corrections in the present window by unit (scratchpad k: k; slice n: 2048 + n; controller r: 2304 + r); next
patrol granule by slice and 256 + controller; slices that have wrapped since the last pass; replies queued per target;
stage lines, oldest first; BAR2 sizes as a power of two. -/
structure MemSt where
  cells : List Host.Cell
  bad : Tab (BitVec 2)
  ce : Tab Nat
  patrol : Tab Nat
  wrapped : List Nat
  replies : Tab (List ReplyDue)
  /-- reply flits on their way to the lanes, by target × 2048 + requester, each with whether the target counts it as its
  own late flit (R367) -/
  lanes : Tab (List (Bool × MFlit))
  stage : List StageLine
  bar2 : Tab Nat
  /-- bytes of posted BAR2 writes that each host attachment has taken in the present fc (R407) -/
  posted : Tab Nat
  deriving DecidableEq, Repr

def MemSt.blank : MemSt :=
  { cells := [], bad := [], ce := [], patrol := [], wrapped := [], replies := [], lanes := [], stage := [], bar2 := [], posted := [] }
/-- A page move of a keeper (R428, R432): page, target tier and frame, whether step 1 has been made. -/
structure KvMove where
  page : Nat
  tier : Nat
  frame : Nat
  begun : Bool
  deriving DecidableEq, Repr

/-- The keepers' moves, by heat × 64 + keeper, first the one in progress. -/
structure KvSt where
  moves : Tab (List KvMove)
  /-- far units that the ATTEND in progress of each heat has read, with their bytes, and the fc from which it holds for
  units that have not come (R452) -/
  far : Tab (List (Nat × List Byte))
  hold : Tab Nat
  deriving DecidableEq, Repr
/-- A frame of the transmit side: class (0 bulk, 1 express), kind, mesh sideband and send position of bulk data, sequence
number, times sent, payload (Table 11-2). -/
structure TxFrame where
  cls : Nat
  kind : Nat
  side : Nat
  rel : Nat
  seq : Nat
  tries : Nat
  flits : List Flit
  deriving DecidableEq, Repr

/-- A candidate of the frame search (R475): the slot of its last bulk header, how many have chained, and when in fc
since lap 0 that header came. -/
structure FrameCand where
  slot : Nat
  chain : Nat
  at_ : Nat
  deriving DecidableEq, Repr

/-- A mesh flit at a Baton attachment: sideband of Table 4-3 (kind, head, tail, reason), data, and a position in fc since
lap 0: of its entry on the transmit side, of its release on the receive side (R493). -/
structure LinkFlit where
  side : Nat
  data : Flit
  at_ : Nat
  deriving DecidableEq, Repr

/-- What a Baton port holds beside its registers. -/
structure BtnPort where
  /-- control blocks with their nominal send time in 1/16 fc since lap 0, express frames by kind, and bulk flits, waiting
  to be sent -/
  ctlQ : List (Nat × Flit)
  exQ : Tab (List (List Flit))
  bulkQ : List LinkFlit
  /-- next number, replay buffer and frames to be sent again, of bulk and express (R473, R485, R486) -/
  seqB : Nat
  seqX : Nat
  replayB : List TxFrame
  replayX : List TxFrame
  againB : List TxFrame
  againX : List TxFrame
  /-- payload slots left of the frame being sent -/
  curB : List Flit
  curX : List Flit
  /-- slots since the last bulk header, and express frames inside the bulk frame (R470, R471) -/
  slots : Nat
  nest : Nat
  /-- the peer's nak bits in its last header (R486) -/
  peerNakB : Bool
  peerNakX : Bool
  /-- symbol offset tried, codewords decoded in turn, codewords failed in turn, failures in this lap (R467, R503) -/
  cwOff : Nat
  cwGood : Nat
  cwBad : Nat
  ueLap : Nat
  /-- frame search, last bulk header in lock, bulk headers bad in turn, slots inserted since, express frames inside the
  bulk frame (R475 to R482) -/
  cands : List FrameCand
  lastHdr : Nat
  hdrBad : Nat
  rxIns : Nat
  rxNest : Nat
  /-- next numbers expected, and the naks this port sends (R483, R484) -/
  expB : Nat
  expX : Nat
  nakB : Bool
  nakX : Bool
  /-- bulk flits received and not yet released -/
  rxBuf : List LinkFlit
  /-- step of R501 in progress, when it began (standby ms), probes done, an identity was accepted -/
  step : Nat
  since : Nat
  probes : Nat
  /-- slot after the express frame being received, and whether the bulk frame being received is dropped (R479 to R482) -/
  xEnd : Nat
  dropB : Bool
  /-- its transceiver stays in low-power mode (R776) -/
  held : Bool
  /-- bits of the sent stream that wait for their codeword, how many and which (R465) -/
  txN : Nat
  txV : Nat
  /-- fc since lap 0 of the last safety frame (R490) -/
  safeAt : Option Nat
  /-- fc since lap 0 from which the oldest outstanding frame of a class has waited for its ack (R486), and of the loss of
  frame lock (R503) -/
  waitB : Nat
  waitX : Nat
  frLost : Nat
  deriving DecidableEq, Repr

def BtnPort.blank : BtnPort :=
  { ctlQ := [], exQ := [], bulkQ := [], seqB := 0, seqX := 0, replayB := [], replayX := [], againB := [], againX := [],
    curB := [], curX := [], slots := 0, nest := 0, peerNakB := false, peerNakX := false, cwOff := 0, cwGood := 0,
    cwBad := 0, ueLap := 0, cands := [], lastHdr := 0, hdrBad := 0, rxIns := 0, rxNest := 0, expB := 0, expX := 0,
    nakB := false, nakX := false, rxBuf := [], step := 0, since := 0, probes := 0, xEnd := 0, dropB := false,
    held := false, txN := 0, txV := 0, safeAt := none, waitB := 0, waitX := 0, frLost := 0 }
/-- A report of the team check from a child (R523): its port, the start lap, and the greatest and least of each check
word so far. -/
structure TeamReport where
  port : Nat
  lap : Nat
  hi0 : Nat
  lo0 : Nat
  hi1 : Nat
  lo1 : Nat
  deriving DecidableEq, Repr

/-- Reports of children by heat, waiting for this member's part. -/
structure TeamSt where
  reports : Tab (List TeamReport)
  deriving DecidableEq, Repr

/-- The throttle (R787 to R790): the clock last set for a region by `power clock`, the clock to which the throttle has
lowered a region, whether a step or a raise waits for stride 16 of its lap, and the laps of the last step and raise. -/
structure PwrSt where
  target : Tab Nat
  cap : Tab Nat
  due : Bool
  stepLap : Option Nat
  raiseLap : Option Nat
  deriving DecidableEq, Repr

/-! ### The whole module -/

/-- What the module has sent to the world outside it, newest first (log entry 7). -/
inductive Out where
  /-- the data of a bus read, by path and offset -/
  | busData (p : Path) (off : Nat) (v : Word)
  /-- a flit slot sent on a Baton port (R470) -/
  | slot (port : Nat) (flit : Flit)
  /-- a codeword sent on the eight lanes of a Baton port (R465) -/
  | codeword (port : Nat) (lanes : List (List (BitVec 10)))
  /-- an express frame a port sends in the same command before it goes down -/
  | express (port : Nat) (kind : Nat) (flits : List Flit)
  /-- a pulse on LAP_OUT at a lap boundary (R61) -/
  | lapOut (lap : Nat)
  /-- a posted write to host memory: physical function, host bus address, bytes, Relaxed Ordering, No Snoop -/
  | hostWrite (pf : Nat) (addr : Nat) (bytes : List Byte) (ro ns : Bool)
  /-- an MSI-X message -/
  | msix (pf : Nat) (vec : Nat)
  /-- the data of a BAR2 read -/
  | bar2Data (pf : Nat) (bytes : List Byte) (poison : Bool)
  /-- a PCIe read the module issues -/
  | hostRead (pf : Nat) (addr : Nat) (len : Nat)
  /-- a completion of a configuration request: served, or retry status (R634) -/
  | config (pf : Nat) (served : Bool)
  /-- bytes that a UART or USB session has sent, and a line to an endpoint without a session (R669) -/
  | bytes (ep : Endpoint) (bs : List Byte)
  /-- words of a management-port read shifted out whole, its trailer, and words of fill after them -/
  | spi (words : List Word) (crc : Option (BitVec 8)) (fill : Nat)
  /-- posted-request credits that a host attachment withholds (R407) -/
  | noCredit (pf : Nat)
  /-- a control flit that leaves toward a router -/
  | control (flit : Flit)
  deriving DecidableEq, Repr

structure State where
  pending : List Instr
  freeCtr : Nat
  lap : Lap
  pos : Pos
  regs : Tab Word
  act : Tab Word
  caps : Tab Word
  /-- bits of W1C registers that the hardware has set since time last passed, by offset (R18) -/
  sets : Tab Word
  /-- what words of the masthead buffers held when time last passed, where they were written since (R115) -/
  was : Tab Word
  laps : LapSt
  cores : Tab Core
  heats : Tab HeatRec
  mesh : MeshSt
  hal : Tab HalHeat
  mem : MemSt
  kv : KvSt
  btn : Tab BtnPort
  team : TeamSt
  rel : Tab RelSt
  mar : MarSt
  con : ConSt
  boot : BootSt
  mgt : MgtSt
  pwr : PwrSt
  fuse : FuseSt
  outbox : List Out
  deriving DecidableEq, Repr

/-- Why the module stops. The spec gives every command an effect (an access to an address that does not exist is answered
with an error and the machine goes on), so no command raises a fault. -/
inductive Fault where
  /-- an address outside the module address map (Memory Tiers and DMA): raised by no command of the table; safe -/
  | noSuchAddress (addr : Nat)
  deriving DecidableEq, Repr

/-- Why a command has no effect in the model. -/
inductive Refusal where
  /-- a command that has no meaning yet: raised by an arm of exec only, and by none of them now; safe -/
  | notModelled (mnemonic : String)
  deriving DecidableEq, Repr

/-! ### Reset -/

def LapSt.blank : LapSt :=
  { ports := [], electing := none, best := none, own := none, highest := 0, locked1 := false, step := false,
    barred := false, known := false, prev := none, clash := false, holdL0 := none, raise_ := none, expired := false, adopt := none, forceAt := none, s17 := false, refLost := false }

def MarSt.blank : MarSt :=
  { log := [], lockUsed := false, taints := [], armed := false, stops := [], stopNum := 0,
    restore := none, mute := [], quietTo := 0, beatMs := 0, inj := [],
    toJournal := [] }

def ConSt.blank : ConSt :=
  { sess := [], queue := [], claim := none, mail := [], routed := [], orphans := [], transfer := none, refused := [], early := [],
    imageLoad := none, marUpdate := none }

def Settings.blank : Settings := { seq := 0, pairs := [], lock := false, valid := false }

def BootSt.blank : BootSt :=
  { aux := false, main := false, mate := false, ms := 0, epoch := 0, bootCount := 0, t0 := 0, step := 0, stepMs := 0,
    now := 0, holdAt := none, perst := true, perstMs := 0, s15 := false, recovery := false, untrained := [], sub := 0, holdKind := 0, reducedRel := false,
    journal := [], jErased := true, jReadOnly := false, jVerify := false, slotEntry := none, copy0 := Settings.blank,
    copy1 := Settings.blank, fwStarter := (⟨0, 0⟩, ⟨0, 0⟩), fwMarshal := (⟨0, 0⟩, ⟨0, 0⟩), marPending := false, fwNotes := [], restarting := false,
    rails := 0 }

def MgtSt.blank : MgtSt := { active := false, queue := [], fetch := none }

/-- The module right after reset: every register at its reset value, nothing powered (Start Sequence). -/
def State.reset : State :=
  { pending := [], freeCtr := 0, lap := 0, pos := 0, regs := [], act := [], caps := [], sets := [], was := [], laps := LapSt.blank,
    cores := [], heats := [], mesh := MeshSt.blank, hal := [], mem := MemSt.blank, kv := { moves := [], far := [], hold := [] },
    btn := [], team := { reports := [] }, rel := [], mar := MarSt.blank, con := ConSt.blank, boot := BootSt.blank,
    mgt := MgtSt.blank, pwr := { target := [], cap := [], due := false, stepLap := none, raiseLap := none }, fuse := { fenced := [], revoked := [] }, outbox := [] }

end Sys2Proof.Machine
end

