-- ==== Sys2Proof/Machine/Ops.lean ====
section
/-! DEFINITION. The operations every family shares: registers and their fields, time, geometry and ownership, free
values, memory bytes, console output, pennants and halts. -/

namespace Sys2Proof.Machine

/-- The outcome of a command that always has an effect. -/
abbrev Res := Host.Outcome State Fault Refusal

/-! ### Registers -/

/-- The value a register holds; its reset value until something writes it. -/
def State.rd (s : State) (r : Reg) : Nat := (Tab.get (BitVec.ofNat 32 r.rst) s.regs r.off).toNat

/-- Set a register's value. -/
def State.wr (s : State) (r : Reg) (v : Nat) : State := { s with regs := Tab.put r.off (BitVec.ofNat 32 v) s.regs }

/-- The value of bits `lo` to `lo + n - 1` of `w` replaced by `v`. -/
def setBits (w lo n v : Nat) : Nat := w % p2 lo + (v % p2 n) * p2 lo + (w / p2 (lo + n)) * p2 (lo + n)

/-- A field of a register. -/
def State.get (s : State) (f : Fld) : Nat := bitsOf (s.rd f.reg) f.lo f.n

/-- Set a field of a register, the other fields kept. -/
def State.put (s : State) (f : Fld) (v : Nat) : State := s.wr f.reg (setBits (s.rd f.reg) f.lo f.n v)

/-- Whether a one-bit field is one. -/
def State.on (s : State) (f : Fld) : Bool := s.get f == 1

/-- Set a one-bit field from a Bool. -/
def State.putB (s : State) (f : Fld) (b : Bool) : State := s.put f b.toNat

/-- Bits that the hardware sets in a W1C register; they are noted until time next passes (R18). -/
def State.raise (s : State) (r : Reg) (w : Nat) : State :=
  let s := s.wr r (Nat.lor (s.rd r) w)
  { s with sets := Tab.put r.off (Tab.get 0 s.sets r.off ||| BitVec.ofNat 32 w) s.sets }

/-- An event sets its bit of a W1C register. -/
def State.flag (s : State) (f : Fld) : State := s.raise f.reg (p2 f.lo)

/-- Add to a saturating count (R5). -/
def State.bump (s : State) (f : Fld) (k : Nat := 1) : State := s.put f (min (s.get f + k) (p2 f.n - 1))

/-- The active copy of a WS register (R22). -/
def State.rdA (s : State) (r : Reg) : Nat := (Tab.get (BitVec.ofNat 32 r.rst) s.act r.off).toNat

/-- A field of the active copy. -/
def State.getA (s : State) (f : Fld) : Nat := bitsOf (s.rdA f.reg) f.lo f.n

/-- Write an active copy. -/
def State.wrA (s : State) (r : Reg) (v : Nat) : State := { s with act := Tab.put r.off (BitVec.ofNat 32 v) s.act }

/-- A 48-bit lap held in a LO and HI pair of fields. -/
def State.get48 (s : State) (lo hi : Fld) : Nat := s.get lo + s.get hi * p2 32

def State.put48 (s : State) (lo hi : Fld) (v : Nat) : State := (s.put lo (v % p2 32)).put hi (v / p2 32)

/-! ### Time -/

/-- Present lap. -/
def State.lapN (s : State) : Nat := s.lap.toNat

/-- Fc since lap 0 began. -/
def State.now (s : State) : Nat := s.lapN * lapFc + s.pos.toNat

def State.stride (s : State) : Nat := s.pos.toNat / 128
def State.fcIn (s : State) : Nat := s.pos.toNat % 128

/-- Decimal with leading zeros to width `n`. -/
def padDec (n v : Nat) : String :=
  let t := toString v
  String.ofList (List.replicate (n - t.length) '0') ++ t

def hexDigit (v : Nat) : Char :=
  if v < 10 then Char.ofNat (48 + v) else Char.ofNat (55 + v)

/-- Upper-case hexadecimal of `n` digits. -/
def hexDigits : Nat → Nat → List Char
  | 0, _ => []
  | n + 1, v => hexDigits n (v / 16) ++ [hexDigit (v % 16)]

def hexN (n v : Nat) : String := String.ofList (hexDigits n v)

/-- A lap and stride as R9 writes them. -/
def posStr (lap stride : Nat) : String := toString lap ++ ":" ++ padDec 4 stride

/-- A position with its fc offset (R9). -/
def posFcStr (lap stride fc : Nat) : String := posStr lap stride ++ "+" ++ padDec 3 fc

/-- The present position in an asynchronous line: `-` before S-07 (R696). -/
def State.posText (s : State) : String :=
  if s.boot.step < 7 then "-" else posFcStr s.lapN s.stride s.fcIn

/-! ### Geometry (R4 to R8, R186 to R190) -/

def coreCol (k : Nat) : Nat := k % 64
def coreRow (k : Nat) : Nat := k / 64
def coreAt (col row : Nat) : Nat := row * 64 + col

/-- The heat block of a core site. -/
def blockOf (k : Nat) : Nat := (coreRow k / 4) * 8 + coreCol k / 8

/-- The clock region of a core site: four columns by two rows, in the order of R141 to R143. -/
def regionOf (k : Nat) : Nat := (coreRow k / 2) * 16 + coreCol k / 4

/-- Whether block `b` lies in the rectangle of a HEAT_H_GEOM value (R186). -/
def geomHas (g b : Nat) : Bool :=
  let bc0 := bitsOf g 0 3
  let br0 := bitsOf g 4 3
  decide (bc0 ≤ b % 8) && decide (b % 8 < bc0 + bitsOf g 8 4) &&
    decide (br0 ≤ b / 8) && decide (b / 8 < br0 + bitsOf g 12 4)

/-- R186: a valid rectangle. -/
def geomValid (g : Nat) : Bool :=
  decide (1 ≤ bitsOf g 8 4) && decide (1 ≤ bitsOf g 12 4) && decide (bitsOf g 0 3 + bitsOf g 8 4 ≤ 8) &&
    decide (bitsOf g 4 3 + bitsOf g 12 4 ≤ 8)

/-- R186: zero width or height names no heat. -/
def geomNone (g : Nat) : Bool := bitsOf g 8 4 == 0 || bitsOf g 12 4 == 0

/-- Blocks of a rectangle, in order. -/
def geomBlocks (g : Nat) : List Nat := (List.range 64).filter (geomHas g)

/-- HEAT_H_STATE.state (Table 5-3). -/
def State.heatSt (s : State) (h : Nat) : Nat := s.get (F.HEAT_H_STATE_state h)

/-- Whether the heat exists: not free. -/
def State.heatExists (s : State) (h : Nat) : Bool := s.heatSt h != 0

/-- Active geometry of a heat. -/
def State.geomA (s : State) (h : Nat) : Nat := s.rd (R.HEAT_H_AGEOM h)

/-- The heat that owns a block (R187). -/
def State.blockOwner (s : State) (b : Nat) : Option Nat :=
  (List.range 32).find? fun h => s.heatExists h && geomHas (s.geomA h) b

/-- The heat that owns a core site or router (R188). -/
def State.coreOwner (s : State) (k : Nat) : Option Nat := s.blockOwner (blockOf k)

/-- Core sites of a rectangle. -/
def geomCores (g : Nat) : List Nat := (List.range 2048).filter fun k => geomHas g (blockOf k)

/-- Core sites of a heat. -/
def State.heatCores (s : State) (h : Nat) : List Nat :=
  if geomNone (s.geomA h) then [] else geomCores (s.geomA h)

def State.fenced (s : State) (k : Nat) : Bool := s.fuse.fenced.contains k

/-- Routers of the attachments (Table 5-2): Baton ports 0 to 11. -/
def batonSite (p : Nat) : Nat :=
  coreAt (List.getD [7, 15, 23, 39, 47, 55] (p % 6) 7) (if p < 6 then 0 else 31)

/-- Host attachments 0 and 1. -/
def hostSite (a : Nat) : Nat := coreAt 0 (15 + a)

/-- Reserve controllers 0 to 7. -/
def reserveSite (r : Nat) : Nat := coreAt 63 (List.getD [2, 6, 10, 14, 17, 21, 25, 29] r 2)

/-- HEAT_H_ATT of a rectangle (Table 5-8). -/
def attOf (g : Nat) : Nat :=
  let bit (i k : Nat) : Nat := if geomHas g (blockOf k) then p2 i else 0
  ((List.range 12).map (fun p => bit p (batonSite p))).sum +
    ((List.range 2).map (fun a => bit (12 + a) (hostSite a))).sum +
    ((List.range 8).map (fun r => bit (14 + r) (reserveSite r))).sum + bit 22 0

/-- Slice number to stack and pseudo-channel (R148). -/
def sliceStack (n : Nat) : Nat × Nat :=
  let rr := n / 16
  let rc := n % 16
  (2 * ((rr / 8) * 2 + rc / 8) + rc % 8 / 4, (rr % 8) * 4 + rc % 8 % 4)

/-- Whether heat `h` owns Baton port `p`, host attachment `a`, reserve controller `r`. -/
def State.ownsPort (s : State) (h p : Nat) : Bool := geomHas (s.geomA h) (blockOf (batonSite p))
def State.ownsHost (s : State) (h a : Nat) : Bool := geomHas (s.geomA h) (blockOf (hostSite a))
def State.ownsReserve (s : State) (h r : Nat) : Bool := geomHas (s.geomA h) (blockOf (reserveSite r))

/-- The heat-local rank of a core: the active, valid entry of the rank table (R84). -/
def State.rankOf (s : State) (k : Nat) : Option Nat :=
  if s.getA (F.HAL_RANK_valid k) = 1 then some (s.getA (F.HAL_RANK_rank k)) else none

/-! ### Records kept in tables -/

def State.core (s : State) (k : Nat) : Core := Tab.get (Core.blank k) s.cores k
def State.setCore (s : State) (k : Nat) (c : Core) : State := { s with cores := Tab.put k c s.cores }
def State.modCore (s : State) (k : Nat) (f : Core → Core) : State := s.setCore k (f (s.core k))
def State.heat (s : State) (h : Nat) : HeatRec := Tab.get HeatRec.blank s.heats h
def State.modHeat (s : State) (h : Nat) (f : HeatRec → HeatRec) : State :=
  { s with heats := Tab.put h (f (s.heat h)) s.heats }
def State.halH (s : State) (h : Nat) : HalHeat := Tab.get HalHeat.blank s.hal h
def State.modHal (s : State) (h : Nat) (f : HalHeat → HalHeat) : State :=
  { s with hal := Tab.put h (f (s.halH h)) s.hal }
def State.relH (s : State) (h : Nat) : RelSt := Tab.get RelSt.blank s.rel h
def State.modRel (s : State) (h : Nat) (f : RelSt → RelSt) : State :=
  { s with rel := Tab.put h (f (s.relH h)) s.rel }
def State.port (s : State) (p : Nat) : BtnPort := Tab.get BtnPort.blank s.btn p
def State.modPort (s : State) (p : Nat) (f : BtnPort → BtnPort) : State :=
  { s with btn := Tab.put p (f (s.port p)) s.btn }
def State.send (s : State) (o : Out) : State := { s with outbox := o :: s.outbox }

/-- Apply an update for each element of a list, in order. -/
def State.each {α : Type} (s : State) : List α → (State → α → State) → State
  | [], _ => s
  | a :: as, f => State.each (f s a) as f

/-! ### Free values (log entry 1) -/

/-- A value the spec leaves open: the next free value, of `n` bits. -/
def State.draw (s : State) (n : Nat) : BitVec n × State :=
  ((Config.free s.freeCtr).setWidth n, { s with freeCtr := s.freeCtr + 1 })

/-- A measurement of the outside world: sensor kind `k`. -/
def State.sense (s : State) (k : Nat) : Nat × State :=
  ((Config.sensor k s.freeCtr).toNat, { s with freeCtr := s.freeCtr + 1 })

/-! ### Module memory -/

/-- Base of a core's scratchpad in the module address map (Table 9-1). -/
def spBase (k : Nat) : Nat := 0x100000000000 + k * 0x100000

/-- Bytes of a scratchpad. -/
def spSize : Nat := 0xC0000

def State.readMem (s : State) (a n : Nat) : List Byte := Cells.getList s.mem.cells a n
def State.writeMem (s : State) (a : Nat) (bs : List Byte) : State :=
  { s with mem := { s.mem with cells := Cells.putList a bs s.mem.cells } }

/-- Little-endian number of `n` bytes of a core's scratchpad (R11). -/
def State.spRead (s : State) (k off n : Nat) : Nat := leNat (s.readMem (spBase k + off) n)

/-! ### Express frames and the console tunnel (R489, R491, Table 11-4) -/

/-- Ports that are up (BTN_P_STATUS.state, R501). -/
def State.portUp (s : State) (p : Nat) : Bool := s.get (F.BTN_P_STATUS_state p) == 5

/-- Hand an express frame to a port: kind 0 Halyard, 1 safety, 2 link management, 3 console tunnel. While the peer or
this port shows nr, all but link management is discarded and counted (R489, R500). -/
def State.express (s : State) (p kind : Nat) (flits : List Flit) : State :=
  if kind ≠ 2 && (s.on (F.BTN_P_STATUS_peer_nr p) || s.on (F.BTN_P_STATUS_local_nr p)) then
    s.bump (F.BTN_P_CNT_NRDROP_count p)
  else s.modPort p fun b => { b with exQ := Tab.put kind (Tab.get [] b.exQ kind ++ [flits]) b.exQ }

/-- This module's address: x + X y + X Y z (R505). -/
def State.selfAddr (s : State) : Nat :=
  let xd := s.get F.BTN_TOPO_xd_m1 + 1
  s.get F.BTN_TOPO_x + xd * s.get F.BTN_TOPO_y + xd * (s.get F.BTN_TOPO_yd_m1 + 1) * s.get F.BTN_TOPO_z

/-- The port on which a tunnel frame to a module leaves: X, then Y, then Z, the shorter way, positive when equal, on the
lower port of the pair that is up. -/
def State.tunnelPort (s : State) (dest : Nat) : Option Nat :=
  let xd := s.get F.BTN_TOPO_xd_m1 + 1
  let yd := s.get F.BTN_TOPO_yd_m1 + 1
  let zd := s.get F.BTN_TOPO_zd_m1 + 1
  let way (axis here there n : Nat) : Option Nat :=
    let d := (there + n - here) % n
    if d = 0 then none else some (4 * axis + (if 2 * d ≤ n then 0 else 2))
  let base := (way 0 (s.get F.BTN_TOPO_x) (dest % xd) xd).orElse fun _ =>
    (way 1 (s.get F.BTN_TOPO_y) (dest / xd % yd) yd).orElse fun _ => way 2 (s.get F.BTN_TOPO_z) (dest / (xd * yd) % zd) zd
  match base with
  | none => none
  | some b => if xd * yd * zd ≤ dest then none else if s.portUp b then some b else if s.portUp (b + 1) then some (b + 1) else none

/-- The frames of a console tunnel that carry some bytes, at most 480 in each. -/
def tunnelFlits (src dst sess : Nat) : Nat → List Byte → List (List Flit)
  | 0, _ => []
  | n + 1, bs =>
    if bs.isEmpty then []
    else
      let here := bs.take 480
      let head := BitVec.ofNat 256 (src + dst * p2 10 + sess * p2 20 + here.length * p2 22)
      let flits := (List.range ((here.length + 31) / 32)).map fun i => BitVec.ofNat 256 (leNat ((here.drop (32 * i)).take 32))
      (head :: flits) :: tunnelFlits src dst sess n (bs.drop 480)

/-- Send bytes to a module through the console tunnel, where a route is up. -/
def State.tunnelSend (s : State) (dst sess : Nat) (bs : List Byte) : State :=
  match s.tunnelPort dst with
  | some p => s.each (tunnelFlits s.selfAddr dst sess 3 bs) fun s f => s.express p 3 f
  | none => s

/-! ### Console output (R678 to R683, R696, R699) -/

/-- One step of the CRC-8 with polynomial 0x07. -/
def crc8Byte (crc b : Nat) : Nat :=
  (List.range 8).foldl (fun c _ => if 128 ≤ c then ((c * 2) % 256) ^^^ 7 else c * 2) (crc ^^^ b)

/-- CRC-8 of a list of byte values, initial value 0 (R676). -/
def crc8 (bs : List Nat) : Nat := bs.foldl crc8Byte 0

/-- The generated form of a reply line under a tag (R678). -/
def genLine (tag text : String) : String :=
  let body := tag ++ " " ++ text
  "#" ++ body ++ " *" ++ hexN 2 (crc8 (body.toList.map Char.toNat))

def State.session (s : State) (i : Nat) : Option Session := Tab.find s.con.sess i

/-- Free bytes of a session's output (Table 16-12, Table 16-13). -/
def State.outFree (s : State) (x : Session) : Nat :=
  match x.ep with
  | .mailbox pf =>
    let m := Tab.get Mailbox.blank s.con.mail pf.val
    32768 - (m.outProd + p2 32 - m.outCons) % p2 32
  | .tunnel _ _ => 16384
  | _ => 16384 - x.out.length

/-- The bytes of a text and CR LF. -/
def lineBytes (t : String) : List Byte := (t.toList.map fun c => BitVec.ofNat 8 c.toNat) ++ [13, 10]

def State.modMail (s : State) (pf : Nat) (f : Mailbox → Mailbox) : State :=
  { s with con := { s.con with mail := Tab.put pf (f (Tab.get Mailbox.blank s.con.mail pf)) s.con.mail } }

/-- Standby time in fc: 1,200,000 in each ms. -/
def State.standbyFc (s : State) : Nat := s.boot.ms * 1200000 + s.boot.sub

/-- Signal vector 0 of a function, at most once in each 10 µs, 12,000 fc: a signal that is due sooner waits (R703). -/
def State.mailSignal (s : State) (pf : Nat) : State :=
  let m := Tab.get Mailbox.blank s.con.mail pf
  if bitsOf m.hctl 1 1 = 0 then s.modMail pf fun m => { m with irqDue := false }
  else if m.irqAt.any fun t => decide (s.standbyFc < t + 12000) then s.modMail pf fun m => { m with irqDue := true }
  else (s.modMail pf fun m => { m with irqAt := some s.standbyFc, irqDue := false }).send (.msix pf 0)

/-- Output of a session finds no room: a mailbox notes since when (R704). -/
def State.noRoom (s : State) (x : Session) : State :=
  match x.ep with
  | .mailbox pf => s.modMail pf.val fun m => { m with fullMs := some (m.fullMs.getD s.boot.ms) }
  | _ => s

/-- Write the bytes of one line into a mailbox's output ring, and signal vector 0 (R703). -/
def State.ringOut (s : State) (pf : Nat) (bs : List Byte) : State :=
  let m := Tab.get Mailbox.blank s.con.mail pf
  let ring := (bs.zipIdx).foldl (fun r p => Tab.put ((m.outProd + p.2) % 32768) p.1 r) m.outRing
  let n := (m.outProd + bs.length + p2 32 - m.outCons) % p2 32
  let full := if n < 32768 then m.fullMs else some (m.fullMs.getD s.boot.ms)
  (s.modMail pf fun m => { m with outRing := ring, outProd := (m.outProd + bs.length) % p2 32, fullMs := full }).mailSignal pf

/-- Put bytes into a session's output. -/
def State.putBytes (s : State) (i : Nat) (bs : List Byte) : State :=
  match s.session i with
  | none => s
  | some x =>
    match x.ep with
    | .mailbox pf => s.ringOut pf.val bs
    | .tunnel m n => s.tunnelSend m n bs
    | _ => { s with con := { s.con with sess := Tab.put i { x with out := x.out ++ bs } s.con.sess } }

/-- Put one line into a session's output. -/
def State.putLine (s : State) (i : Nat) (t : String) : State := s.putBytes i (lineBytes t)

/-- A session closes: its claim, its buffered input and its unsent output are lost; a transfer it began ends with it; the
replies it waited for are discarded (R668, R688). -/
def State.closeSession (s : State) (i : Nat) : State :=
  match s.session i with
  | none => s
  | some x =>
    let con := { s.con with
      sess := Tab.del i s.con.sess
      queue := s.con.queue.filter fun q => q.sess != i
      claim := if s.con.claim = some i then none else s.con.claim
      orphans := (if s.con.routed.any fun r => some r.line == x.line then [] else x.line.toList) ++ s.con.orphans
      routed := s.con.routed.map fun r => if r.line.sess.val = i then { r with dead := true } else r
      transfer := s.con.transfer.filter fun t => t.sess != i }
    let s := { s with con := con }
    match x.ep with
    | .mailbox pf =>
      let m := Tab.get Mailbox.blank s.con.mail pf.val
      { s with con := { s.con with mail := Tab.put pf.val { m with mstat := m.mstat - bitsOf m.mstat 0 3 } s.con.mail } }
    | _ => s

/-- Tunnel sessions whose route is down close (R668). -/
def State.tunnelClose (s : State) : State :=
  s.each (List.range 4) fun s i =>
    match s.session i with
    | some x =>
      match x.ep with
      | .tunnel m _ => if (s.tunnelPort m).isNone then s.closeSession i else s
      | _ => s
    | none => s

/-- The form a session's asynchronous lines take (R680). -/
def Session.generated (x : Session) : Bool :=
  match x.form with
  | .typed => false
  | .generated => true
  | .auto => x.lastGen

/-- An asynchronous line to one session: dropped and counted where it does not fit (R699). -/
def State.asyncTo (s : State) (i : Nat) (text : String) : State :=
  match s.session i with
  | none => s
  | some x =>
    let t := if x.generated then genLine "E" text else text
    if t.length + 2 ≤ s.outFree x && x.paused.isEmpty && x.dropped == 0 then s.putLine i t
    else
      let s := { s with con := { s.con with sess := Tab.put i { x with dropped := x.dropped + 1 } s.con.sess } }
      match x.ep with
      | .mailbox pf =>
        (s.modMail pf.val fun m => { m with lost := min (m.lost + 1) (p2 32 - 1) }).noRoom x
      | _ => s

/-- An EVT line of a level to every session that takes it (Table 16-9). -/
def State.evt (s : State) (level : Nat) (text : String) : State :=
  s.each (List.range 4) fun s i =>
    match s.session i with
    | some x => if level ≤ x.events then s.asyncTo i text else s
    | none => s

/-- The prompt of typed sessions (R675). -/
def prompt : List Byte := "TQ4> ".toList.map fun c => BitVec.ofNat 8 c.toNat

/-- Lines and prompts of a reply into a session, paused where they do not fit (R699). -/
def State.replyBytes (s : State) (i : Nat) : List (List Byte) → State
  | [] => s
  | t :: ts =>
    match s.session i with
    | none => s
    | some x =>
      if t.length ≤ s.outFree x && x.paused.isEmpty then State.replyBytes (s.putBytes i t) i ts
      else ({ s with con := { s.con with sess := Tab.put i { x with paused := x.paused ++ (t :: ts) } s.con.sess } } : State).noRoom x

/-- A session's line has finished when its final line stands in the output (R691). -/
def State.lineEnds (s : State) (i : Nat) : State :=
  match s.session i with
  | none => s
  | some x => { s with con := { s.con with sess := Tab.put i { x with line := if x.paused.isEmpty then none else x.line } s.con.sess } }

/-- Answer a console line: data lines, then the final line; the session's line has then finished (R681, R691). -/
def State.reply (s : State) (l : Line) (datas : List String) (final : String) : State :=
  let i := l.sess.val
  if s.con.orphans.contains l then { s with con := { s.con with orphans := s.con.orphans.erase l } }
  else
  match s.session i with
  | none => s
  | some x =>
    let form (t : String) := match l.gen with
      | some (tag, _) => genLine tag t
      | none => t
    let ps := if l.gen.isNone && x.echo then [prompt] else []
    (s.replyBytes i ((datas ++ [final]).map (fun t => lineBytes (form t)) ++ ps)).lineEnds i

/-- Keep a generated class C line's final reply (R679): the last 8. -/
def State.keepReply (s : State) (l : Line) (final : String) : State :=
  match l.gen, s.session l.sess.val with
  | some (tag, crc), some x =>
    let k : Kept := { tag := tag, crc := crc, final := final, ms := s.boot.ms }
    if s.con.orphans.contains l then s else { s with con := { s.con with sess := Tab.put l.sess.val { x with kept := (k :: x.kept).take 8 } s.con.sess } }
  | _, _ => s

/-- The final line of a class C command. -/
def State.replyC (s : State) (l : Line) (datas : List String) (final : String) : State :=
  (s.keepReply l final).reply l datas final

/-- A sequence of lines that a typed prompt follows is one reply; `OK` is its final line where nothing failed. -/
def State.ok (s : State) (l : Line) (datas : List String) : State := s.reply l datas "OK"
def State.okC (s : State) (l : Line) (datas : List String) : State := s.replyC l datas "OK"

/-! ### The release queue's discards (R609 to R612) -/

/-- Discard held entries of a heat that meet a test, with a status and a cause lap; counts HEAT_H_REL_CNT_DISC. -/
def State.discardHeld (s : State) (h status cause : Nat) (p : RelEnt → Bool) : State :=
  let r := s.relH h
  let hit (e : RelEnt) : Bool := e.state == 1 && e.status == 0 && p e
  let n := (r.ents.filter hit).length
  let s := s.modRel h fun r =>
    { r with ents := r.ents.map fun e => if hit e then { e with status := status, cause := cause } else e }
  if n = 0 then s else s.bump (F.HEAT_H_REL_CNT_DISC_count h) n

/-! ### Heat states and halts -/

def heatStateName (n : Nat) : String :=
  List.getD ["free", "stopped", "starting", "running", "recalling", "draining", "halted", "resetting"] n "free"

/-- Change HEAT_H_STATE.state, with the EVT line of Table 16-9. -/
def State.setHeatSt (s : State) (h st : Nat) : State :=
  if s.heatSt h = st then s
  else
    let s := s.put (F.HEAT_H_STATE_state h) st
    let cause := s.get (F.HEAT_H_STATE_cause h)
    s.evt (if st = 6 then 1 else 2)
      ("EVT heat " ++ s.posText ++ " id=" ++ toString h ++ " state=" ++ heatStateName st ++
        (if cause = 0 then "" else " cause=" ++ toString cause))

/-- Running, recalling or draining (HEAT_RUN). -/
def heatLive (st : Nat) : Bool := st == 3 || st == 4 || st == 5

/-- Starting, running, recalling or draining: the states a WS write is refused in (R21). -/
def heatBusy (st : Nat) : Bool := st == 2 || heatLive st

/-- cc of a region's clock in `fc` cycles of the fabric. -/
def State.ccIn (s : State) (k fc : Nat) : Nat := fc * Tab.get MeshSt.nominalClk s.mesh.clk (regionOf k) / 1200

/-- A core stops issue at a step boundary, its state kept: the next instruction, or the next cc of a WAIT (R275; log entry
13). -/
def State.haltCore (s : State) (k : Nat) : State :=
  let c := s.core k
  match c.run with
  | .running => s.setCore k { c with run := .halted }
  | .waiting => s.setCore k { c with run := .halted, step := s.ccIn k (s.now - c.waitFrom) % 512 }
  | _ => s

/-- Halt every core of a heat. -/
def State.haltCores (s : State) (h : Nat) : State :=
  s.each ((s.heatCores h).filter fun k => (Tab.find s.cores k).isSome) State.haltCore

/-- A heat's state becomes halted: from starting, running, recalling or draining, a start or recall cancelled, with its
cause; waiting console lines are answered (Table 5-4, Table 17-5; log entry 20). -/
def State.heatHalted (s : State) (h cause : Nat) : State :=
  if heatBusy (s.heatSt h) then
    let r := s.heat h
    let s := s.put (F.HEAT_H_STATE_cause h) cause
    let s := s.put48 (F.HEAT_H_STOP_LO_lap_lo h) (F.HEAT_H_STOP_HI_lap_hi h) s.lapN
    let s := (s.flag F.HEAT_EVT_halted).setHeatSt h 6
    let s := s.modHeat h fun r => { r with start := none, recallAt := none, drain := none, stopLines := [] }
    let lines := (match r.start with | some (_, _, some l) => [l] | _ => []) ++ r.stopLines
    s.each lines fun s l => s.replyC l [] "ERR 0335 HEAT HALTED"
  else s

/-- A heat halts with every core of it. -/
def State.haltHeat (s : State) (h cause : Nat) : State :=
  if heatBusy (s.heatSt h) then (s.haltCores h).heatHalted h cause else s

/-! ### The start journal (R651 to R658) -/

/-- One step of the CRC-32 of IEEE 802.3, least significant bit first. -/
def crc32Byte (crc b : Nat) : Nat :=
  (List.range 8).foldl (fun c _ => if c % 2 = 1 then (c / 2) ^^^ 0xEDB88320 else c / 2) (crc ^^^ b)

/-- CRC-32 of IEEE 802.3 (Table 15-7). -/
def crc32 (bs : List Nat) : Nat := (bs.foldl crc32Byte 0xFFFFFFFF) ^^^ 0xFFFFFFFF

/-- The words of a log entry (Table 13-8). -/
def LogEntry.words (e : LogEntry) : List Nat :=
  let pen := match e.pen with | .yellow => 1 | .red => 2 | .black => 3
  let heat := match e.heat with | some h => h * p2 16 + p2 21 | none => 0
  [e.code + pen * p2 12 + e.injected.toNat * p2 14 + e.taint.toNat * p2 15 + heat, e.site + e.detail * p2 16,
    e.lap % p2 32, e.lap / p2 32 + e.fc / 128 * p2 16, e.fc % 128 + e.seq * p2 16, e.flap % p2 32, e.flap / p2 32,
    e.repeats]

/-- Erased bytes. -/
def erased (n : Nat) : List Byte := List.replicate n 0xFF

/-- A journal slot as stored; an erased one reads all ones. -/
def State.jSlot (s : State) (i : Nat) : List Byte := Tab.get (erased 256) s.boot.journal i

/-- A little-endian number in an entry. -/
def jNum (e : List Byte) (off n : Nat) : Nat := leNat ((e.drop off).take n)

/-- CRC-8 over bytes `a` to `b` of an entry. -/
def jCrc (e : List Byte) (a b : Nat) : Nat := crc8 (((e.take (b + 1)).drop a).map (·.toNat))

/-- R651. -/
def jValid (e : List Byte) : Bool := jNum e 0 4 == 0x4C4E524A && jCrc e 0 30 == jNum e 31 1

/-- Sequence number `a` is newer than `b`, modulo 2^32 within 2^31. -/
def seqNewer (a b : Nat) : Bool := a != b && decide ((a + p2 32 - b) % p2 32 < p2 31)

/-- Valid entries: slot, sequence number, bytes. -/
def State.jEntries (s : State) : List (Nat × Nat × List Byte) :=
  (s.boot.journal.filter fun e => jValid e.2).map fun e => (e.1, jNum e.2 4 4, e.2)

/-- The newest of some entries. -/
def jNewest (l : List (Nat × Nat × List Byte)) : Option (Nat × Nat × List Byte) :=
  l.foldl (fun a e => match a with | none => some e | some b => if seqNewer e.2.1 b.2.1 then some e else a) none

/-- Entries, newest first. -/
def jSorted (l : List (Nat × Nat × List Byte)) : List (Nat × Nat × List Byte) :=
  let ins (e : Nat × Nat × List Byte) (t : List (Nat × Nat × List Byte)) : List (Nat × Nat × List Byte) :=
    t.takeWhile (fun x => seqNewer x.2.1 e.2.1) ++ e :: t.dropWhile (fun x => seqNewer x.2.1 e.2.1)
  l.foldr ins []

/-- An entry with its header (Table 15-7) and a body of 224 bytes, short bodies filled with ones. -/
def State.jEntry (s : State) (seq kind : Nat) (body : List Byte) : List Byte :=
  let body := (body ++ erased 224).take 224
  let bcrc := if kind = 1 then 0xFFFFFFFF else crc32 (body.map (·.toNat))
  let head := leBytes 0x4C4E524A 4 ++ leBytes seq 4 ++ leBytes kind 1 ++ erased 3 ++ leBytes s.boot.bootCount 4 ++
    leBytes s.boot.t0 6 ++ leBytes s.boot.epoch 2 ++ leBytes bcrc 4 ++ erased 3
  head ++ leBytes (crc8 (head.map (·.toNat))) 1 ++ body

/-- STA_JHEAD: the slot and sequence number of the newest valid entry, and the next slot. -/
def State.jHead (s : State) : State :=
  match jNewest s.jEntries with
  | some (slot, seq, _) =>
    ((s.put F.STA_JHEAD_head ((slot + 1) % 256)).put F.STA_JHEAD_newest slot).put F.STA_JHEAD_seq (seq % 65536)
  | none => s.wr R.STA_JHEAD 0

/-- Erase a sector of 16 slots; no background erase is then in progress. -/
def State.jErase (s : State) (sector : Nat) : State :=
  { s with boot := { s.boot with journal := s.boot.journal.filter fun e => e.1 / 16 != sector % 16, jErased := true } }

/-- Store an entry's bytes at a slot. -/
def State.jPut (s : State) (slot : Nat) (e : List Byte) : State :=
  { s with boot := { s.boot with journal := Tab.put slot e s.boot.journal } }

/-- Slot and sequence number of the next entry. -/
def State.jNext (s : State) : Nat × Nat :=
  match jNewest s.jEntries with
  | some (slot, seq, _) => ((slot + 1) % 256, (seq + 1) % p2 32)
  | none => (0, 0)

/-- A slot is ready for a write: a background erase of its sector in progress ends first. -/
def State.jReady (s : State) (slot : Nat) : State :=
  if slot % 16 = 0 && !s.boot.jErased then s.jErase (slot / 16) else s

/-- Where the next write fills a sector and the sector to be erased then holds the current boot's entry, that entry is
copied there first, with a new sequence number, and the sector erased (R657). -/
def State.jCarry (s : State) : State :=
  let (slot, seq) := s.jNext
  match s.boot.slotEntry with
  | some b =>
    if slot % 16 = 15 && b / 16 = (slot / 16 + 1) % 16 then
      let e := s.jSlot b
      let head := e.take 4 ++ leBytes seq 4 ++ (e.drop 8).take 23
      let s := s.jPut slot (head ++ leBytes (crc8 (head.map (·.toNat))) 1 ++ e.drop 32)
      { s.jErase (slot / 16 + 1) with boot := { (s.jErase (slot / 16 + 1)).boot with slotEntry := some slot } }
    else s
  | none => s

/-- Write a new entry at the slot after the newest valid one; filling a sector begins the erase of the next (R655).
Nothing is written where the flash cannot be. -/
def State.jWrite (s : State) (kind : Nat) (body : List Byte) : State :=
  if s.boot.jReadOnly then s
  else
    let s := s.jCarry
    let (slot, seq) := s.jNext
    let s := s.jReady slot
    let s := s.jPut slot (s.jEntry seq kind body)
    let s := if slot % 16 = 15 then { s with boot := { s.boot with jErased := false } } else s
    (if kind = 1 then { s with boot := { s.boot with slotEntry := some slot } } else s).jHead

/-- Program bytes of the current boot's entry. -/
def State.jProgram (s : State) (off : Nat) (bs : List Byte) : State :=
  match s.boot.slotEntry with
  | some b =>
    if s.boot.jReadOnly then s
    else
      let e := s.jSlot b
      s.jPut b (e.take off ++ bs ++ e.drop (off + bs.length))
  | none => s

/-- Byte of step `n`'s record in a boot entry (R652). -/
def stepAt (n : Nat) : Nat := 32 + 8 * (n - 1)

/-- The bytes of a step record (Table 15-8). -/
def stepBytes (outcome alt units ms detail : Nat) : List Byte :=
  let b := leBytes outcome 1 ++ leBytes alt 1 ++ leBytes (min units 255) 1 ++ leBytes (min ms 65535) 2 ++ leBytes detail 1
  b ++ leBytes (crc8 (b.map (·.toNat))) 1

/-- Write the boot entry, the boot count one above that of the newest boot entry (R652); the count restarts at 1 in an
empty ring. -/
def State.jBoot (s : State) : State :=
  let old := (jSorted s.jEntries).find? fun e => jNum e.2.2 8 1 == 1
  let n := match old with
    | some e => (jNum e.2.2 12 4 + 1) % p2 32
    | none => 1
  let s := { s with boot := { s.boot with bootCount := n } }
  let s := (s.wr R.STA_BOOTCNT n).put F.STA_BOOT_boot (n % 4096)
  let s := s.jWrite 1 []
  if s.boot.jReadOnly then s.put F.STA_DEGR_journal_ro 1 else s

/-- Program the end record, once, with what the boot leaves out of service (Table 15-8). A boot that ends before S-04 has
its entry written first (log entry 51). -/
def State.endRecord (s : State) (kind : Nat) : State :=
  let s := if s.boot.slotEntry.isNone then s.jBoot else s
  match s.boot.slotEntry with
  | none => s
  | some b =>
    if jNum (s.jSlot b) 184 1 = 0 then s
    else
      let e := leBytes kind 1 ++ leBytes (s.get F.STA_BOOT_step) 1 ++ erased 1 ++ leBytes (min s.boot.now 65535) 2 ++ erased 1
      let cores := ((List.range 64).map fun n => ((List.range 32).map fun i => bitsOf (s.rd (R.STA_OOSC n)) i 1).sum).sum
      let out (n : Nat) : Bool := bitsOf (s.rd (R.STA_OOSS (n / 32))) (n % 32) 1 == 1
      let stackBits := ((List.range 8).map fun st =>
        if (List.range 256).any fun n => (sliceStack n).1 == st && out n then p2 st else 0).sum
      let flags := s.boot.reducedRel.toNat + (1 - s.get F.STA_BOOT_link) * 2 + s.get F.STA_DEGR_free_run * 4 +
        s.get F.STA_DEGR_journal_new * 8 + s.boot.recovery.toNat * 16 + 224
      let t := leBytes cores 2 ++ leBytes stackBits 1 ++ leBytes (s.get F.STA_OOSX_ctrl) 1 ++
        leBytes (s.get F.STA_OOSX_ports + 0xF000) 2 ++ leBytes flags 1 ++ erased 1 ++
        (if kind = 1 then leBytes s.lapN 6 else erased 6) ++ erased 48
      s.jProgram 184 (leBytes 0 1 ++ e ++ leBytes (crc8 (e.map (·.toNat))) 1 ++ t ++ leBytes (crc8 (t.map (·.toNat))) 1)

/-- Pennant entries for the red and black log entries not yet written, seven in each (R654); none before S-04. -/
def State.jPennants (s : State) : Nat → State
  | 0 => s
  | n + 1 =>
    if s.mar.toJournal.isEmpty || s.boot.slotEntry.isNone then s
    else
      let now (e : LogEntry) : LogEntry := ((s.mar.log.map (·.2)).find? fun x => x.seq == e.seq && x.code == e.code).getD e
      let body := (((s.mar.toJournal.take 7).map now).flatMap LogEntry.words).flatMap fun w => leBytes w 4
      let s := s.jWrite 2 body
      State.jPennants { s with mar := { s.mar with toJournal := s.mar.toJournal.drop 7 } } n

/-- Words of MGT_ALERT's boot source (Table 18-5). -/
def State.alertBoot (s : State) : State := s.raise R.MGT_ALERT 8

/-- A bit of MGT_STATUS that is an alert source of the port (Table 18-5). -/
def State.mgtFlag (s : State) (f : Fld) : State := (s.flag f).raise R.MGT_ALERT 32

/-- The words in the management port's write queue are discarded (R751). -/
def State.mgtDiscard (s : State) : State :=
  if s.mgt.queue.isEmpty then s
  else { s.mgtFlag F.MGT_STATUS_early with mgt := { s.mgt with queue := [], fetch := s.mgt.fetch.map fun f => (f.1, f.2.1, 0) } }

/-! ### Pennants (R563 to R566, R584) -/

def penCode : Pen → Nat
  | .yellow => 1
  | .red => 2
  | .black => 3

def penName : Pen → String
  | .yellow => "yellow"
  | .red => "red"
  | .black => "black"

/-- The `EVT pennant` fields of a log entry (Table 16-9). -/
def pennantText (e : LogEntry) : String :=
  "pennant " ++ posFcStr e.lap (e.fc / 128) (e.fc % 128) ++ " colour=" ++ penName e.pen ++ " code=0x" ++
    hexN 3 e.code ++ (match e.heat with | some h => " heat=" ++ toString h | none => "") ++ " site=" ++
    toString e.site ++ (if e.pen = .yellow then "" else " lf=" ++ toString e.flap) ++ " seq=0x" ++ hexN 4 e.seq ++
    (if e.injected then " injected=1" else "") ++ (if e.repeats = 0 then "" else " repeats=" ++ toString e.repeats)

/-- What a checker or event reports to the log. -/
structure Report where
  code : Nat
  heat : Option Nat := none
  site : Nat := 0
  detail : Nat := 0
  flap : Nat := 0
  injected : Bool := false
  taint : Bool := false
  deriving DecidableEq, Repr

/-- The lap that contains the present position less a look-back in fc (R557). -/
def State.lapBack (s : State) (fc : Nat) : Nat := (s.now - fc) / lapFc

/-- The log entry of a report at the present position; an injection's event is marked (R590). -/
def State.entryOf (s : State) (p : Pen) (r : Report) : LogEntry :=
  ⟨r.code, p, r.injected || s.mar.inj.contains (r.code, r.heat), r.taint, r.heat, r.site % 65536, r.detail % 65536, s.lapN, s.pos.toNat, s.get F.MAR_LOG_HEAD_seq,
    if p = .yellow then 0 else r.flap, 0⟩

/-- Enter an event into the Marshal's log: a repeat of the newest entry in the same lap adds to its repeats, else a
new entry with its EVT line, its alert bit and, red or black, its journal copy (R584, R654, Table 18-5). -/
def State.logEvent (s : State) (pen : Pen) (r : Report) : State :=
  let next := s.get F.MAR_LOG_HEAD_next
  let newest := Tab.find s.mar.log ((next + 1023) % 1024)
  let merged := match newest with
    | some e => e.code == r.code && e.pen == pen && e.heat == r.heat && e.site == r.site && e.lap == s.lapN
    | none => false
  match newest, merged with
  | some e, true =>
    let e' := { e with repeats := min (e.repeats + 1) (p2 32 - 1) }
    { s with mar := { s.mar with log := Tab.put ((next + 1023) % 1024) e' s.mar.log } }
  | _, _ =>
    let e := s.entryOf pen r
    let j := if pen = .yellow then s.mar.toJournal else s.mar.toJournal ++ [e]
    let inj := s.mar.inj.erase (r.code, r.heat)
    let s := { s with mar := { s.mar with log := Tab.put next e s.mar.log, toJournal := j, inj := inj } }
    let s := (s.put F.MAR_LOG_HEAD_next ((next + 1) % 1024)).put F.MAR_LOG_HEAD_seq ((e.seq + 1) % 65536)
    let s := s.raise R.MGT_ALERT (p2 (penCode pen - 1))
    s.evt (if pen = .yellow then 2 else 1)
      ("EVT " ++ (if s.boot.step < 7 then
        "pennant -" ++ String.ofList ((pennantText e).toList.drop (8 + (posFcStr e.lap (e.fc / 128) (e.fc % 128)).length))
        else pennantText e))

/-- A yellow pennant: logged and counted, for the module and for its heat (R563). -/
def State.yellow (s : State) (r : Report) : State :=
  let s := (s.logEvent .yellow r).bump F.MAR_CNT_YELLOW_count
  let s := s.flag F.MAR_EVT_yellow
  match r.heat with
  | some h => s.bump (F.MAR_H_CNT_yellow h)
  | none => s

/-- Hold a failure for a heat: MAR_H_FAIL keeps the lowest lap (R561, Table 13-10). -/
def State.holdFail (s : State) (h lap : Nat) (f : Fld) : State :=
  let old := s.get48 (F.MAR_H_FAIL_LO_lap_lo h) (F.MAR_H_FAIL_HI_lap_hi h)
  let lap := if s.on (F.MAR_H_FAIL_HI_valid h) then min old lap else lap
  ((s.put48 (F.MAR_H_FAIL_LO_lap_lo h) (F.MAR_H_FAIL_HI_lap_hi h) lap).put (F.MAR_H_FAIL_HI_valid h) 1).put f 1

/-- MAR_H_FAIL's lap. -/
def State.failLap (s : State) (h : Nat) : Nat := s.get48 (F.MAR_H_FAIL_LO_lap_lo h) (F.MAR_H_FAIL_HI_lap_hi h)

/-- Hold a taint for a heat: recorded by the Halyard and the Marshal; entries stamped at or after it are discarded
(R128, R561, R611). -/
def State.holdTaint (s : State) (h lap : Nat) : State :=
  let s := (s.flag F.HAL_EVT_taint).bump F.HAL_CNT_TAINT_count
  let s := if s.on F.HAL_TAINT_HI_valid && decide (s.get48 F.HAL_TAINT_LO_lap_lo F.HAL_TAINT_HI_lap_hi ≤ lap) then s
    else ((s.put48 F.HAL_TAINT_LO_lap_lo F.HAL_TAINT_HI_lap_hi lap).put F.HAL_TAINT_HI_heat h).put F.HAL_TAINT_HI_valid 1
  let s := s.flag F.MAR_EVT_taint_in
  let held := Tab.get [] s.mar.taints h
  let s := { s with mar := { s.mar with taints := Tab.put h (lap :: held) s.mar.taints } }
  let lower := held.all fun t => decide (lap < t)
  if lower then
    let s := (s.holdFail h lap (F.MAR_H_FAIL_HI_taint h)).put (F.HEAT_H_STATE_resumable h) 0
    let red := s.on (F.MAR_H_FAIL_HI_red h)
    s.discardHeld h (if red then 1 else 2) (if red then s.failLap h else lap) fun e => decide (lap ≤ e.stamp)
  else s

/-- Hand a control block to a port, with its nominal send time in 1/16 fc since lap 0. -/
def State.ctlBlockAt (s : State) (p t : Nat) (f : Flit) : State :=
  s.modPort p fun b => { b with ctlQ := b.ctlQ ++ [(t, f)] }

/-- Hand a control block to a port, with the present position as its nominal send time. -/
def State.ctlBlock (s : State) (p : Nat) (f : Flit) : State := s.ctlBlockAt p (16 * s.now) f

/-- Flit 0 of a Halyard frame (Table 11-4). -/
def halFlit0 (src heat team low op status idx n : Nat) : Flit :=
  BitVec.ofNat 256 (src % 1024 + heat % 32 * p2 10 + team % 65536 * p2 15 + low % 2 * p2 31 + op % 16 * p2 32 +
    status % 16 * p2 36 + idx % 4096 * p2 40 + n % 32 * p2 52)

/-- Flit 0 of a taint record: op code 0xF with status 0 marks it (log entry 32). -/
def State.taintHead (s : State) (h low : Nat) : Flit := halFlit0 s.selfAddr h 0 low 0xF 0 0 1

/-- Flit 1 of a taint record (Table 11-4). -/
def taintFlit (h lap : Nat) : Flit := BitVec.ofNat 256 (lap % p2 48 + h * p2 48)

/-- Hand a taint record to a port, merged with one of its team that waits there: the lower lap is kept (R128). -/
def State.sendTaint (s : State) (p h low lap : Nat) : State :=
  let head := s.taintHead h low
  let q := Tab.get [] (s.port p).exQ 0
  if q.any fun f => f.headD 0 == head then
    let merge (f : List Flit) : List Flit :=
      if f.headD 0 = head then [head, taintFlit h (min lap ((f.getD 1 0).toNat % p2 48))] else f
    s.modPort p fun b => { b with exQ := Tab.put 0 (q.map merge) b.exQ }
  else s.express p 0 [head, taintFlit h lap]

/-- Baton ports toward a team heat's children. -/
def State.kids (s : State) (h : Nat) : List Nat :=
  (List.range 12).filter fun p => bitsOf (s.getA (F.HAL_H_TREE_children h)) p 1 == 1

/-- Lower a merged taint of a team heat to every child and to this module's own Marshal (R128). -/
def State.lowerTaint (s : State) (h lap : Nat) : State :=
  (s.each (s.kids h) fun s p => s.sendTaint p h 1 lap).holdTaint h lap

/-- Pass a taint toward the system masthead, which lowers it; a heat that has been reset sends nothing (R133). -/
def State.raiseTaint (s : State) (h lap : Nat) : State :=
  let parent := s.getA (F.HAL_H_TREE_parent_port h)
  if (s.halH h).flushed then s
  else if parent = 15 then s.lowerTaint h lap else s.sendTaint parent h 0 lap

/-- HEAT_H_STATE.cause of a red pennant's code (R564). -/
def redCause (code : Nat) : Nat := if code = 0x212 || code = 0x213 then 3 else if code = 0x211 then 4 else 1

/-- A red pennant (R564, R565, R610): for a heat that is free, or none, it is logged yellow; else it is counted, the
heat halts, its queue's held entries are discarded, resumable clears, and a team heat's taint is injected (R560). -/
def State.red (s : State) (r : Report) : State :=
  match r.heat with
  | none => s.yellow r
  | some h =>
    if s.heatSt h = 0 then s.yellow r
    else
      let team := s.getA (F.HAL_H_CFG_team h) = 1
      let s := s.logEvent .red { r with taint := team }
      let s := ((s.bump F.MAR_CNT_RED_count).bump (F.MAR_H_CNT_red h)).flag F.MAR_EVT_red
      let s := (s.holdFail h r.flap (F.MAR_H_FAIL_HI_red h)).put (F.HEAT_H_STATE_resumable h) 0
      let s := s.haltHeat h (redCause r.code)
      let s := s.discardHeld h 1 (s.failLap h) fun _ => true
      if team then s.raiseTaint h r.flap else s

/-- Whether the module is in the black safe state. -/
def State.black (s : State) : Bool := s.get F.MAR_STATUS_state == 5

/-- The flits of a team stop frame (Table 13-5). -/
def teamStopFlit (origin num teams lap : Nat) : Flit :=
  BitVec.ofNat 256 (origin * p2 4 + num * p2 14 + teams * p2 22 + lap * p2 86)

/-- Send one team stop frame that names teams on every port that is up (R579). -/
def State.teamStop (s : State) (teams lap : Nat) : State :=
  if teams = 0 then s
  else
    let f := teamStopFlit s.selfAddr s.mar.stopNum teams lap
    let s := s.each ((List.range 12).filter fun p => s.portUp p) fun s p => s.express p 1 [f]
    { s with mar := { s.mar with stopNum := (s.mar.stopNum + 1) % 256 } }

/-- Team bits of heats that meet a test. -/
def State.teamBits (s : State) (p : Nat → Bool) : Nat :=
  (List.range 32).foldl (fun acc h =>
    if p h && s.getA (F.HAL_H_CFG_team h) == 1 && s.getA (F.TEAM_H_CFG_en h) == 1 then
      Nat.lor acc (p2 (s.getA (F.TEAM_H_CFG_id h))) else acc) 0

/-- A black pennant (R566, Table 13-2): logged; found while already black, it changes nothing more. Every heat halts
with cause 5, queues freeze as lost and their unreleased results are discarded, teams that ran are stopped and told,
ports go down, FAULT_N is driven. -/
def State.blackPen (s : State) (r : Report) : State :=
  let was := s.black
  let s := ((s.logEvent .black r).jPennants 160).flag F.MAR_EVT_black
  let s := s.bump F.MAR_CNT_BLACK_count
  if was then s
  else
    let teams := s.teamBits fun h => s.heatSt h == 3
    let s := s.each (List.range 32) fun s h =>
      if s.heatSt h = 0 then s
      else
        let s := s.put (F.HEAT_H_STATE_resumable h) 0
        let s := s.holdFail h r.flap (F.MAR_H_FAIL_HI_red h)
        let s := if heatBusy (s.heatSt h) then s.haltHeat h 5
          else ((s.put (F.HEAT_H_STATE_cause h) 5).flag F.HEAT_EVT_halted).setHeatSt h 6
        let s := s.discardHeld h 1 (s.failLap h) fun _ => true
        s.put (F.HEAT_H_REL_STATUS_state h) 3
    let s := s.teamStop teams r.flap
    let s := s.each ((List.range 12).filter fun p => s.portUp p) fun s p =>
      (s.send (.express p 2 [1])).put (F.BTN_P_STATUS_state p) 1
    let s := ((s.put F.MAR_STATUS_state 5).put F.MAR_STATUS_fault_n 1).put F.STA_BOOT_fault_n 1
    let s := s.mgtDiscard
    let s := if s.boot.main && s.get F.STA_BOOT_state == 0 then (s.endRecord 6).jPennants 160 else s
    (s.put F.STA_BOOT_state 6).alertBoot

end Sys2Proof.Machine
end

