-- ==== Sys2Proof/Machine/Ecc.lean ====
section
/-! DEFINITION. The module address map and the errors of memory granules: what a read finds, what a write leaves
(R360, R362, R369, R380 to R382, Table 9-5). -/

namespace Sys2Proof.Machine

/-! ### The address map (Table 9-1) -/

/-- The memory an address lies in. -/
inductive MemUnit where
  | sp (core : Nat)
  | slice (n : Nat)
  | reserve (r : Nat)
  | far
  deriving DecidableEq, Repr

/-- Bytes of a slice. -/
def sliceSize : Nat := 0x48000000

def reserveBase : Nat := 0x10000000000
def reserveSize : Nat := 0x1800000000
def farBase : Nat := 0x80000000000

/-- The memory unit of an address; none where it is unmapped or a register. -/
def State.memUnit (s : State) (a : Nat) : Option MemUnit :=
  if a < 256 * sliceSize then some (.slice (a / sliceSize))
  else if reserveBase ≤ a && a < reserveBase + 8 * reserveSize then some (.reserve ((a - reserveBase) / reserveSize))
  else if farBase ≤ a && a < 2 * farBase then some .far
  else if spBase 0 ≤ a && a < spBase 2048 then
    let k := (a - spBase 0) / 0x100000
    if (a - spBase 0) % 0x100000 < spSize && !s.fenced k then some (.sp k) else none
  else none

/-- The router whose heat owns a unit: the core's, the port router's, the controller's. -/
def unitRouter : MemUnit → Option Nat
  | .sp k => some k
  | .slice n => some (coreAt (4 * (n % 16) + 1) (2 * (n / 16)))
  | .reserve r => some (reserveSite r)
  | .far => none

def State.unitOwner (s : State) (u : MemUnit) : Option Nat := (unitRouter u).bind s.coreOwner

/-- Number of a unit in the correction windows. -/
def unitKey : MemUnit → Nat
  | .sp k => k
  | .slice n => 2048 + n
  | .reserve r => 2304 + r
  | .far => 2312

/-- Class of an uncorrectable granule (Table 9-6). -/
def unitClass : MemUnit → Nat
  | .sp _ => 1
  | .slice _ => 2
  | .reserve _ => 3
  | .far => 9

/-- The pennants' site of a unit: its core, slice or controller. -/
def unitSite : MemUnit → Nat
  | .sp k => k
  | .slice n => n
  | .reserve r => r
  | .far => 0

/-! ### Errors -/

def State.mark (s : State) (g : Nat) : Nat := (Tab.get 0 s.mem.bad g).toNat

/-- Mark a granule: 0 clean, 1 correctable, 2 uncorrectable. -/
def State.setMark (s : State) (g v : Nat) : State :=
  { s with mem := { s.mem with bad := if v = 0 then Tab.del g s.mem.bad else Tab.put g (BitVec.ofNat 2 v) s.mem.bad } }

/-- A corrected granule is rewritten and counted; the correction that exceeds the unit's limit in the window logs yellow
0x10E (R380). -/
def State.corrected (s : State) (g : Nat) : State :=
  let s := s.setMark g 0
  match s.memUnit (8 * g) with
  | none => s
  | some u =>
    let s := s.bump (match u with
      | .sp _ => F.DMA_CNT_CE_SP_count
      | .slice _ => F.DMA_CNT_CE_T1_count
      | _ => F.DMA_CNT_CE_T2_count)
    let n := Tab.get 0 s.mem.ce (unitKey u) + 1
    let s := { s with mem := { s.mem with ce := Tab.put (unitKey u) n s.mem.ce } }
    if n = s.get F.DMA_CFG_ce_limit + 1 then
      (s.flag F.DMA_EVT_ce_limit).yellow { code := 0x10E, heat := s.unitOwner u, site := unitSite u }
    else s

/-- Record an uncorrectable finding at an address of a class, for a heat (R381): DMA_MERR and its event. -/
def State.recordErr (s : State) (a cls : Nat) (h : Option Nat) : State :=
  let s := s.put48 F.DMA_MERR_LO_addr_lo F.DMA_MERR_HI_addr_hi a
  let s := (s.put F.DMA_MERR_HI_class cls).put F.DMA_MERR_HI_heat (h.getD 0)
  s.putB F.DMA_MERR_HI_owned h.isSome

/-- The event code of an uncorrectable class (Table 13-3): classes 1, 2, 3, 4 and 9. -/
def errCode (cls : Nat) : Nat := if cls = 9 then 0x209 else 0x204 + cls

/-- An uncorrectable granule is found: recorded, counted, rewritten with the poison code, and a red pennant for the heat
that owns it, yellow without one (R381). -/
def State.uncorrected (s : State) (g : Nat) : State :=
  match s.memUnit (8 * g) with
  | none => s
  | some u =>
    let h := s.unitOwner u
    let s := ((s.setMark g 2).recordErr (8 * g) (unitClass u) h).bump F.DMA_CNT_UE_count
    (s.flag F.DMA_EVT_ue).red
      { code := errCode (unitClass u), heat := h, site := unitSite u, detail := unitClass u, flap := s.lapBack 128 }

/-- Granules with an error in a range of bytes, in ascending order. -/
def State.badIn (s : State) (a n : Nat) : List (Nat × Nat) :=
  if n = 0 then []
  else (s.mem.bad.filter fun e => decide (a / 8 ≤ e.1) && decide (e.1 ≤ (a + n - 1) / 8)).map fun e => (e.1, e.2.toNat)

/-- What a read of a range finds: corrections and uncorrectable granules act, in ascending order. -/
def State.findErr (s : State) (a n : Nat) : State :=
  s.each (s.badIn a n) fun s e => if e.2 = 1 then s.corrected e.1 else s.uncorrected e.1

/-- The class of the first uncorrectable granule of a range, 0 where there is none (R382). -/
def State.errClass (s : State) (a n : Nat) : Nat :=
  match (s.badIn a n).find? fun e => e.2 == 2 with
  | some e => ((s.memUnit (8 * e.1)).map unitClass).getD 0
  | none => 0

/-- Write bytes as a memory does: whole granules are rewritten clean; a granule written in part is read first, and where
it is uncorrectable the store is not applied to it (Table 9-5). -/
def State.memStore (s : State) (a : Nat) (bs : List Byte) : State :=
  let bad := s.badIn a bs.length
  let whole (g : Nat) : Bool := decide (a ≤ 8 * g) && decide (8 * g + 8 ≤ a + bs.length)
  let keep := (bad.filter fun e => e.2 == 2 && !whole e.1).map (·.1)
  let s := s.each bad fun s e =>
    if whole e.1 then s.setMark e.1 0 else if e.2 = 1 then s.corrected e.1 else s.uncorrected e.1
  if keep.isEmpty then s.writeMem a bs
  else s.each (bs.zipIdx) fun s x => if keep.contains ((a + x.2) / 8) then s else s.writeMem (a + x.2) [x.1]

/-- What a core's read of its scratchpad finds (R382): the instruction has the stored bits. -/
def State.spFind (s : State) (k off n : Nat) : State := s.findErr (spBase k + off) n

end Sys2Proof.Machine
end

