-- ==== Sys2Proof/Machine/Flags.lean ====
section
/-! DEFINITION. The numeric flags and counters of a core: where an instruction's events go, the shadows of
provisional work and their merge (R318, R319). -/

namespace Sys2Proof.Machine

/-- Add the events of a VEC or MAT instruction: to the final registers, or to the shadows where the result carries a
provisional tag; NUM_LAST holds the counts (R318, R319). -/
def State.numEv (s : State) (k : Nat) (tag : Bool) (e : NumEv) : State :=
  let s := s.wr (R.NUM_LAST k) (min e.sat 255 + min e.flush 255 * p2 8 + min e.nan 255 * p2 16 + min e.retry 4 * p2 24)
  if tag then
    let s := ((s.bump (F.NUM_PCNT_SAT_count k) e.sat).bump (F.NUM_PCNT_FLUSH_count k) e.flush).bump
      (F.NUM_PCNT_NAN_count k) e.nan
    let s := s.bump (F.NUM_PCNT_RETRY_count k) e.retry
    s.wr (R.NUM_PFLAGS k) (Nat.lor (s.rd (R.NUM_PFLAGS k)) e.flags)
  else
    let s := ((s.bump (F.NUM_CNT_SAT_count k) e.sat).bump (F.NUM_CNT_FLUSH_count k) e.flush).bump
      (F.NUM_CNT_NAN_count k) e.nan
    let s := s.bump (F.NUM_CNT_RETRY_count k) e.retry
    s.wr (R.NUM_FLAGS k) (Nat.lor (s.rd (R.NUM_FLAGS k)) e.flags)

/-- Clear the shadow registers of a core. -/
def State.clearShadow (s : State) (k : Nat) : State :=
  s.each [R.NUM_PFLAGS k, R.NUM_PCNT_SAT k, R.NUM_PCNT_FLUSH k, R.NUM_PCNT_NAN k, R.NUM_PCNT_RETRY k]
    fun s r => s.wr r 0

/-- The last open source closes: the shadows join the final registers (R319). -/
def State.mergeShadow (s : State) (k : Nat) : State :=
  let s := s.bump (F.NUM_CNT_SAT_count k) (s.rd (R.NUM_PCNT_SAT k))
  let s := s.bump (F.NUM_CNT_FLUSH_count k) (s.rd (R.NUM_PCNT_FLUSH k))
  let s := s.bump (F.NUM_CNT_NAN_count k) (s.rd (R.NUM_PCNT_NAN k))
  let s := s.bump (F.NUM_CNT_RETRY_count k) (s.rd (R.NUM_PCNT_RETRY k))
  let s := s.wr (R.NUM_FLAGS k) (Nat.lor (s.rd (R.NUM_FLAGS k)) (s.rd (R.NUM_PFLAGS k)))
  s.clearShadow k

/-- NUM_CFG of a core. -/
def State.ftz (s : State) (k : Nat) : Bool := s.on (F.NUM_CFG_ftz32 k)
def State.sat8 (s : State) (k : Nat) : Bool := s.on (F.NUM_CFG_sat8 k)

/-- Seed every lane's generator from NUM_SEED and the core's identity: its rank, or its id plus 2,048 (R305, R306). -/
def State.seedGens (s : State) (k : Nat) : State :=
  let id := match s.rankOf k with | some r => r | none => k + 2048
  let seed := BitVec.ofNat 32 (s.rd (R.NUM_SEED k))
  s.modCore k fun c => { c with gens := [], seed := seed, genId := id }

/-- The state of lane `i`'s generator. -/
def Core.gen (c : Core) (i : Nat) : Word := Tab.get (Sys2Proof.Machine.genSeed c.seed c.genId i) c.gens i

/-- Random bits of one conversion by rounding code `rc`, and the core with the lane's generator advanced (R303). -/
def Core.rnd (c : Core) (rc i : Nat) : Rnd × Core :=
  if rc = 0 then (.nearest, c)
  else
    let x := genStep (c.gen i)
    let b := if rc = 1 then 8 else 16
    (.stoch b (x.toNat / p2 (32 - b)), { c with gens := Tab.put i x c.gens })

end Sys2Proof.Machine
end

