-- ==== Sys2Proof/Machine/Operands.lean ====
section
/-! DEFINITION. The operands of core instructions: scalar, predicate, vector and tile registers with their provisional
tags, scratchpad ranges, the quarantine area and tile descriptors. -/

namespace Sys2Proof.Machine

/-! ### Registers (Table 6-1) -/

/-- A scalar register: s0 reads zero. -/
def Core.sv (c : Core) (a : BitVec 5) : DWord := if a = 0 then 0 else Tab.get 0 c.s a.toNat

/-- A predicate: p0 reads one. -/
def Core.pv (c : Core) (i : Nat) : Bool := i == 0 || c.p.getLsbD i

def Core.tagOfS (c : Core) (a : BitVec 5) : Bool := c.tagS.getLsbD a.toNat
def Core.tagOfP (c : Core) (i : Nat) : Bool := c.tagP.getLsbD i
def Core.tagOfV (c : Core) (a : BitVec 5) : Bool := c.tagV.getLsbD a.toNat

/-- Set or clear bit `i` of a mask. -/
def setBit {n : Nat} (w : BitVec n) (i : Nat) (b : Bool) : BitVec n :=
  if b then w ||| BitVec.ofNat n (p2 i) else w &&& ~~~(BitVec.ofNat n (p2 i))

/-- Write a scalar register with its tag (R266); a write of s0 is discarded. -/
def Core.setS (c : Core) (d : BitVec 5) (v : DWord) (tag : Bool) : Core :=
  if d = 0 then c else { c with s := Tab.put d.toNat v c.s, tagS := setBit c.tagS d.toNat tag }

/-- Write a predicate with its tag; a write of p0 is discarded. -/
def Core.setP (c : Core) (i : Nat) (b tag : Bool) : Core :=
  if i = 0 then c else { c with p := setBit c.p i b, tagP := setBit c.tagP i tag }

/-- The 64 lanes of a vector register. -/
def Core.vv (c : Core) (a : BitVec 5) : List Word := Tab.get (List.replicate 64 0) c.v a.toNat

def Core.setV (c : Core) (d : BitVec 5) (v : List Word) (tag : Bool) : Core :=
  { c with v := Tab.put d.toNat v c.v, tagV := setBit c.tagV d.toNat tag }

def Core.tv (c : Core) (i : BitVec 4) : Tile := Tab.get 0 c.t i.toNat

/-- Any tag of the core is set (CSR prov, CORE_STATE.prov_any). -/
def Core.anyTag (c : Core) : Bool :=
  c.tagS != 0 || c.tagP != 0 || c.tagV != 0 || !c.tagL.isEmpty || c.ag.any fun p => p.2.tagged

/-! ### Scratchpad ranges -/

/-- Lines that bytes `off` to `off + n - 1` touch. -/
def linesOf (off n : Nat) : List Nat :=
  if n = 0 then [] else (List.range ((off + n - 1) / 64 - off / 64 + 1)).map (· + off / 64)

/-- Any line of a range carries a tag. -/
def Core.tagRange (c : Core) (off n : Nat) : Bool := (linesOf off n).any fun l => c.tagL.contains l

/-- Set the tag of every line of a range. -/
def Core.tagLines (c : Core) (off n : Nat) : Core :=
  { c with tagL := (linesOf off n).foldl (fun t l => if t.contains l then t else l :: t) c.tagL }

/-- The range lies inside the scratchpad (R224). -/
def spIn (off n : Nat) : Bool := decide (off < spSize) && decide (off + n ≤ spSize)

/-- Every line of the range lies in the core's quarantine area (R267). -/
def State.inQuar (s : State) (k off n : Nat) : Bool :=
  let b := s.getA (F.CORE_QUAR_base k)
  let m := s.getA (F.CORE_QUAR_lines k)
  (linesOf off n).all fun l => decide (b ≤ l) && decide (l < b + m)

/-- Bytes of an accumulation group's region (R247). -/
def AGrp.bytes (g : AGrp) : Nat := if g.mode = 2 then g.m * 64 else (g.levels + 1) * g.m * 256

/-- Two byte ranges meet. -/
def meets (a n b m : Nat) : Bool := decide (a < b + m) && decide (b < a + n)

/-- A write by other means into the region of an open accumulation group leaves its value undefined (R248). -/
def Core.soil (c : Core) (off n : Nat) : Core :=
  { c with ag := c.ag.map fun p =>
      if meets off n (p.2.rbase * 16) p.2.bytes then (p.1, { p.2 with dirty := true }) else p }

/-- Write bytes into a core's scratchpad. -/
def State.spPut (s : State) (k off : Nat) (bs : List Byte) : State :=
  (s.memStore (spBase k + off) bs).modCore k fun c => c.soil off bs.length

/-- Bytes of a core's scratchpad. -/
def State.spGet (s : State) (k off n : Nat) : List Byte := s.readMem (spBase k + off) n

/-- The checks of a store of tagged data: cause 8 outside the quarantine area (R267). -/
def State.tagStoreBad (s : State) (k : Nat) (tag : Bool) (off n : Nat) : Bool := tag && !s.inQuar k off n

/-- A store with its tag: the lines it writes take the tag of tagged data (R266). -/
def State.spStore (s : State) (k off : Nat) (bs : List Byte) (tag : Bool) : State :=
  let s := s.spPut k off bs
  if tag then s.modCore k fun c => c.tagLines off bs.length else s

/-! ### Tile descriptors (Table 6-2, R231) -/

namespace TD

def base (t : Tile) : Nat := bitsOf t.toNat 0 16 * 16
def pitch (t : Tile) : Nat := bitsOf t.toNat 16 16 * 16
def rows (t : Tile) : Nat := bitsOf t.toNat 32 7 + 1
def cols (t : Tile) : Nat := bitsOf t.toNat 39 12 + 1
def fmt (t : Tile) : Nat := bitsOf t.toNat 51 4
def sgn (t : Tile) : Bool := bitsOf t.toNat 55 1 == 1
def sbase (t : Tile) : Nat := bitsOf t.toNat 64 16 * 16
def coarse (t : Tile) : Word := BitVec.ofNat 32 (bitsOf t.toNat 96 32)

/-- Bytes of one row's elements. -/
def rowBytes (t : Tile) : Nat := (cols t * elemBits (fmt t) + 7) / 8

/-- R231: valid. -/
def valid (t : Tile) : Bool :=
  decide (fmt t ≤ 9) && bitsOf t.toNat 56 8 == 0 && bitsOf t.toNat 80 16 == 0 && (fmt t == 9 || !sgn t) &&
    decide (rowBytes t ≤ pitch t) && decide (base t + (rows t - 1) * pitch t + rowBytes t ≤ spSize) &&
    (!isMx (fmt t) || (cols t % 32 == 0 && decide (sbase t + rows t * (cols t / 32) ≤ spSize)))

/-- Bytes from the first to past the last element. -/
def span (t : Tile) : Nat := (rows t - 1) * pitch t + rowBytes t

/-- Element codes of row `r`, from the row's bytes. -/
def rowCodes (s : State) (k : Nat) (t : Tile) (r : Nat) : List Nat :=
  let w := leNat (s.spGet k (base t + r * pitch t) (rowBytes t))
  let b := elemBits (fmt t)
  (List.range (cols t)).map fun i => bitsOf w (i * b) b

/-- Fine scales of row `r` (MX formats). -/
def rowScales (s : State) (k : Nat) (t : Tile) (r : Nat) : List Nat :=
  if isMx (fmt t) then (s.spGet k (sbase t + r * (cols t / 32)) (cols t / 32)).map (·.toNat) else []

/-- A line of the tile's elements or scales carries a tag. -/
def tagged (c : Core) (t : Tile) : Bool :=
  c.tagRange (base t) (span t) || (isMx (fmt t) && c.tagRange (sbase t) (rows t * (cols t / 32)))

end TD

end Sys2Proof.Machine
end

