-- ==== Sys2Proof/Machine/Issue.lean ====
section
/-! DEFINITION. Issue of a core instruction: the run state it needs, the fetch bound, the guard, retirement with its
signature, traps, operation identifiers and completion records (R228, R234, R236, R263, R264, R273, R570). The command
carries the instruction the core fetches at its pc (log entry 8). -/

namespace Sys2Proof.Machine

/-- What an instruction comes to: it completes and issue goes on, it jumps, it waits, the program ends, it traps, or it
waits at issue. -/
inductive Eff where
  | done (s : State)
  | jump (s : State) (pc : Nat)
  | wait (s : State) (w : WaitCond)
  | ended (s : State)
  | trap (cause : Nat)
  | stall

/-- One bit of CRC-32, polynomial 0x04C1_1DB7, most significant bit first. -/
def crc32Bit (crc : Nat) (b : Bool) : Nat :=
  let top := (crc / p2 31) % 2 == 1
  let t := (crc * 2) % p2 32
  if top != b then t ^^^ 0x04C11DB7 else t

/-- Fold the `n` low bits of `w`, most significant first. -/
def crc32Fold (w : Nat) : Nat → Nat → Nat
  | 0, crc => crc
  | n + 1, crc => crc32Fold w n (crc32Bit crc ((w / p2 n) % 2 == 1))

/-- The signature step of R570: the 48 bits of pc and instruction. -/
def sigStep (sig : BitVec 32) (pc : BitVec 16) (w : Word) : BitVec 32 :=
  BitVec.ofNat 32 (crc32Fold (pc.toNat * p2 32 + w.toNat) 48 sig.toNat)

/-- Retire the instruction at pc: both signatures fold it, the count rises (R570). -/
def State.retire (s : State) (k : Nat) (pc : BitVec 16) (w : Word) : State :=
  (s.modCore k fun c => { c with sig := sigStep c.sig pc w, sigShadow := sigStep c.sigShadow pc w }).bump
    (F.CORE_CNT_RETIRE_count k)

/-- A trap: cause and pc are recorded, the core stops, the Marshal raises 0x20F for its heat (R273). -/
def State.trap (s : State) (k cause : Nat) : State :=
  let s := s.modCore k fun c => { c with run := .trapped, exc := some (cause, c.pc) }
  s.red { code := 0x20F, heat := s.coreOwner k, site := k, detail := cause, flap := s.lapN }

/-- The levels that a push merges: those from level 0 up that are occupied, the top one included (R338, R355). -/
def pushReads (occ top : Nat) : Nat → Nat → List Nat
  | 0, _ => []
  | n + 1, h => if bitsOf occ h 1 = 1 then h :: (if h < top then pushReads occ top n (h + 1) else []) else []

/-- The ranges of an accumulation group's region that a reader takes: the tile of mode H, the words of the MXI8 channel, or
the entries of the levels `hs`. -/
def agReads (g : AGrp) (int : Bool) (hs : List Nat) : List (Nat × Nat) :=
  if g.mode = 2 then (if g.fresh then [] else [(16 * g.rbase, g.m * 64)])
  else if int then (if g.fresh then [] else [(16 * g.rbase, g.m * 256)])
  else hs.map fun h => (16 * g.rbase + h * g.m * 256, g.m * 256)

/-- The scratchpad ranges that an instruction of core `k` reads, from its word and the core's state before it: loads, tiles,
accumulation groups (R355), and the source of an untagged SEND or RSEND. -/
def coreReads (s : State) (k : Nat) (w : Word) : List (Nat × Nat) :=
  let c := s.core k
  let x := w.toNat
  let sReg (lo : Nat) : DWord := c.sv (BitVec.ofNat 5 (bitsOf x lo 5))
  let td (lo : Nat) : Tile := c.tv (BitVec.ofNat 4 (bitsOf x lo 4))
  let tile (lo : Nat) : List (Nat × Nat) :=
    let t := td lo
    (TD.base t, TD.span t) :: (if isMx (TD.fmt t) then [(TD.sbase t, TD.rows t * (TD.cols t / 32))] else [])
  let group (f : AGrp → List (Nat × Nat)) : List (Nat × Nat) :=
    match Tab.find c.ag (bitsOf x 18 3) with
    | some g => f g
    | none => []
  let occupied (g : AGrp) : List Nat := (List.range g.levels).filter fun h => bitsOf g.occ h 1 == 1
  let untagged (r : Nat × Nat) : List (Nat × Nat) := if c.tagRange r.1 r.2 then [] else [r]
  match bitsOf x 29 3 with
  | 2 =>
    let f := bitsOf x 22 4
    let n := if f = 11 then 16 else List.getD [1, 2, 4, 8, 1, 2, 4] f 0
    if n = 0 then [] else [((sReg 12 + (BitVec.ofNat 12 (x % 4096)).signExtend 64).toNat, n)]
  | 4 => if bitsOf x 21 5 = 22 then [((sReg 10).toNat, 256)] else []
  | 5 =>
    match bitsOf x 21 5 with
    | 0 => tile 14 ++ tile 10 ++ group fun g => agReads g (TD.fmt (td 14) == 9) (pushReads g.occ (g.levels - 1) g.levels 0)
    | 4 => tile 14
    | 5 => group fun g => [(16 * g.rbase, g.bytes)]
    | 6 =>
      let off := TD.base (td 14)
      let h := s.spRead k off 64
      let m := bitsOf h 2 6
      [(off, 64 + (if bitsOf h 0 2 = 2 then m * 64 else (bitsOf h 8 4 + 2) * m * 256))]
    | 2 | 3 => group fun g => agReads g (g.chan == some true) (occupied g)
    | _ => []
  | 6 =>
    match bitsOf x 22 4 with
    | 0 => untagged ((sReg 17).toNat, 32 * bitsOf (sReg 12).toNat 48 8)
    | 3 => untagged ((sReg 17).toNat, 128 * (sReg 12).toNat)
    | _ => []
  | _ => []

/-- The granules with an error, and whether it is correctable, that an instruction reads. -/
def State.wrongReads (s : State) (k : Nat) (w : Word) : List (Nat × Nat) :=
  (((coreReads s k w).map fun r => s.badIn (spBase k + r.1) r.2).flatten).eraseDups

/-- Reads come before the instruction's own writes, and correct what is correctable. -/
def State.readFirst (s : State) (k : Nat) (w : Word) : State :=
  if s.mem.bad.isEmpty then s else s.each ((s.wrongReads k w).filter fun e => e.2 == 1) fun s e => s.setMark e.1 0

/-- What the reads of an instruction that completes have found, in the state `s` before it (R381, R382). A granule that the
instruction has written since keeps what was written. -/
def State.readFound (t s : State) (k : Nat) (w : Word) : State :=
  if s.mem.bad.isEmpty then t
  else t.each (s.wrongReads k w) fun t e => if e.2 = 1 then t.corrected e.1 else (t.uncorrected e.1).setMark e.1 (t.mark e.1)

/-- The word that stands at the core's pc, where instruction memory holds one, is none that Tables 6-4 to 6-14 give
(R237). -/
def Core.badWord (c : Core) (k : CoreId) : Bool :=
  match Tab.find c.imem (c.pc.toNat / 4) with
  | some w => (decodeCore k w).isNone
  | none => false

/-- An instruction of class VEC or MAT: the units take none while an ATTEND runs (R457). -/
def unitBusy (c : Core) (w : Word) : Bool :=
  c.attend.isSome && (bitsOf w.toNat 29 3 == 4 || bitsOf w.toNat 29 3 == 5)

/-- Issue one instruction of core `k` under guard `g`: a core that is fenced or not running issues nothing; a fetch at
or above the code size traps with cause 2 (R228); a zero guard retires it without effect (R236); a word that is no
instruction traps with cause 1 (R237); an instruction that cannot issue waits (R234). The body is given the guard's tag
(R266). -/
def State.issue (s : State) (k : CoreId) (g : BitVec 3) (w : Word) (body : State → Bool → Eff) : State :=
  let i := k.toNat
  let c := s.core i
  if s.fenced i || c.run != .running then s
  else if 4 * s.getA (F.CORE_ENTRY_size i) ≤ c.pc.toNat then s.trap i 2
  else
    let onward (t : State) (pc : BitVec 16) : State := (t.retire i c.pc w).modCore i fun c => { c with pc := pc, stall := none }
    if !c.pv g.toNat then onward s (c.pc + 4)
    else if c.badWord k then s.trap i 1
    else
      match if unitBusy c w then .stall else body (s.readFirst i w) (c.tagOfP g.toNat) with
      | .done t => (onward t (c.pc + 4)).readFound s i w
      | .jump t pc => onward t (BitVec.ofNat 16 pc)
      | .wait t cond => (onward t (c.pc + 4)).modCore i fun c => { c with run := .waiting, wait := some cond, waitFrom := s.now }
      | .ended t => (onward t (c.pc + 4)).modCore i fun c => { c with run := .done }
      | .trap cause => s.trap i cause
      | .stall => s.setCore i { c with stall := some (c.stall.getD 0) }

/-! ### Operation identifiers and completion records -/

/-- The identifier that the next operation takes, where it is free (R263). -/
def Core.opFree (c : Core) : Bool := !c.busy.getLsbD c.opNext

/-- Take the next identifier. -/
def Core.takeOp (c : Core) : Core := { c with busy := setBit c.busy c.opNext true, opNext := (c.opNext + 1) % 32 }

/-- A completion record (Table 6-16). -/
def compRec (op kind status units : Nat) : DWord :=
  BitVec.ofNat 64 (op % 32 + kind * p2 5 + status * p2 8 + min units 0xFFFF * p2 16 + p2 63)

/-- Queue a completion record (R264). -/
def Core.complete (c : Core) (op kind status units : Nat) : Core :=
  { c with cq := c.cq ++ [compRec op kind status units] }

/-- A transfer that would read tagged data is refused whole: status provisional refused, counted, yellow 0x10D (R268). -/
def State.provRefuse (s : State) (k op : Nat) : State :=
  (s.bump (F.CORE_CNT_PROVBLK_count k)).yellow { code := 0x10D, heat := s.coreOwner k, site := k, detail := op }

/-! ### Discard and confirmation (R269 to R272) -/

/-- Every tag of the core clears (R271). -/
def Core.clearTags (c : Core) : Core :=
  { c with
    tagS := 0, tagP := 0, tagV := 0, tagL := [],
    ag := c.ag.map fun p => (p.1, { p.2 with tagged := false }) }

/-- Close one open source; the last one clears every tag and joins the shadow counts (R270, R271, R319). -/
def State.closeSource (s : State) (k : Nat) : State :=
  let c := s.core k
  if c.prov = 0 then s
  else if c.prov = 1 then (s.setCore k { c.clearTags with prov := 0 }).mergeShadow k
  else s.setCore k { c with prov := c.prov - 1 }

/-- Registers whose tag is set become zero. -/
def zeroTagged {α : Type} (z : α) (mask : Nat → Bool) (t : Tab α) : Tab α :=
  t.map fun p => if mask p.1 then (p.1, z) else p

/-- The zeroing and clearing of a discard (R272); flags.replayed is set. -/
def State.discard (s : State) (k : Nat) : State :=
  let c := s.core k
  let s := s.each c.tagL fun s l => s.spPut k (64 * l) (List.replicate 64 0)
  let s := s.modCore k fun c =>
    { c with
      s := zeroTagged 0 (fun i => c.tagS.getLsbD i) c.s, p := c.p &&& ~~~c.tagP,
      v := zeroTagged (List.replicate 64 0) (fun i => c.tagV.getLsbD i) c.v,
      ag := c.ag.filter fun p => !p.2.tagged }
  let s := s.modCore k fun c => { c.clearTags with prov := 0, provSeq := [], replayed := true }
  s.clearShadow k

/-- A discard that replays: counted, then on at the checkpoint; without one, cause 9 (R272). -/
def State.replay (s : State) (k : Nat) : Eff :=
  match (s.core k).ckpt with
  | none => .trap 9
  | some pc => .jump ((s.discard k).bump (F.CORE_CNT_REPLAY_count k)) pc.toNat

end Sys2Proof.Machine
end

