-- ==== Sys2Proof/Machine/Scalar.lean ====
section
/-! DEFINITION. The scalar instructions: classes SR, SI and MEM (R238, R239, Tables 6-5 to 6-7). -/

namespace Sys2Proof.Machine

/-! ### Integer operations (Table 6-5) -/

/-- High 64 bits of a signed product. -/
def mulHigh (a b : DWord) : DWord := BitVec.ofInt 64 ((a.toInt * b.toInt) / (p2 64 : Nat))

/-- High 64 bits of an unsigned product. -/
def mulHighU (a b : DWord) : DWord := BitVec.ofNat 64 (a.toNat * b.toNat / p2 64)

/-- Signed division toward zero; a zero divisor gives all ones; the one overflow gives -2^63. -/
def divS (a b : DWord) : DWord := if b = 0 then BitVec.allOnes 64 else BitVec.ofInt 64 (a.toInt.tdiv b.toInt)

/-- Unsigned division; a zero divisor gives all ones. -/
def divU (a b : DWord) : DWord := if b = 0 then BitVec.allOnes 64 else a / b

/-- Signed remainder; a zero divisor gives a. -/
def remS (a b : DWord) : DWord := if b = 0 then a else BitVec.ofInt 64 (a.toInt.tmod b.toInt)

/-- Unsigned remainder; a zero divisor gives a. -/
def remU (a b : DWord) : DWord := if b = 0 then a else a % b

/-- A 12-bit immediate, sign-extended. -/
def sext12 (imm : BitVec 12) : DWord := imm.signExtend 64

/-! ### Forms -/

/-- d ← f a b, with the tags of a, b and the guard (R266). -/
def State.sr3 (s : State) (func : Nat) (k : CoreId) (g : BitVec 3) (d a b : BitVec 5) (f : DWord → DWord → DWord) :
    State :=
  s.issue k g (srWord func g d a b) fun s gt =>
    .done (s.modCore k.toNat fun c => c.setS d (f (c.sv a) (c.sv b)) (gt || c.tagOfS a || c.tagOfS b))

/-- Predicate d ← f a b; d[4:3] is zero or cause 1. -/
def State.srP (s : State) (func : Nat) (k : CoreId) (g : BitVec 3) (d a b : BitVec 5) (f : DWord → DWord → Bool) :
    State :=
  s.issue k g (srWord func g d a b) fun s gt =>
    if 8 ≤ d.toNat then .trap 1
    else .done (s.modCore k.toNat fun c => c.setP d.toNat (f (c.sv a) (c.sv b)) (gt || c.tagOfS a || c.tagOfS b))

/-- Predicate d ← f pa pb, of the predicates a[2:0] and b[2:0]. -/
def State.srPP (s : State) (func : Nat) (k : CoreId) (g : BitVec 3) (d a b : BitVec 5) (f : Bool → Bool → Bool) :
    State :=
  s.issue k g (srWord func g d a b) fun s gt =>
    if 8 ≤ d.toNat then .trap 1
    else
      let i := a.toNat % 8
      let j := b.toNat % 8
      .done (s.modCore k.toNat fun c => c.setP d.toNat (f (c.pv i) (c.pv j)) (gt || c.tagOfP i || c.tagOfP j))

/-- d ← f a, for SI. -/
def State.si2 (s : State) (func : Nat) (k : CoreId) (g : BitVec 3) (d a : BitVec 5) (imm : BitVec 12)
    (f : DWord → DWord) : State :=
  s.issue k g (siWord func g d a imm) fun s gt =>
    .done (s.modCore k.toNat fun c => c.setS d (f (c.sv a)) (gt || c.tagOfS a))

/-- A shift by imm[5:0]; imm[11:6] is zero or cause 1. -/
def State.siSh (s : State) (func : Nat) (k : CoreId) (g : BitVec 3) (d a : BitVec 5) (imm : BitVec 12)
    (f : DWord → Nat → DWord) : State :=
  s.issue k g (siWord func g d a imm) fun s gt =>
    if 64 ≤ imm.toNat then .trap 1
    else .done (s.modCore k.toNat fun c => c.setS d (f (c.sv a) imm.toNat) (gt || c.tagOfS a))

/-- Predicate d ← f a, for SI. -/
def State.siP (s : State) (func : Nat) (k : CoreId) (g : BitVec 3) (d a : BitVec 5) (imm : BitVec 12)
    (f : DWord → Bool) : State :=
  s.issue k g (siWord func g d a imm) fun s gt =>
    if 8 ≤ d.toNat then .trap 1
    else .done (s.modCore k.toNat fun c => c.setP d.toNat (f (c.sv a)) (gt || c.tagOfS a))

/-- Scratchpad address of a MEM access. -/
def memAddr (a : DWord) (imm : BitVec 12) : Nat := (a + sext12 imm).toNat

/-- The traps of an access of `n` bytes: out of range before misaligned (R224, R239, Table 6-20). -/
def memTrap (off n : Nat) : Option Nat :=
  if !spIn off n then some 3 else if off % n = 0 then none else some 4

/-- A load of `n` bytes: d ← `ext` of the bytes, with the tags of the address, the lines and the guard. -/
def State.load (s : State) (func n : Nat) (k : CoreId) (g : BitVec 3) (d a : BitVec 5) (imm : BitVec 12)
    (ext : Nat → DWord) : State :=
  s.issue k g (memWord func g d a imm) fun s gt =>
    let c := s.core k.toNat
    let off := memAddr (c.sv a) imm
    match memTrap off n with
    | some cause => .trap cause
    | none =>
      .done (s.setCore k.toNat
        (c.setS d (ext (s.spRead k.toNat off n)) (gt || c.tagOfS a || c.tagRange off n)))

/-- A store of the low `n` bytes of d; tagged data outside the quarantine area is cause 8 (R267). -/
def State.store (s : State) (func n : Nat) (k : CoreId) (g : BitVec 3) (d a : BitVec 5) (imm : BitVec 12) : State :=
  s.issue k g (memWord func g d a imm) fun s gt =>
    let c := s.core k.toNat
    let off := memAddr (c.sv a) imm
    let tag := gt || c.tagOfS a || c.tagOfS d
    match memTrap off n with
    | some cause => .trap cause
    | none =>
      if s.tagStoreBad k.toNat tag off n then .trap 8
      else .done (s.spStore k.toNat off (leBytes (c.sv d).toNat n) tag)

def zextN (v : Nat) : DWord := BitVec.ofNat 64 v
def sextN (bits v : Nat) : DWord := (BitVec.ofNat bits v).signExtend 64

/-! ### SR -/

/-- ADD (Table 6-5). -/
def execAdd (k : CoreId) (g : BitVec 3) (d a b : BitVec 5) (s : State) : Res :=
  .next (s.sr3 0 k g d a b fun a b => a + b)

/-- SUB (Table 6-5). -/
def execSub (k : CoreId) (g : BitVec 3) (d a b : BitVec 5) (s : State) : Res :=
  .next (s.sr3 1 k g d a b fun a b => a - b)

/-- AND (Table 6-5). -/
def execAndR (k : CoreId) (g : BitVec 3) (d a b : BitVec 5) (s : State) : Res :=
  .next (s.sr3 2 k g d a b fun a b => a &&& b)

/-- OR (Table 6-5). -/
def execOrR (k : CoreId) (g : BitVec 3) (d a b : BitVec 5) (s : State) : Res :=
  .next (s.sr3 3 k g d a b fun a b => a ||| b)

/-- XOR (Table 6-5). -/
def execXorR (k : CoreId) (g : BitVec 3) (d a b : BitVec 5) (s : State) : Res :=
  .next (s.sr3 4 k g d a b fun a b => a ^^^ b)

/-- SHL (Table 6-5). -/
def execShl (k : CoreId) (g : BitVec 3) (d a b : BitVec 5) (s : State) : Res :=
  .next (s.sr3 5 k g d a b fun a b => a <<< (b.toNat % 64))

/-- SHR (Table 6-5). -/
def execShr (k : CoreId) (g : BitVec 3) (d a b : BitVec 5) (s : State) : Res :=
  .next (s.sr3 6 k g d a b fun a b => a >>> (b.toNat % 64))

/-- SRA (Table 6-5). -/
def execSra (k : CoreId) (g : BitVec 3) (d a b : BitVec 5) (s : State) : Res :=
  .next (s.sr3 7 k g d a b fun a b => a.sshiftRight (b.toNat % 64))

/-- MUL (Table 6-5). -/
def execMul (k : CoreId) (g : BitVec 3) (d a b : BitVec 5) (s : State) : Res :=
  .next (s.sr3 8 k g d a b fun a b => a * b)

/-- MULH (Table 6-5). -/
def execMulh (k : CoreId) (g : BitVec 3) (d a b : BitVec 5) (s : State) : Res :=
  .next (s.sr3 9 k g d a b fun a b => mulHigh a b)

/-- MULHU (Table 6-5). -/
def execMulhu (k : CoreId) (g : BitVec 3) (d a b : BitVec 5) (s : State) : Res :=
  .next (s.sr3 10 k g d a b fun a b => mulHighU a b)

/-- DIV (Table 6-5). -/
def execDiv (k : CoreId) (g : BitVec 3) (d a b : BitVec 5) (s : State) : Res :=
  .next (s.sr3 11 k g d a b fun a b => divS a b)

/-- DIVU (Table 6-5). -/
def execDivu (k : CoreId) (g : BitVec 3) (d a b : BitVec 5) (s : State) : Res :=
  .next (s.sr3 12 k g d a b fun a b => divU a b)

/-- REM (Table 6-5). -/
def execRem (k : CoreId) (g : BitVec 3) (d a b : BitVec 5) (s : State) : Res :=
  .next (s.sr3 13 k g d a b fun a b => remS a b)

/-- REMU (Table 6-5). -/
def execRemu (k : CoreId) (g : BitVec 3) (d a b : BitVec 5) (s : State) : Res :=
  .next (s.sr3 14 k g d a b fun a b => remU a b)

/-- MIN (Table 6-5). -/
def execMinR (k : CoreId) (g : BitVec 3) (d a b : BitVec 5) (s : State) : Res :=
  .next (s.sr3 15 k g d a b fun a b => if a.slt b then a else b)

/-- MAX (Table 6-5). -/
def execMaxR (k : CoreId) (g : BitVec 3) (d a b : BitVec 5) (s : State) : Res :=
  .next (s.sr3 16 k g d a b fun a b => if a.slt b then b else a)

/-- MINU (Table 6-5). -/
def execMinu (k : CoreId) (g : BitVec 3) (d a b : BitVec 5) (s : State) : Res :=
  .next (s.sr3 17 k g d a b fun a b => if a.ult b then a else b)

/-- MAXU (Table 6-5). -/
def execMaxu (k : CoreId) (g : BitVec 3) (d a b : BitVec 5) (s : State) : Res :=
  .next (s.sr3 18 k g d a b fun a b => if a.ult b then b else a)

/-- SEQ (Table 6-5). -/
def execSeq (k : CoreId) (g : BitVec 3) (d a b : BitVec 5) (s : State) : Res :=
  .next (s.srP 19 k g d a b fun a b => a == b)

/-- SLT (Table 6-5). -/
def execSlt (k : CoreId) (g : BitVec 3) (d a b : BitVec 5) (s : State) : Res :=
  .next (s.srP 20 k g d a b fun a b => a.slt b)

/-- SLTU (Table 6-5). -/
def execSltu (k : CoreId) (g : BitVec 3) (d a b : BitVec 5) (s : State) : Res :=
  .next (s.srP 21 k g d a b fun a b => a.ult b)

/-- PAND (Table 6-5). -/
def execPand (k : CoreId) (g : BitVec 3) (d a b : BitVec 5) (s : State) : Res :=
  .next (s.srPP 22 k g d a b fun x y => x && y)

/-- POR (Table 6-5). -/
def execPor (k : CoreId) (g : BitVec 3) (d a b : BitVec 5) (s : State) : Res :=
  .next (s.srPP 23 k g d a b fun x y => x || y)

/-- PNOT (Table 6-5). -/
def execPnot (k : CoreId) (g : BitVec 3) (d a : BitVec 5) (s : State) : Res :=
  .next (s.issue k g (srWord 24 g d a 0) fun s gt =>
    let i := a.toNat % 8
    if 8 ≤ d.toNat then .trap 1
    else .done (s.modCore k.toNat fun c => c.setP d.toNat (!c.pv i) (gt || c.tagOfP i)))

/-! ### SI -/

/-- ADDI (Table 6-6). -/
def execAddi (k : CoreId) (g : BitVec 3) (d a : BitVec 5) (imm : BitVec 12) (s : State) : Res :=
  .next (s.si2 0 k g d a imm fun a => a + sext12 imm)

/-- ANDI (Table 6-6). -/
def execAndi (k : CoreId) (g : BitVec 3) (d a : BitVec 5) (imm : BitVec 12) (s : State) : Res :=
  .next (s.si2 1 k g d a imm fun a => a &&& sext12 imm)

/-- ORI (Table 6-6). -/
def execOri (k : CoreId) (g : BitVec 3) (d a : BitVec 5) (imm : BitVec 12) (s : State) : Res :=
  .next (s.si2 2 k g d a imm fun a => a ||| sext12 imm)

/-- XORI (Table 6-6). -/
def execXori (k : CoreId) (g : BitVec 3) (d a : BitVec 5) (imm : BitVec 12) (s : State) : Res :=
  .next (s.si2 3 k g d a imm fun a => a ^^^ sext12 imm)

/-- SHLI (Table 6-6). -/
def execShli (k : CoreId) (g : BitVec 3) (d a : BitVec 5) (imm : BitVec 12) (s : State) : Res :=
  .next (s.siSh 4 k g d a imm fun a n => a <<< n)

/-- SHRI (Table 6-6). -/
def execShri (k : CoreId) (g : BitVec 3) (d a : BitVec 5) (imm : BitVec 12) (s : State) : Res :=
  .next (s.siSh 5 k g d a imm fun a n => a >>> n)

/-- SRAI (Table 6-6). -/
def execSrai (k : CoreId) (g : BitVec 3) (d a : BitVec 5) (imm : BitVec 12) (s : State) : Res :=
  .next (s.siSh 6 k g d a imm fun a n => a.sshiftRight n)

/-- SEQI (Table 6-6). -/
def execSeqi (k : CoreId) (g : BitVec 3) (d a : BitVec 5) (imm : BitVec 12) (s : State) : Res :=
  .next (s.siP 7 k g d a imm fun a => a == sext12 imm)

/-- SLTI (Table 6-6). -/
def execSlti (k : CoreId) (g : BitVec 3) (d a : BitVec 5) (imm : BitVec 12) (s : State) : Res :=
  .next (s.siP 8 k g d a imm fun a => a.slt (sext12 imm))

/-- SLTUI (Table 6-6). -/
def execSltui (k : CoreId) (g : BitVec 3) (d a : BitVec 5) (imm : BitVec 12) (s : State) : Res :=
  .next (s.siP 9 k g d a imm fun a => a.ult (sext12 imm))

/-- LI (Table 6-6): the 17 bits of the fields a and imm, sign-extended. -/
def execLi (k : CoreId) (g : BitVec 3) (d a : BitVec 5) (imm : BitVec 12) (s : State) : Res :=
  .next (s.issue k g (siWord 10 g d a imm) fun s gt =>
    .done (s.modCore k.toNat fun c => c.setS d (sextN 17 (a.toNat * 4096 + imm.toNat)) gt))

/-- LIS (Table 6-6): d shifted left by 16, with 16 bits from a[3:0] and imm; a[4] is zero or cause 1. -/
def execLis (k : CoreId) (g : BitVec 3) (d a : BitVec 5) (imm : BitVec 12) (s : State) : Res :=
  .next (s.issue k g (siWord 11 g d a imm) fun s gt =>
    if 16 ≤ a.toNat then .trap 1
    else .done (s.modCore k.toNat fun c =>
      c.setS d ((c.sv d <<< 16) ||| zextN (a.toNat * 4096 + imm.toNat)) (gt || c.tagOfS d)))

/-! ### MEM -/

/-- LD8U (Table 6-7). -/
def execLd8u (k : CoreId) (g : BitVec 3) (d a : BitVec 5) (imm : BitVec 12) (s : State) : Res :=
  .next (s.load 0 1 k g d a imm zextN)

/-- LD16U (Table 6-7). -/
def execLd16u (k : CoreId) (g : BitVec 3) (d a : BitVec 5) (imm : BitVec 12) (s : State) : Res :=
  .next (s.load 1 2 k g d a imm zextN)

/-- LD32U (Table 6-7). -/
def execLd32u (k : CoreId) (g : BitVec 3) (d a : BitVec 5) (imm : BitVec 12) (s : State) : Res :=
  .next (s.load 2 4 k g d a imm zextN)

/-- LD64 (Table 6-7). -/
def execLd64 (k : CoreId) (g : BitVec 3) (d a : BitVec 5) (imm : BitVec 12) (s : State) : Res :=
  .next (s.load 3 8 k g d a imm zextN)

/-- LD8S (Table 6-7). -/
def execLd8s (k : CoreId) (g : BitVec 3) (d a : BitVec 5) (imm : BitVec 12) (s : State) : Res :=
  .next (s.load 4 1 k g d a imm (sextN 8))

/-- LD16S (Table 6-7). -/
def execLd16s (k : CoreId) (g : BitVec 3) (d a : BitVec 5) (imm : BitVec 12) (s : State) : Res :=
  .next (s.load 5 2 k g d a imm (sextN 16))

/-- LD32S (Table 6-7). -/
def execLd32s (k : CoreId) (g : BitVec 3) (d a : BitVec 5) (imm : BitVec 12) (s : State) : Res :=
  .next (s.load 6 4 k g d a imm (sextN 32))

/-- ST8 (Table 6-7). -/
def execSt8 (k : CoreId) (g : BitVec 3) (d a : BitVec 5) (imm : BitVec 12) (s : State) : Res :=
  .next (s.store 7 1 k g d a imm)

/-- ST16 (Table 6-7). -/
def execSt16 (k : CoreId) (g : BitVec 3) (d a : BitVec 5) (imm : BitVec 12) (s : State) : Res :=
  .next (s.store 8 2 k g d a imm)

/-- ST32 (Table 6-7). -/
def execSt32 (k : CoreId) (g : BitVec 3) (d a : BitVec 5) (imm : BitVec 12) (s : State) : Res :=
  .next (s.store 9 4 k g d a imm)

/-- ST64 (Table 6-7). -/
def execSt64 (k : CoreId) (g : BitVec 3) (d a : BitVec 5) (imm : BitVec 12) (s : State) : Res :=
  .next (s.store 10 8 k g d a imm)

/-- TLD (Table 6-7): d[4] is zero or cause 1. A tile descriptor register carries no tag (log entry 9). -/
def execTld (k : CoreId) (g : BitVec 3) (d a : BitVec 5) (imm : BitVec 12) (s : State) : Res :=
  .next (s.issue k g (memWord 11 g d a imm) fun s _ =>
    let off := memAddr ((s.core k.toNat).sv a) imm
    if 16 ≤ d.toNat then .trap 1
    else match memTrap off 16 with
      | some cause => .trap cause
      | none =>
        let t : Tile := BitVec.ofNat 128 (s.spRead k.toNat off 16)
        .done (s.modCore k.toNat fun c => { c with t := Tab.put d.toNat t c.t }))

/-- TST (Table 6-7). -/
def execTst (k : CoreId) (g : BitVec 3) (d a : BitVec 5) (imm : BitVec 12) (s : State) : Res :=
  .next (s.issue k g (memWord 12 g d a imm) fun s gt =>
    let c := s.core k.toNat
    let off := memAddr (c.sv a) imm
    let tag := gt || c.tagOfS a
    if 16 ≤ d.toNat then .trap 1
    else match memTrap off 16 with
      | some cause => .trap cause
      | none =>
        if s.tagStoreBad k.toNat tag off 16 then .trap 8
        else .done (s.spStore k.toNat off (leBytes (Tab.get (0 : Tile) c.t d.toNat).toNat 16) tag))

/-- The value of a CSR (Table 6-3), or none where the number is reserved. NUM_ registers stand from 0x010 (R325). -/
def State.csr (s : State) (k : Nat) (n : Nat) : Option DWord :=
  let c := s.core k
  match n with
  | 0x000 => some (zextN k)
  | 0x001 => some (zextN ((s.coreOwner k).getD 0))
  | 0x002 => some (zextN ((s.rankOf k).getD 0xFFFFFFFF))
  | 0x003 => some (zextN s.lapN)
  | 0x004 => some (zextN c.posCap)
  | 0x005 => some (zextN (c.recallFlag.toNat + 2 * c.lateWait.toNat + 4 * c.replayed.toNat))
  | 0x006 => some (zextN c.opNext)
  | 0x007 => some (zextN (c.cq.length % 64 + (min 8 c.hq.length) * p2 8 + (c.rq.length % 128) * p2 12))
  | 0x008 => some (zextN (s.get (F.CORE_LATE_count k)))
  | 0x009 => some (zextN (c.prov % 16 + c.anyTag.toNat * 16))
  | 0x00A => some (match c.ckpt with | some pc => zextN (pc.toNat + p2 31) | none => 0)
  | 0x00B =>
    let clk := Tab.get MeshSt.nominalClk s.mesh.clk (regionOf k)
    some (zextN ((s.now - c.startFc) * clk / 1200))
  | n => if 0x010 ≤ n ∧ n ≤ 0x01C then some (zextN (s.rd ⟨(R.NUM_CFG k).off + 4 * (n - 0x010),
      if n = 0x010 then 0xCF else 0⟩)) else none

/-- An access to a NUM_ CSR waits for the ATTEND in progress (R321). -/
def numCsrWaits (c : Core) (n : Nat) : Bool := c.attend.isSome && decide (0x010 ≤ n) && decide (n ≤ 0x01F)

/-- CSRR (R232): a reserved number is cause 1; a read of lap captures pos. -/
def execCsrr (k : CoreId) (g : BitVec 3) (d : BitVec 5) (imm : BitVec 12) (s : State) : Res :=
  .next (s.issue k g (memWord 13 g d 0 imm) fun s gt =>
    match s.csr k.toNat imm.toNat with
    | none => .trap 1
    | some v =>
      if numCsrWaits (s.core k.toNat) imm.toNat then .stall else
      .done (s.modCore k.toNat fun c =>
        (if imm.toNat = 3 then { c with posCap := s.pos.toNat } else c).setS d v gt))

/-- CSRW (R232): RW are late and the writable NUM_ registers, with a seed write reseeding (R306); a write of any other
CSR is ignored, of a reserved number is cause 1. -/
def State.csrWrite (s : State) (k n v : Nat) : State :=
  let w := v % p2 32
  match n with
  | 0x008 => s.wr (R.CORE_LATE k) w
  | 0x010 =>
    let s := if w % 4 = 0 then s else s.put (F.NUM_CFG_passes k) (w % 4)
    s.wr (R.NUM_CFG k) (s.rd (R.NUM_CFG k) % 4 + (bitsOf w 2 7) * 4)
  | 0x011 => s.wr (R.NUM_FLAGS k) (Nat.land (s.rd (R.NUM_FLAGS k)) (Nat.xor (p2 32 - 1) w))
  | 0x012 => (s.wr (R.NUM_SEED k) w).seedGens k
  | 0x014 => s.wr (R.NUM_CNT_SAT k) w
  | 0x015 => s.wr (R.NUM_CNT_FLUSH k) w
  | 0x016 => s.wr (R.NUM_CNT_NAN k) w
  | 0x017 => s.wr (R.NUM_CNT_RETRY k) w
  | _ => s

/-- CSRW (R232). -/
def execCsrw (k : CoreId) (g : BitVec 3) (d : BitVec 5) (imm : BitVec 12) (s : State) : Res :=
  .next (s.issue k g (memWord 14 g d 0 imm) fun s _ =>
    match s.csr k.toNat imm.toNat with
    | none => .trap 1
    | some _ => if numCsrWaits (s.core k.toNat) imm.toNat then .stall else .done (s.csrWrite k.toNat imm.toNat ((s.core k.toNat).sv d).toNat))

end Sys2Proof.Machine
end

