-- ==== Sys2Proof/Machine/Control.lean ====
section
/-! DEFINITION. The control instructions: branches, WAIT, checkpoints, provisional sources, HALT and the waits for
units (R240, R269 to R272, Tables 6-8 and 6-9). -/

namespace Sys2Proof.Machine

/-- pc + 4 × sext(imm). -/
def target (pc : BitVec 16) (imm : BitVec 23) : BitVec 16 := pc + 4 * (imm.signExtend 25).setWidth 16

/-- BR (Table 6-8). -/
def execBr (k : CoreId) (g : BitVec 3) (imm : BitVec 23) (s : State) : Res :=
  .next (s.issue k g (ctlWord 0 g imm.toNat) fun s _ =>
    .jump s (target (s.core k.toNat).pc imm).toNat)

/-- CALL (Table 6-8): the link address goes to s31. -/
def execCall (k : CoreId) (g : BitVec 3) (imm : BitVec 23) (s : State) : Res :=
  .next (s.issue k g (ctlWord 1 g imm.toNat) fun s gt =>
    let pc := (s.core k.toNat).pc
    .jump (s.modCore k.toNat fun c => c.setS 31 (zextN (pc + 4).toNat) gt) (target pc imm).toNat)

/-- JR (Table 6-8): pc ← a[15:2] × 4. -/
def execJr (k : CoreId) (g : BitVec 3) (a : BitVec 5) (s : State) : Res :=
  .next (s.issue k g (ctlWord 2 g (a.toNat * 0x40000)) fun s _ =>
    .jump s (((s.core k.toNat).sv a).toNat % p2 16 / 4 * 4))

/-! ### WAIT -/

/-- The condition of a WAIT holds now (Table 6-9). Core cycles pass at the region's clock. -/
def State.condMet (s : State) (k : Nat) : WaitCond → Bool
  | .pos fc => decide (fc ≤ s.now)
  | .stride fc => decide (fc ≤ s.now)
  | .cq => !(s.core k).cq.isEmpty
  | .hq => !(s.core k).hq.isEmpty
  | .op id => (s.core k).cq.any (fun r => r.toNat % 32 == id) || ((s.core k).hq.take 8).any (fun d => d.op == id)
  | .cyc t n => decide (n ≤ s.ccIn k (s.now - t))

/-- Wait for a condition; one that holds already ends the WAIT at once. -/
def State.waitFor (s : State) (k : Nat) (w : WaitCond) : Eff := if s.condMet k w then .done s else .wait s w

/-- WAIT of kind POS: a position already passed completes at once and sets late_wait (R240). -/
def execWaitPos (k : CoreId) (g : BitVec 3) (a b : BitVec 5) (s : State) : Res :=
  .next (s.issue k g (waitWord 0 g a b) fun s _ =>
    let c := s.core k.toNat
    let t := ((c.sv a).toNat % p2 48) * lapFc + (c.sv b).toNat % p2 18
    if t < s.now then .done (s.setCore k.toNat { c with lateWait := true })
    else s.waitFor k.toNat (.pos t))

/-- WAIT of kind CQ. -/
def execWaitCq (k : CoreId) (g : BitVec 3) (s : State) : Res :=
  .next (s.issue k g (waitWord 1 g 0 0) fun s _ => s.waitFor k.toNat .cq)

/-- WAIT of kind HQ. -/
def execWaitHq (k : CoreId) (g : BitVec 3) (s : State) : Res :=
  .next (s.issue k g (waitWord 2 g 0 0) fun s _ => s.waitFor k.toNat .hq)

/-- WAIT of kind OP: operation a[4:0]. -/
def execWaitOp (k : CoreId) (g : BitVec 3) (a : BitVec 5) (s : State) : Res :=
  .next (s.issue k g (waitWord 3 g a 0) fun s _ =>
    s.waitFor k.toNat (.op (((s.core k.toNat).sv a).toNat % 32)))

/-- WAIT of kind CYC: a cc. -/
def execWaitCyc (k : CoreId) (g : BitVec 3) (a : BitVec 5) (s : State) : Res :=
  .next (s.issue k g (waitWord 4 g a 0) fun s _ =>
    s.waitFor k.toNat (.cyc s.now ((s.core k.toNat).sv a).toNat))

/-- WAIT of kind STRIDE: the next stride boundary. -/
def execWaitStride (k : CoreId) (g : BitVec 3) (s : State) : Res :=
  .next (s.issue k g (waitWord 5 g 0 0) fun s _ =>
    s.waitFor k.toNat (.stride (s.now / 128 * 128 + 128)))

/-- The end of a WAIT: the core issues again once its condition holds; a core that does not wait, or whose condition
does not hold yet, is unchanged (R240). -/
def execWaitEnd (k : CoreId) (s : State) : Res :=
  let c := s.core k.toNat
  .next (match c.run, c.wait with
    | .waiting, some w => if s.condMet k.toNat w then s.setCore k.toNat { c with run := .running, wait := none } else s
    | _, _ => s)

/-! ### Checkpoint and provisional sources -/

/-- CKPT (Table 6-8, R601). -/
def execCkpt (k : CoreId) (g : BitVec 3) (imm : BitVec 23) (s : State) : Res :=
  .next (s.issue k g (ctlWord 4 g imm.toNat) fun s _ =>
    .done (s.modCore k.toNat fun c => { c with ckpt := some (target c.pc imm) }))

/-- PRES kind 0 (R269): tags the lines of a range inside the quarantine area and opens a source; outside it, or with 15
sources open, cause 8. -/
def execPresOpen (k : CoreId) (g : BitVec 3) (a b : BitVec 5) (s : State) : Res :=
  .next (s.issue k g (presWord 0 g a b) fun s _ =>
    let c := s.core k.toNat
    let off := (c.sv a).toNat
    let n := (c.sv b).toNat
    if !spIn off n then .trap 3
    else if !s.inQuar k.toNat off n || 15 ≤ c.prov then .trap 8
    else .done (s.setCore k.toNat { c.tagLines off n with prov := c.prov + 1 }))

/-- PRES kind 1 (R270): closes one source. -/
def execPresClose (k : CoreId) (g : BitVec 3) (s : State) : Res :=
  .next (s.issue k g (presWord 1 g 0 0) fun s _ => .done (s.closeSource k.toNat))

/-- PRES kind 2 (R270, R272): discards and continues at the checkpoint. -/
def execPresDiscard (k : CoreId) (g : BitVec 3) (s : State) : Res :=
  .next (s.issue k g (presWord 2 g 0 0) fun s _ => s.replay k.toNat)

/-! ### HALT, NOP and the waits for units -/

/-- HALT (Table 6-8): the core ends its program. -/
def execHalt (k : CoreId) (g : BitVec 3) (s : State) : Res :=
  .next (s.issue k g (ctlWord 6 g 0) fun s _ => .ended s)

/-- NOP (Table 6-8). -/
def execNop (k : CoreId) (g : BitVec 3) (s : State) : Res :=
  .next (s.issue k g (ctlWord 7 g 0) fun s _ => .done s)

/-- An earlier instruction of the core may still write its scratchpad: an ATTEND, a DMA chain, a HOIST or an RRECV in
progress (log entry 13). Every other one completes in its own step. -/
def Core.writesDue (c : Core) : Bool :=
  c.attend.isSome || c.dma.any (fun d => !d.ended) || !c.halWait.isEmpty || !c.halOut.isEmpty ||
    c.relBuf.any fun q => q.2.any fun b => decide (b.filled < b.n)

/-- FENCE (Table 6-8): waits until every earlier instruction has completed its scratchpad writes. -/
def execFence (k : CoreId) (g : BitVec 3) (s : State) : Res :=
  .next (s.issue k g (ctlWord 7 g 0x100000) fun s _ => if (s.core k.toNat).writesDue then .stall else .done s)

/-- SYNCU (Table 6-8): waits until the vector and matrix units are idle; an ATTEND holds them to its end (R457). -/
def execSyncu (k : CoreId) (g : BitVec 3) (s : State) : Res :=
  .next (s.issue k g (ctlWord 7 g 0x200000) fun s _ => if (s.core k.toNat).attend.isSome then .stall else .done s)

end Sys2Proof.Machine
end

