-- ==== Sys2Proof/Machine/Vector.lean ====
section
/-! DEFINITION. The vector instructions (R241 to R244, Tables 6-10 and 6-11; the arithmetic of R299 to R317). -/

namespace Sys2Proof.Machine

/-! ### Forms -/

/-- Combine two lists lane by lane. -/
def lanes2 (f : Word → Word → Word × NumEv) (a b : List Word) : List Word × NumEv :=
  let r := List.zipWith f a b
  (r.map (·.1), NumEv.all (r.map (·.2)))

/-- A vector instruction with an effect on register d: `r` gives the lanes and events; the result is tagged as its
sources and the guard (R266). -/
def State.vecOut (s : State) (k : Nat) (d : BitVec 5) (tag : Bool) (r : List Word × NumEv) : Eff :=
  .done ((s.modCore k fun c => c.setV d r.1 tag).numEv k tag r.2)

/-- d ← op of a and b per lane. `strict`: what the strict lane computes, none where it has no strict form (cause 1);
`fast`: the fast path's, none where it has none. -/
def State.vec2 (s : State) (func : Nat) (k : CoreId) (g : BitVec 3) (st : Bool) (d a b : BitVec 5)
    (fast strict : Option (Bool → Word → Word → Word × NumEv)) : State :=
  s.issue k g (vecWord func g st d a b 0) fun s gt =>
    let i := k.toNat
    let c := s.core i
    match if st then strict else fast with
    | none => .trap 1
    | some f => s.vecOut i d (gt || c.tagOfV a || c.tagOfV b) (lanes2 (f (s.ftz i)) (c.vv a) (c.vv b))

/-- d ← op of a per lane. -/
def State.vec1 (s : State) (func : Nat) (k : CoreId) (g : BitVec 3) (st : Bool) (d a : BitVec 5)
    (fast strict : Option (Bool → Word → Word × NumEv)) : State :=
  s.issue k g (vecWord func g st d a 0 0) fun s gt =>
    let i := k.toNat
    let c := s.core i
    match if st then strict else fast with
    | none => .trap 1
    | some f =>
      let r := (c.vv a).map (f (s.ftz i))
      s.vecOut i d (gt || c.tagOfV a) (r.map (·.1), NumEv.all (r.map (·.2)))

/-- A lane operation on bits: no flush, no event (R301). -/
def bits2 (f : Word → Word → Word) (_ftz : Bool) (a b : Word) : Word × NumEv := (f a b, NumEv.none)
def bits1 (f : Word → Word) (_ftz : Bool) (a : Word) : Word × NumEv := (f a, NumEv.none)

/-- Three sources. -/
def lanes3 (f : Word → Word → Word → Word × NumEv) : List Word → List Word → List Word → List (Word × NumEv)
  | a :: as, b :: bs, c :: cs => f a b c :: lanes3 f as bs cs
  | _, _, _ => []

def State.vec3 (s : State) (func : Nat) (k : CoreId) (g : BitVec 3) (st : Bool) (d a b c : BitVec 5)
    (fast strict : Option (Bool → Word → Word → Word → Word × NumEv)) : State :=
  s.issue k g (vecWord func g st d a b c) fun s gt =>
    let i := k.toNat
    let x := s.core i
    match if st then strict else fast with
    | none => .trap 1
    | some f =>
      let r := lanes3 (f (s.ftz i)) (x.vv a) (x.vv b) (x.vv c)
      s.vecOut i d (gt || x.tagOfV a || x.tagOfV b || x.tagOfV c) (r.map (·.1), NumEv.all (r.map (·.2)))

/-! ### Arithmetic -/

/-- VADD (Table 6-10). -/
def execVadd (k : CoreId) (g : BitVec 3) (st : Bool) (d a b : BitVec 5) (s : State) : Res :=
  .next (s.vec2 0 k g st d a b (some fun z => fast2 z FV.add) (some fun _ => strictAdd))

/-- VSUB (Table 6-10). -/
def execVsub (k : CoreId) (g : BitVec 3) (st : Bool) (d a b : BitVec 5) (s : State) : Res :=
  .next (s.vec2 1 k g st d a b (some fun z => fast2 z fun x y => FV.add x (FV.neg y)) (some fun _ => strictSub))

/-- VMUL (Table 6-10). -/
def execVmul (k : CoreId) (g : BitVec 3) (st : Bool) (d a b : BitVec 5) (s : State) : Res :=
  .next (s.vec2 2 k g st d a b (some fun z => fast2 z FV.mul) (some fun _ => strictMul))

/-- VFMA (Table 6-10). -/
def execVfma (k : CoreId) (g : BitVec 3) (st : Bool) (d a b c : BitVec 5) (s : State) : Res :=
  .next (s.vec3 3 k g st d a b c (some fastFma) (some fun _ => strictFma))

/-- VMAX (Table 6-10, R312). -/
def execVmax (k : CoreId) (g : BitVec 3) (st : Bool) (d a b : BitVec 5) (s : State) : Res :=
  .next (s.vec2 4 k g st d a b (some fun z => fast2 z maxV) none)

/-- VMIN (Table 6-10, R312). -/
def execVmin (k : CoreId) (g : BitVec 3) (st : Bool) (d a b : BitVec 5) (s : State) : Res :=
  .next (s.vec2 5 k g st d a b (some fun z => fast2 z minV) none)

/-- VABS (Table 6-10). -/
def execVabs (k : CoreId) (g : BitVec 3) (st : Bool) (d a : BitVec 5) (s : State) : Res :=
  .next (s.vec1 6 k g st d a (some (bits1 fun x => x &&& 0x7FFFFFFF#32)) none)

/-- VNEG (Table 6-10). -/
def execVneg (k : CoreId) (g : BitVec 3) (st : Bool) (d a : BitVec 5) (s : State) : Res :=
  .next (s.vec1 7 k g st d a (some (bits1 fun x => x ^^^ 0x80000000#32)) none)

/-- VEXP2 (R242). -/
def execVexp2 (k : CoreId) (g : BitVec 3) (st : Bool) (d a : BitVec 5) (s : State) : Res :=
  .next (s.vec1 8 k g st d a (some fun z => fast1 z exp2V) (some fun _ => strictExp2))

/-- VLOG2 (R242). -/
def execVlog2 (k : CoreId) (g : BitVec 3) (st : Bool) (d a : BitVec 5) (s : State) : Res :=
  .next (s.vec1 9 k g st d a (some fun z => fast1 z log2V) (some fun _ => strictLog2))

/-- VDIV (Table 6-10): strict only. -/
def execVdiv (k : CoreId) (g : BitVec 3) (st : Bool) (d a b : BitVec 5) (s : State) : Res :=
  .next (s.vec2 10 k g st d a b none (some fun _ => strictDiv))

/-- VSQRT (Table 6-10): strict only. -/
def execVsqrt (k : CoreId) (g : BitVec 3) (st : Bool) (d a : BitVec 5) (s : State) : Res :=
  .next (s.vec1 11 k g st d a none (some fun _ => strictSqrt))

/-- VCMPEQ (R312). -/
def execVcmpeq (k : CoreId) (g : BitVec 3) (st : Bool) (d a b : BitVec 5) (s : State) : Res :=
  .next (s.vec2 12 k g st d a b (some fun z => fastCmp z FV.eqv) none)

/-- VCMPLT (R312). -/
def execVcmplt (k : CoreId) (g : BitVec 3) (st : Bool) (d a b : BitVec 5) (s : State) : Res :=
  .next (s.vec2 13 k g st d a b (some fun z => fastCmp z FV.lt) none)

/-- VSEL (Table 6-10): a where c is not zero, else b. -/
def execVsel (k : CoreId) (g : BitVec 3) (st : Bool) (d a b c : BitVec 5) (s : State) : Res :=
  .next (s.vec3 14 k g st d a b c (some fun _ x y z => (if z ≠ 0 then x else y, NumEv.none)) none)

/-- VAND (Table 6-10). -/
def execVand (k : CoreId) (g : BitVec 3) (st : Bool) (d a b : BitVec 5) (s : State) : Res :=
  .next (s.vec2 15 k g st d a b (some (bits2 fun x y => x &&& y)) none)

/-- VOR (Table 6-10). -/
def execVor (k : CoreId) (g : BitVec 3) (st : Bool) (d a b : BitVec 5) (s : State) : Res :=
  .next (s.vec2 16 k g st d a b (some (bits2 fun x y => x ||| y)) none)

/-- VXOR (Table 6-10). -/
def execVxor (k : CoreId) (g : BitVec 3) (st : Bool) (d a b : BitVec 5) (s : State) : Res :=
  .next (s.vec2 17 k g st d a b (some (bits2 fun x y => x ^^^ y)) none)

/-! ### Reductions and moves -/

/-- A pairwise reduction into lane 0, the other lanes +0 (R243, R244). -/
def State.vecRed (s : State) (func : Nat) (k : CoreId) (g : BitVec 3) (st : Bool) (d a : BitVec 5)
    (f : Bool → Word → Word → Word × NumEv) : State :=
  s.issue k g (vecWord func g st d a 0 0) fun s gt =>
    let i := k.toNat
    let c := s.core i
    if st then .trap 1
    else
      let op (x y : Word × NumEv) : Word × NumEv :=
        let r := f (s.ftz i) x.1 y.1
        (r.1, (x.2.join y.2).join r.2)
      let r := (pairTree op 6 ((c.vv a).map fun w => (w, NumEv.none))).headD (0, NumEv.none)
      s.vecOut i d (gt || c.tagOfV a) (r.1 :: List.replicate 63 0, r.2)

/-- VSUM (R243). -/
def execVsum (k : CoreId) (g : BitVec 3) (st : Bool) (d a : BitVec 5) (s : State) : Res :=
  .next (s.vecRed 18 k g st d a fun z => fast2 z FV.add)

/-- VRMAX (R244). -/
def execVrmax (k : CoreId) (g : BitVec 3) (st : Bool) (d a : BitVec 5) (s : State) : Res :=
  .next (s.vecRed 19 k g st d a fun z => fast2 z maxV)

/-- VBC (Table 6-10): bits [31:0] of s register a to every lane. -/
def execVbc (k : CoreId) (g : BitVec 3) (st : Bool) (d a : BitVec 5) (s : State) : Res :=
  .next (s.issue k g (vecWord 20 g st d a 0 0) fun s gt =>
    let c := s.core k.toNat
    if st then .trap 1
    else s.vecOut k.toNat d (gt || c.tagOfS a) (List.replicate 64 ((c.sv a).setWidth 32), NumEv.none))

/-- VEXT (Table 6-10): s register d ← lane (s[b] mod 64) of a, zero-extended. -/
def execVext (k : CoreId) (g : BitVec 3) (st : Bool) (d a b : BitVec 5) (s : State) : Res :=
  .next (s.issue k g (vecWord 21 g st d a b 0) fun s gt =>
    let i := k.toNat
    let c := s.core i
    if st then .trap 1
    else
      let tag := gt || c.tagOfV a || c.tagOfS b
      let w := (c.vv a).getD ((c.sv b).toNat % 64) 0
      .done ((s.setCore i (c.setS d (w.setWidth 64) tag)).numEv i tag NumEv.none))

/-- Words of a byte string, little-endian. -/
def wordsOf (bs : List Byte) : Nat → List Word
  | 0 => []
  | n + 1 => BitVec.ofNat 32 (leNat (bs.take 4)) :: wordsOf (bs.drop 4) n

/-- The traps of a 256-byte access, 64-byte aligned. -/
def vecTrap (off : Nat) : Option Nat := if !spIn off 256 then some 3 else if off % 64 = 0 then none else some 4

/-- VLD (Table 6-10). -/
def execVld (k : CoreId) (g : BitVec 3) (st : Bool) (d a : BitVec 5) (s : State) : Res :=
  .next (s.issue k g (vecWord 22 g st d a 0 0) fun s gt =>
    let i := k.toNat
    let c := s.core i
    let off := (c.sv a).toNat
    if st then .trap 1
    else match vecTrap off with
      | some cause => .trap cause
      | none =>
        s.vecOut i d (gt || c.tagOfS a || c.tagRange off 256) (wordsOf (s.spGet i off 256) 64, NumEv.none))

/-- VST (Table 6-10). -/
def execVst (k : CoreId) (g : BitVec 3) (st : Bool) (d a : BitVec 5) (s : State) : Res :=
  .next (s.issue k g (vecWord 23 g st d a 0 0) fun s gt =>
    let i := k.toNat
    let c := s.core i
    let off := (c.sv a).toNat
    let tag := gt || c.tagOfS a || c.tagOfV d
    if st then .trap 1
    else match vecTrap off with
      | some cause => .trap cause
      | none =>
        if s.tagStoreBad i tag off 256 then .trap 8
        else
          let bs := ((c.vv d).map fun w => leBytes w.toNat 4).flatten
          .done ((s.spStore i off bs tag).numEv i tag NumEv.none))

/-! ### Conversions (R302, R303, R307 to R309, R313, R314) -/

/-- A value that rounds to less than 2^-14 with 11 bits and unbounded exponent. -/
def tiny16 : FV → Bool
  | .num _ m e =>
    if m = 0 then false
    else
      let r := roundBin 11 (-100000) m e
      decide ((Nat.log2 r.1 : Int) + r.2 < -14)
  | _ => false

/-- One element of VCVT on the fast path. -/
def cvtFast (f : Nat) (ftz sat8 : Bool) (rd : Rnd) (w : Word) : Nat × NumEv :=
  let x := fastIn ftz w
  let r := convShort f sat8 false (nan32 w) rd (f32 x.1)
  (r.1, x.2.join r.2.1)

/-- One element of VCVT on the strict lane: to F16 to nearest under IEEE 754-2019, the payload's top 9 bits kept;
otherwise with the sign of zero kept and inexact when the value changes. -/
def cvtStrict (f : Nat) (sat8 : Bool) (rd : Rnd) (w : Word) : Nat × NumEv :=
  if f = 1 && nan32 w then
    (bitsOf w.toNat 31 1 * 0x8000 + 0x7E00 + bitsOf w.toNat 13 9, NumEv.when (isSnan w) NumEv.invalid)
  else
    let r := convShort f sat8 true (nan32 w) rd (f32 w)
    let under := f == 1 && r.2.2 && tiny16 (f32 w) && decide (rd = .nearest)
    (r.1, (r.2.1.join (NumEv.when r.2.2 NumEv.inexact)).join (NumEv.when under NumEv.underflow))

/-- Convert each lane with its own generator's bits, in ascending order (R307). -/
def cvtLanes (f : Rnd → Word → Nat × NumEv) (rc : Nat) : List Word → Nat → Core → List Nat × NumEv × Core
  | [], _, c => ([], NumEv.none, c)
  | w :: ws, i, c =>
    let (rd, c) := c.rnd rc i
    let r := f rd w
    let t := cvtLanes f rc ws (i + 1) c
    (r.1 :: t.1, r.2.join t.2.1, t.2.2)

/-- Pack codes of `b` bits from bit 0. -/
def packCodes (b : Nat) : List Nat → Nat
  | [] => 0
  | x :: xs => x + p2 b * packCodes b xs

/-- The 64 words of a 2,048-bit number. -/
def vecOfNat (v : Nat) : List Word := wordsOf (leBytes v 256) 64

def natOfVec (v : List Word) : Nat := packCodes 32 (v.map (·.toNat))

/-- VCVT (Table 6-10, R302): formats 1 to 3, rounding codes 0 to 2; others are cause 1. -/
def execVcvt (k : CoreId) (g : BitVec 3) (st : Bool) (d a b c : BitVec 5) (s : State) : Res :=
  .next (s.issue k g (vecWord 24 g st d a b c) fun s gt =>
    let i := k.toNat
    let x := s.core i
    let f := b.toNat
    if f = 0 || 3 < f || 2 < c.toNat then .trap 1
    else
      let conv := if st then cvtStrict f (s.sat8 i) else cvtFast f (s.ftz i) (s.sat8 i)
      let r := cvtLanes conv c.toNat (x.vv a) 0 x
      (s.setCore i r.2.2).vecOut i d (gt || x.tagOfV a) (vecOfNat (packCodes (elemBits f) r.1), r.2.1))

/-- One element of VUNPK, expanded to binary32; the strict lane keeps the sign of zero and F16 payloads. -/
def unpk (f : Nat) (st : Bool) (w : Nat) : Word × NumEv :=
  match elemVal f w with
  | .nan =>
    if st && f == 1 then
      (BitVec.ofNat 32 (bitsOf w 15 1 * p2 31 + 0x7FC00000 + bitsOf w 0 9 * p2 13),
        NumEv.when (bitsOf w 9 1 == 0) NumEv.invalid)
    else (qnan32, NumEv.none)
  | v => (if st then toF32 v else posZero (toF32 v), NumEv.none)

/-- VUNPK (Table 6-10): formats 1 to 3; others are cause 1. -/
def execVunpk (k : CoreId) (g : BitVec 3) (st : Bool) (d a b : BitVec 5) (s : State) : Res :=
  .next (s.issue k g (vecWord 25 g st d a b 0) fun s gt =>
    let i := k.toNat
    let x := s.core i
    let f := b.toNat
    if f = 0 || 3 < f then .trap 1
    else
      let w := natOfVec (x.vv a)
      let r := (List.range 64).map fun j => unpk f st (bitsOf w (j * elemBits f) (elemBits f))
      s.vecOut i d (gt || x.tagOfV a) (r.map (·.1), NumEv.all (r.map (·.2))))

/-- The larger magnitude of two finite values. -/
def maxMag (a b : FV) : FV :=
  let abs : FV → FV := fun | .num _ m e => .num false m e | v => v
  if FV.lt (abs a) (abs b) then abs b else abs a

/-- The scale of a block and the way it converts one lane (R309): none where a lane is NaN or infinite. -/
def mxScale (f : Nat) (v : List FV) : Option (Nat × Int) :=
  if v.any fun x => x.isNan || x.isInf then none
  else
    match v.foldl maxMag (.num false 0 0) with
    | .num _ m e =>
      if m = 0 then some (127, 0)
      else
        let sh : Int := (Nat.log2 m : Int) + e - elemEmax f
        let sh := if sh < -127 then -127 else if 127 < sh then 127 else sh
        some ((sh + 127).toNat, sh)
    | _ => none

/-- Quantise one block of 32 lanes, the first being lane `i` (R309): codes, scale, events, the core after its
generators' steps. -/
def mxBlock (f rc : Nat) (ftz : Bool) (ws : List Word) (i : Nat) (c : Core) : List Nat × Nat × NumEv × Core :=
  let ins := ws.map (fastIn ftz)
  let evIn := NumEv.all (ins.map (·.2))
  let sc := mxScale f (ins.map fun x => f32 x.1)
  let conv (rd : Rnd) (w : Word) : Nat × NumEv :=
    match sc, f32 w with
    | some (_, sh), .num s m e => convMx f rd s m (e - sh)
    | _, _ => (0, NumEv.none)
  let r := cvtLanes conv rc (ins.map (·.1)) i c
  match sc with
  | some (x, _) => (r.1, x, evIn.join r.2.1, r.2.2)
  | none =>
    let made : NumEv := if ws.any nan32 then NumEv.none else { NumEv.none with nan := 32, flags := 4 }
    (r.1, 255, evIn.join made, r.2.2)

/-- VMXQ (Table 6-10, R309): formats 4 to 9, rounding codes 0 to 2; others are cause 1. -/
def execVmxq (k : CoreId) (g : BitVec 3) (st : Bool) (d a b c : BitVec 5) (s : State) : Res :=
  .next (s.issue k g (vecWord 26 g st d a b c) fun s gt =>
    let i := k.toNat
    let x := s.core i
    let f := b.toNat
    if st || !isMx f || 2 < c.toNat then .trap 1
    else
      let v := x.vv a
      let (c0, x0, e0, k0) := mxBlock f c.toNat (s.ftz i) (v.take 32) 0 x
      let (c1, x1, e1, k1) := mxBlock f c.toNat (s.ftz i) (v.drop 32) 32 k0
      let w := packCodes (elemBits f) (c0 ++ c1) + (x0 + 256 * x1) * p2 2032
      (s.setCore i k1).vecOut i d (gt || x.tagOfV a) (vecOfNat w, e0.join e1))

end Sys2Proof.Machine
end

