-- ==== Sys2Proof/Machine/Matrix.lean ====
section
/-! DEFINITION. The matrix and accumulation instructions (R245 to R251, R805, and the arithmetic of R326 to R358). -/

namespace Sys2Proof.Machine

/-! ### Accumulation groups: control state and region -/

def Core.agAt (c : Core) (x : BitVec 3) : Option AGrp := Tab.find c.ag x.toNat
def Core.setAg (c : Core) (x : BitVec 3) (g : AGrp) : Core := { c with ag := Tab.put x.toNat g c.ag }

/-- First byte of the region. -/
def AGrp.base (g : AGrp) : Nat := g.rbase * 16

/-- Free bytes, drawn one by one (log entry 1). -/
def State.freeBytes (s : State) : Nat → List Byte × State
  | 0 => ([], s)
  | n + 1 =>
    let (b, s) := s.draw 8
    let (bs, s) := s.freeBytes n
    (b :: bs, s)

/-- Before an accumulation group's value is used: where a write by other means made it undefined, and until AGWR, AGLOAD or
AGOPEN, its region holds free values (R248). -/
def State.settle (s : State) (k : Nat) (x : BitVec 3) (g : AGrp) : State × AGrp :=
  if g.dirty then
    let (bs, s) := s.freeBytes g.bytes
    let g := { g with fresh := false }
    ((s.memStore (spBase k + g.base) bs).modCore k fun c => c.setAg x g, g)
  else (s, g)

/-- Entry `n` of the region: the pairs of its m × 32 elements, row after row (R336). -/
def State.agEntry (s : State) (k : Nat) (g : AGrp) (n : Nat) : List Pair :=
  ((List.range g.m).map fun r =>
    let row := s.spGet k (g.base + n * g.m * 256 + r * 256) 256
    List.zip (wordsOf row 32) (wordsOf (row.drop 128) 32)).flatten

/-- Rows of 32 of a list. -/
def rows32 {α : Type} (l : List α) (m : Nat) : List (List α) := (List.range m).map fun r => (l.drop (32 * r)).take 32

def bytesOfWords (ws : List Word) : List Byte := (ws.map fun w => leBytes w.toNat 4).flatten

/-- Write entry `n` of the region. -/
def State.putAgEntry (s : State) (k : Nat) (g : AGrp) (n : Nat) (ps : List Pair) : State :=
  let bs := ((rows32 ps g.m).map fun row => bytesOfWords (row.map (·.1)) ++ bytesOfWords (row.map (·.2))).flatten
  s.memStore (spBase k + g.base + n * g.m * 256) bs

/-- The binary16 tile of mode H; a group that has never been written holds +0 (log entry 10). -/
def State.agTileH (s : State) (k : Nat) (g : AGrp) : List Nat :=
  if g.fresh then List.replicate (g.m * 32) 0
  else
    let w := leNat (s.spGet k g.base (g.m * 64))
    (List.range (g.m * 32)).map fun i => bitsOf w (16 * i) 16

def State.putAgTileH (s : State) (k : Nat) (g : AGrp) (ws : List Nat) : State :=
  s.memStore (spBase k + g.base) ((ws.map fun w => leBytes w 2).flatten)

/-- Occupied level `h` of the stack. -/
def AGrp.has (g : AGrp) (h : Nat) : Bool := bitsOf g.occ h 1 == 1

/-! ### Products, groups and steps (R327 to R331) -/

/-- A value with whether a NaN was made from inputs none of which is NaN on the way to it (Table 8-5). -/
abbrev TV := FV × Bool

/-- A node of the group or step tree. -/
def addTV (a b : TV) : TV :=
  let v := rndT (FV.add a.1 b.1)
  (v, a.2 || b.2 || (v.isNan && !a.1.isNan && !b.1.isNan))

def posZeroV : FV := .num false 0 0

/-- An exact product of two lane operands. -/
def mulTV (a b : FV) : TV :=
  let v := FV.mul a b
  (match v with | .num _ 0 _ => posZeroV | v => v, v.isNan && !a.isNan && !b.isNan)

/-- An operand element of an MMA: hi and lo lane operands (R294, R295). -/
structure LaneOp where
  hi : FV
  lo : FV
  deriving DecidableEq, Repr

/-- Convert a float element; an F32 subnormal is flushed first (R299). -/
def laneOf (fmt : Nat) (ftz : Bool) (w : Nat) : LaneOp × NumEv :=
  if fmt = 0 then
    let x := fastIn ftz (BitVec.ofNat 32 w)
    let v := f32 x.1
    (⟨hiF32 v, loF32 v⟩, x.2)
  else
    match elemVal fmt w with
    | .num _ 0 _ => (⟨posZeroV, posZeroV⟩, NumEv.none)
    | v => (⟨v, posZeroV⟩, NumEv.none)

/-- The product of pass 1, 2 or 3; a lo operand of +0 gives +0 whatever the other (R296, R297). -/
def passProd (q : Nat) (a b : LaneOp) : TV :=
  if q = 1 then mulTV a.hi b.hi
  else if q = 2 then (if isPosZero b.lo then (posZeroV, false) else mulTV a.hi b.lo)
  else (if isPosZero a.lo then (posZeroV, false) else mulTV a.lo b.hi)

/-- One group of 16 products and its root (R328, R330): `np` passes formed, and the pair of fine scales for MX. -/
def groupTV (np : Nat) (scales : Option (Nat × Nat)) (a b : List LaneOp) : TV :=
  let pass (q : Nat) : TV :=
    if np < q then (posZeroV, false)
    else (pairTree addTV 4 (List.zipWith (passProd q) a b)).headD (posZeroV, false)
  let g := addTV (addTV (pass 1) (pass 2)) (pass 3)
  match scales with
  | none => g
  | some (xa, xb) =>
    if xa = 255 || xb = 255 then (.nan, g.2 || !g.1.isNan)
    else (FV.scale ((xa : Int) - 127 + ((xb : Int) - 127)) g.1, g.2)

/-- Groups of 16 along k. -/
def chunks16 {α : Type} (n : Nat) (l : List α) : List (List α) := (List.range n).map fun j => (l.drop (16 * j)).take 16

/-! ### The operands of one MMA -/

/-- The rows of A and the columns of B as lane operands, their fine scales, and the flush events of their elements. The
scale of B at block j of column c is byte c × (k / 32) + j (R287; log entry 11). -/
structure MmaIn where
  a : List (List LaneOp)
  b : List (List LaneOp)
  sa : List (List Nat)
  sb : List (List Nat)
  ev : NumEv

def mmaIn (s : State) (k : Nat) (ta tb : Tile) : MmaIn :=
  let z := s.ftz k
  let conv (t : Tile) (r : Nat) : List (LaneOp × NumEv) := (TD.rowCodes s k t r).map (laneOf (TD.fmt t) z)
  let ar := (List.range (TD.rows ta)).map (conv ta)
  let br := (List.range (TD.rows tb)).map (conv tb)
  let brow := br.map fun r => r.map (·.1)
  let n := TD.rows tb / 32
  let sbAll := if isMx (TD.fmt tb) then (s.spGet k (TD.sbase tb) (32 * n)).map (·.toNat) else []
  { a := ar.map fun r => r.map (·.1)
    b := (List.range 32).map fun c => brow.map fun r => r.getD c ⟨posZeroV, posZeroV⟩
    sa := (List.range (TD.rows ta)).map (TD.rowScales s k ta)
    sb := (List.range 32).map fun c => (sbAll.drop (c * n)).take n
    ev := NumEv.all ((ar ++ br).map fun r => NumEv.all (r.map (·.2))) }

/-- The pair of fine scales of slice `j`. -/
def scalesAt (mx : Bool) (sa sb : List Nat) (j : Nat) : Option (Nat × Nat) :=
  if mx then some (sa.getD (j / 2) 127, sb.getD (j / 2) 127) else none

/-- The group results of one output element, in slice order. -/
def elemGroups (np : Nat) (mx : Bool) (a b : List LaneOp) (sa sb : List Nat) : List TV :=
  let n := a.length / 16
  ((List.zip (chunks16 n a) (chunks16 n b)).zipIdx).map fun p =>
    groupTV np (scalesAt mx sa sb p.2) p.1.1 p.1.2

/-- The step result before scale-back: canonical pairwise order (R331). -/
def stepTV (gs : List TV) : TV := (pairTree addTV (gs.length + 1) gs).headD (posZeroV, false)

/-- Every element of an m × 32 output, row after row. -/
def elems {α : Type} (m : Nat) (f : Nat → Nat → α) : List α :=
  ((List.range m).map fun r => (List.range 32).map fun c => f r c).flatten

/-! ### Entry and push (R332, R338 to R340) -/

/-- One element's push: the stored levels at that element, the newest pair; gives the pair to store, its level, and
whether a merge triggered or made a NaN. `top` is L - 1. -/
def pushElem (occ top : Nat) (lvl : Nat → Pair) : Nat → Nat → Pair → Pair × Nat × Bool × Bool
  | 0, h, x => (x, h, false, false)
  | n + 1, h, x =>
    if bitsOf occ h 1 = 1 then
      let r := mergePair (lvl h) x
      if h < top then
        let t := pushElem occ top lvl n (h + 1) r.1
        (t.1, t.2.1, r.2.1 || t.2.2.1, r.2.2 || t.2.2.2)
      else (r.1, h, r.2.1, r.2.2)
    else (x, h, false, false)

/-- The level a push ends at, and the occupancy after it. -/
def pushTo (occ top : Nat) : Nat → Nat → Nat × Nat
  | 0, h => (h, occ)
  | n + 1, h =>
    if bitsOf occ h 1 = 1 && decide (h < top) then pushTo (occ - p2 h) top n (h + 1)
    else (h, Nat.lor occ (p2 h))

/-- What one attempt of an MMA gives: the level to store, its pairs or its binary16 words, occupancy, events, and
whether it triggered scale-back. -/
structure Attempt where
  level : Nat
  pairs : List Pair
  words : List Nat
  occ : Nat
  ev : NumEv
  trig : Bool

/-- An attempt in modes P and L. -/
def attemptPL (s : State) (k : Nat) (g : AGrp) (gs : List (List TV)) : Attempt :=
  let lv := (List.range g.levels).map fun h => if g.has h then s.agEntry k g h else []
  let one (i : Nat) (g1 : List TV) : Pair × NumEv × Bool :=
    let p := stepTV g1
    let x := FV.scale (-(16 * (g.retries : Int))) p.1
    let e := entryPair (s.ftz k) x
    let r := pushElem g.occ (g.levels - 1) (fun h => (lv.getD h []).getD i (0, 0)) g.levels 0 e.1
    let made := p.2 || r.2.2.2
    (r.1, e.2.1.join (NumEv.when made NumEv.nanMade), e.2.2 || r.2.2.1)
  let rs := (gs.zipIdx).map fun p => one p.2 p.1
  let to_ := pushTo g.occ (g.levels - 1) g.levels 0
  { level := to_.1, pairs := rs.map (·.1), words := [], occ := to_.2, ev := NumEv.all (rs.map (·.2.1)),
    trig := rs.any (·.2.2) }

/-- One addition of mode H: exact sum rounded once to binary16 (R340). -/
def addH (retries : Nat) (w : Nat) (p : TV) : Nat × Bool × Bool :=
  let x := FV.scale (-(16 * (retries : Int))) p.1
  let v := FV.add (f16 w) x
  let made := p.2 || (v.isNan && !(f16 w).isNan && !x.isNan)
  let r := fmt16.rnd v
  let r := if r = 0x8000 then 0 else r
  (r, made, (f16 r).isInf && !v.isInf && !v.isNan)

/-- An attempt in mode H: the group results one by one. -/
def attemptH (s : State) (k : Nat) (g : AGrp) (gs : List (List TV)) : Attempt :=
  let t := s.agTileH k g
  let one (w : Nat) (g1 : List TV) : Nat × Bool × Bool :=
    g1.foldl (fun acc p => let r := addH g.retries acc.1 p; (r.1, acc.2.1 || r.2.1, acc.2.2 || r.2.2)) (w, false, false)
  let rs := List.zipWith one t gs
  { level := 0, pairs := [], words := rs.map (·.1), occ := 0,
    ev := NumEv.all (rs.map fun r => NumEv.when r.2.1 NumEv.nanMade), trig := rs.any (·.2.2) }

/-- A stored binary32 value times 2^-16, rounded once. -/
def down32 (w : Word) : Word := if nan32 w || inf32 w then w else posZero (toF32 (FV.scale (-16) (f32 w)))

def down16 (w : Nat) : Nat :=
  match f16 w with
  | .num _ _ _ => let r := fmt16.rnd (FV.scale (-16) (f16 w)); if r = 0x8000 then 0 else r
  | _ => w

/-- Step 3 of R352: every stored value of the occupied levels, or the tile of mode H, times 2^-16. -/
def State.rescale (s : State) (k : Nat) (g : AGrp) : State :=
  if g.mode = 2 then s.putAgTileH k g ((s.agTileH k g).map down16)
  else s.each ((List.range g.levels).filter g.has) fun s h =>
    (s.spFind k (g.base + h * g.m * 256) (g.m * 256)).putAgEntry k g h ((s.agEntry k g h).map fun p => (down32 p.1, down32 p.2))

/-- Execute an MMA of the float channel with scale-back (R350 to R354): retried while it triggers and fewer than four
retries stand; the attempt that completes gives the counts, with one per retry. -/
def State.mmaRun (s : State) (k : Nat) (gs : List (List TV)) : Nat → AGrp → NumEv → State × AGrp × NumEv
  | fuel, g, ev =>
    let a := if g.mode = 2 then attemptH s k g gs else attemptPL s k g gs
    let finish (extra : NumEv) : State × AGrp × NumEv :=
      let s := if g.mode = 2 then s.putAgTileH k g a.words else s.putAgEntry k g a.level a.pairs
      (s, { g with occ := a.occ, fresh := false }, (ev.join a.ev).join extra)
    match fuel with
    | 0 => finish (NumEv.when a.trig NumEv.ovf)
    | n + 1 =>
      if !a.trig then finish NumEv.none
      else if 4 ≤ g.retries then finish NumEv.ovf
      else
        let s := s.rescale k g
        State.mmaRun s k gs n { g with retries := g.retries + 1, fresh := false } (ev.join NumEv.retried)

/-! ### The integer channel (R291, R341) -/

/-- Shift a group's integer sum into units of 2^-iq, ties to even (R291). -/
def iShift (g : Int) (sh : Int) : Int :=
  if 0 ≤ sh then g * (p2 sh.toNat : Nat)
  else
    let r : Int := (rne g.natAbs (-sh).toNat : Nat)
    if g < 0 then -r else r

/-- One element: acc and mark after the groups of one MMA. -/
def intElem (iq : Nat) (mx : Bool × Bool) (a b : List Nat) (sa sb : List Nat) (acc : Word) (mark : Bool) :
    Word × Bool :=
  let n := a.length / 16
  ((List.zip (chunks16 n a) (chunks16 n b)).zipIdx).foldl (fun st p =>
    let xa := sa.getD (p.2 / 2) 127
    let xb := sb.getD (p.2 / 2) 127
    if xa = 255 || xb = 255 then (st.1, true)
    else
      let g : Int := (List.zipWith (fun x y => mxi8 mx.1 x * mxi8 mx.2 y) p.1.1 p.1.2).sum
      let sh : Int := ((xa : Int) - 127) + ((xb : Int) - 127) - 12 + iq
      (st.1 + BitVec.ofInt 32 (iShift g sh), st.2)) (acc, mark)

/-- The words of the MXI8 channel, entry 0 of the region; zero in a group that AGOPEN opened and nothing has written since
(log entry 10). -/
def State.agInts (s : State) (k : Nat) (g : AGrp) : List Pair :=
  if g.fresh then List.replicate (g.m * 32) (0, 0) else s.agEntry k g 0

/-- An MMA of the MXI8 channel: into entry 0, without the stack (R341). -/
def State.mmaInt (s : State) (k : Nat) (g : AGrp) (ta tb : Tile) : State × AGrp :=
  let ar := (List.range (TD.rows ta)).map (TD.rowCodes s k ta)
  let br := (List.range (TD.rows tb)).map (TD.rowCodes s k tb)
  let n := TD.rows tb / 32
  let sb := (s.spGet k (TD.sbase tb) (32 * n)).map (·.toNat)
  let old := s.agInts k g
  let iq := s.get (F.NUM_CFG_iq k)
  let new := elems g.m fun r c =>
    let o := old.getD (32 * r + c) (0, 0)
    let x := intElem iq (TD.sgn ta, TD.sgn tb) (ar.getD r []) (br.map fun row => row.getD c 0)
      (TD.rowScales s k ta r) ((sb.drop (c * n)).take n) o.1 (o.2 != 0)
    (x.1, if x.2 then (1 : Word) else 0)
  (s.putAgEntry k g 0 new, { g with fresh := false })

/-! ### MMA -/

/-- Family of Table 7-3. -/
def family (f : Nat) : Nat := if f = 0 then 0 else if f = 1 then 1 else if f ≤ 3 then 2 else if f ≤ 8 then 3 else 4

/-- R292: the same family, or F32 with F16. -/
def familyOk (fa fb : Nat) : Bool := family fa == family fb || (family fa ≤ 1 && family fb ≤ 1)

/-- R246, R342: the shape and state an MMA needs. -/
def mmaOk (g : AGrp) (ta tb : Tile) : Bool :=
  let k := TD.cols ta
  let int := TD.fmt ta == 9
  g.m == TD.rows ta && decide (g.m ≤ 32) && k == TD.rows tb && decide (16 ≤ k) && decide (k ≤ 4096) &&
    k % (if isMx (TD.fmt ta) then 32 else 16) == 0 && TD.cols tb == 32 && familyOk (TD.fmt ta) (TD.fmt tb) &&
    (g.mode != 2 || (TD.fmt ta != 0 && TD.fmt tb != 0 && !int)) &&
    (match g.chan with | none => true | some c => c == int)

/-- Passes formed (R296): NUM_CFG.passes where an operand is F32. -/
def passCount (s : State) (k fa fb : Nat) : Nat := if fa = 0 || fb = 0 then s.get (F.NUM_CFG_passes k) else 1

/-- MMA (Table 6-12, R331). -/
def execMma (k : CoreId) (g : BitVec 3) (x : BitVec 3) (ta tb : BitVec 4) (s : State) : Res :=
  .next (s.issue k g (matWord 0 g x ta tb 0 0) fun s gt =>
    let i := k.toNat
    let c := s.core i
    let a := c.tv ta
    let b := c.tv tb
    if !TD.valid a || !TD.valid b then .trap 5
    else match c.agAt x with
      | none => .trap 6
      | some ag =>
        if !mmaOk ag a b then .trap 6
        else
          let tag := gt || ag.tagged || TD.tagged c a || TD.tagged c b
          let (s, ag) := s.settle i x ag
          let int := TD.fmt a == 9
          let (s, ag, ev) :=
            if int then
              let r := s.mmaInt i ag a b
              (r.1, r.2, NumEv.none)
            else
              let m := mmaIn s i a b
              let mx := isMx (TD.fmt a)
              let np := passCount s i (TD.fmt a) (TD.fmt b)
              let gs := elems ag.m fun r c =>
                elemGroups np mx (m.a.getD r []) (m.b.getD c []) (m.sa.getD r []) (m.sb.getD c [])
              s.mmaRun i gs 4 ag m.ev
          let ag := { ag with chan := some int, tagged := tag, steps := min (ag.steps + 1) (p2 32 - 1) }
          .done ((s.modCore i fun c => c.setAg x ag).numEv i tag ev))

/-! ### Opening and closing -/

/-- The region of `g` overlaps that of another open group (R344). -/
def Core.agOverlap (c : Core) (x : BitVec 3) (g : AGrp) : Bool :=
  c.ag.any fun p => p.1 != x.toNat && meets g.base g.bytes p.2.base p.2.bytes

/-- AGOPEN (R247, R344). -/
def execAgopen (k : CoreId) (g : BitVec 3) (x : BitVec 3) (tc : BitVec 4) (imm : BitVec 6) (s : State) : Res :=
  .next (s.issue k g (matWord 1 g x 0 0 tc imm) fun s gt =>
    let i := k.toNat
    let c := s.core i
    let t := c.tv tc
    let mode := imm.toNat / 16
    let levels := imm.toNat % 16 + 1
    let ag : AGrp := { mode := mode, m := TD.rows t, levels := levels, retries := 0, tagged := gt, occ := 0, steps := 0,
                       rbase := TD.base t / 16, chan := none, fresh := true, dirty := false }
    if (c.agAt x).isSome || mode = 3 || (mode ≠ 0 && 1 < levels) || !spIn ag.base ag.bytes || c.agOverlap x ag then
      .trap 6
    else .done ((s.setCore i (c.setAg x ag)).numEv i gt NumEv.none))

/-- The collapsed pairs of modes P and L (R345): occupied levels from the lowest upward. -/
def State.collapse (s : State) (k : Nat) (g : AGrp) : List Pair × List Bool :=
  let lv := ((List.range g.levels).filter g.has).map (s.agEntry k g)
  let one (i : Nat) : Pair × Bool :=
    lv.foldl (fun (acc : Option (Pair × Bool)) e =>
      let p := e.getD i (0, 0)
      match acc with
      | none => some (p, false)
      | some (a, made) => let r := mergePair p a; some (r.1, made || r.2.2)) none |>.getD ((0, 0), false)
  let rs := (List.range (g.m * 32)).map one
  (rs.map (·.1), rs.map (·.2))

/-- Convert one read-out value (R346): code and events. -/
def readOut (fmt : Nat) (ftz sat8 : Bool) (rd : Rnd) (c x : FV) (marked : Bool) : Nat × NumEv :=
  let y := FV.mul x c
  let nanIn := x.isNan || c.isNan
  let extra : NumEv := if marked then { NumEv.none with nan := 1 } else NumEv.none
  if fmt = 0 then
    let r := fastOut ftz nanIn y
    (r.1.toNat, r.2.join extra)
  else
    let r := convShort fmt sat8 false nanIn rd y
    (r.1, r.2.1.join extra)

/-- Read out row after row, each element with its generator (R307). -/
def readRows (fmt rc : Nat) (ftz sat8 : Bool) (c : FV) : List (FV × Bool) → Nat → Core → List Nat × NumEv × Core
  | [], _, k => ([], NumEv.none, k)
  | x :: xs, n, k =>
    let (rd, k) := if fmt = 0 then (Rnd.nearest, k) else k.rnd rc (32 * (n / 32 % 2) + n % 32)
    let r := readOut fmt ftz sat8 rd c x.1 x.2
    let t := readRows fmt rc ftz sat8 c xs (n + 1) k
    (r.1 :: t.1, r.2.join t.2.1, t.2.2)

/-- The exact element values at read-out, with whether an MXI8 element is marked, the pairs for entry L, and the NaNs
the collapse made. An undefined value of an empty stack is free as level 0 is. -/
def State.agValues (s : State) (k : Nat) (g : AGrp) : List (FV × Bool) × List Pair × NumEv :=
  if g.mode = 2 then ((s.agTileH k g).map fun w => (f16 w, false), [], NumEv.none)
  else if g.chan = some true then
    let ps := s.agInts k g
    let iq := s.get (F.NUM_CFG_iq k)
    (ps.map fun p =>
      if p.2 ≠ 0 then (.nan, true)
      else (.num (decide (p.1.toInt < 0)) p.1.toInt.natAbs (-(iq : Int)), false), ps, NumEv.none)
  else
    let (ps, made) := s.collapse k (if g.dirty && g.occ = 0 then { g with occ := 1 } else g)
    (ps.map fun p => (FV.add (f32 p.1) (f32 p.2), false), ps,
      NumEv.all (made.map fun b => NumEv.when b NumEv.nanMade))

/-- The output tile header (Table 8-3). -/
def tileHeader (g : AGrp) (rd inf nan : Bool) (fmt : Nat) (coarse : Word) : Nat :=
  16 * g.retries + g.retries * p2 7 + g.mode * p2 10 + (decide (g.chan = some true)).toNat * p2 12 + rd.toNat * p2 13 +
    inf.toNat * p2 14 + nan.toNat * p2 15 + fmt * p2 16 + coarse.toNat * p2 32 + g.steps * p2 64

/-- Read out an accumulation group into t[tc] with coarse product `cw` (R346, R347, R349): checks, entry L, tile,
header. -/
def State.agOut (s : State) (k : Nat) (x : BitVec 3) (t : Tile) (cw : Word) (rc : Nat) (rd gt : Bool)
    (fmts : List Nat) : Eff :=
  let c := s.core k
  if TD.base t = 0 then .trap 3
  else if !TD.valid t || !fmts.contains (TD.fmt t) then .trap 5
  else match c.agAt x with
    | none => .trap 6
    | some ag =>
      if TD.rows t ≠ ag.m || TD.cols t ≠ 32 then .trap 6
      else
        let tag := gt || ag.tagged
        let n := elemBits (TD.fmt t) * 4
        let bad := tag && !((List.range ag.m).all fun r => s.inQuar k (TD.base t + r * TD.pitch t) n) ||
          s.tagStoreBad k tag (TD.base t - 16) 16
        if bad then .trap 8
        else
          let (s, ag) := s.settle k x ag
          let (vals, ps, ev0) := s.agValues k ag
          let s := if ag.mode = 2 then s else s.putAgEntry k ag ag.levels ps
          let r := readRows (TD.fmt t) rc (s.ftz k) (s.sat8 k) (f32 cw) vals 0 (s.core k)
          let s := s.setCore k r.2.2
          let s := s.each (List.range ag.m) fun s row =>
            s.spStore k (TD.base t + row * TD.pitch t)
              (leBytes (packCodes (elemBits (TD.fmt t)) ((r.1.drop (32 * row)).take 32)) n) tag
          let outs := r.1.map (elemVal (TD.fmt t))
          let hd := tileHeader ag rd (outs.any FV.isInf) (outs.any FV.isNan) (TD.fmt t) cw
          let s := s.spStore k (TD.base t - 16) (leBytes hd 16) tag
          .done (s.numEv k tag (ev0.join r.2.1))

/-- AGCLOSE (R346): rounding code imm[1:0], 3 being cause 1; then the group closes. -/
def execAgclose (k : CoreId) (g : BitVec 3) (x : BitVec 3) (ta tb tc : BitVec 4) (imm : BitVec 6) (s : State) : Res :=
  .next (s.issue k g (matWord 2 g x ta tb tc imm) fun s gt =>
    let i := k.toNat
    let c := s.core i
    if imm.toNat % 4 = 3 then .trap 1
    else
      let cw := toF32 (FV.mul (f32 (TD.coarse (c.tv ta))) (f32 (TD.coarse (c.tv tb))))
      match s.agOut i x (c.tv tc) cw (imm.toNat % 4) false gt [0, 1, 2, 3] with
      | .done s => .done (s.modCore i fun c => { c with ag := Tab.del x.toNat c.ag })
      | e => e)

/-- AGRD (R347). -/
def execAgrd (k : CoreId) (g : BitVec 3) (x : BitVec 3) (tc : BitVec 4) (s : State) : Res :=
  .next (s.issue k g (matWord 3 g x 0 0 tc 0) fun s gt =>
    s.agOut k.toNat x ((s.core k.toNat).tv tc) 0x3F800000#32 0 true gt [0])

/-- AGWR (R348). -/
def execAgwr (k : CoreId) (g : BitVec 3) (x : BitVec 3) (ta : BitVec 4) (s : State) : Res :=
  .next (s.issue k g (matWord 4 g x ta 0 0 0) fun s gt =>
    let i := k.toNat
    let c := s.core i
    let t := c.tv ta
    if !TD.valid t || TD.fmt t ≠ 0 then .trap 5
    else match c.agAt x with
      | none => .trap 6
      | some ag =>
        if TD.rows t ≠ ag.m || TD.cols t ≠ 32 then .trap 6
        else
          let tag := gt || TD.tagged c t
          let ws := ((List.range ag.m).map fun r => TD.rowCodes s i t r).flatten
          let ag := { ag with occ := if ag.mode = 2 then 0 else p2 (ag.levels - 1), retries := 0, steps := 0,
                              chan := some false, fresh := false, dirty := false, tagged := tag }
          let (s, ev) :=
            if ag.mode = 2 then
              let hs := ws.map fun w => (fmt16.rnd (f32 (BitVec.ofNat 32 w)), inf32 (BitVec.ofNat 32 w))
              let long_ := hs.any fun h => (f16 h.1).isInf && !h.2
              (s.putAgTileH i ag (hs.map (·.1)), NumEv.when long_ NumEv.ovf)
            else (s.putAgEntry i ag (ag.levels - 1) (ws.map fun w => (BitVec.ofNat 32 w, 0)), NumEv.none)
          .done ((s.modCore i fun c => c.setAg x ag).numEv i tag ev))

/-- The AGSAVE header (Table 6-13). -/
def saveHeader (g : AGrp) : Nat :=
  g.mode + g.m * p2 2 + (g.levels - 1) * p2 8 + g.retries * p2 12 + g.tagged.toNat * p2 15 +
    (if g.mode = 2 then 0 else g.occ) * p2 16 + g.steps * p2 32 + g.rbase * p2 64

/-- AGSAVE (R251). -/
def execAgsave (k : CoreId) (g : BitVec 3) (x : BitVec 3) (tc : BitVec 4) (s : State) : Res :=
  .next (s.issue k g (matWord 5 g x 0 0 tc 0) fun s gt =>
    let i := k.toNat
    let c := s.core i
    let off := TD.base (c.tv tc)
    match c.agAt x with
    | none => .trap 6
    | some ag =>
      let tag := gt || ag.tagged
      if !spIn off (64 + ag.bytes) then .trap 3
      else if s.tagStoreBad i tag off (64 + ag.bytes) then .trap 8
      else
        let (s, ag) := s.settle i x ag
        let body := if ag.mode = 2 && ag.fresh then List.replicate ag.bytes 0 else s.spGet i ag.base ag.bytes
        .done ((s.spStore i off (leBytes (saveHeader ag) 64 ++ body) tag).numEv i tag NumEv.none))

/-- R251: a header that AGLOAD accepts. -/
def loadOk (h : Nat) (g : AGrp) : Bool :=
  decide (g.mode ≤ 2) && decide (1 ≤ g.m) && decide (g.m ≤ 32) && decide (g.retries ≤ 4) &&
    (g.mode == 0 || g.levels == 1) && decide (g.occ < p2 g.levels) && (g.mode != 2 || g.occ == 0) &&
    h / p2 80 == 0 && spIn g.base g.bytes

/-- AGLOAD (R251, R805, R344). -/
def execAgload (k : CoreId) (g : BitVec 3) (x : BitVec 3) (ta : BitVec 4) (s : State) : Res :=
  .next (s.issue k g (matWord 6 g x ta 0 0 0) fun s gt =>
    let i := k.toNat
    let c := s.core i
    let off := TD.base (c.tv ta)
    if !spIn off 64 then .trap 3
    else
      let h := s.spRead i off 64
      let ag : AGrp := { mode := bitsOf h 0 2, m := bitsOf h 2 6, levels := bitsOf h 8 4 + 1, retries := bitsOf h 12 3,
                         tagged := bitsOf h 15 1 == 1, occ := bitsOf h 16 16, steps := bitsOf h 32 32,
                         rbase := bitsOf h 64 16, chan := none, fresh := false, dirty := false }
      if (c.agAt x).isNone && loadOk h ag && !spIn off (64 + ag.bytes) then .trap 3
      else if (c.agAt x).isSome || !loadOk h ag || c.agOverlap x ag then .trap 6
      else
        let tag := gt || ag.tagged || c.tagRange off (64 + ag.bytes)
        let body := s.spGet i (off + 64) ag.bytes
        let s := (s.spPut i ag.base body).modCore i fun c => c.setAg x { ag with tagged := tag }
        .done (s.numEv i tag NumEv.none))

/-- AGDROP (R805). -/
def execAgdrop (k : CoreId) (g : BitVec 3) (x : BitVec 3) (s : State) : Res :=
  .next (s.issue k g (matWord 7 g x 0 0 0 0) fun s gt =>
    match (s.core k.toNat).agAt x with
    | none => .trap 6
    | some _ =>
      .done ((s.modCore k.toNat fun c => { c with ag := Tab.del x.toNat c.ag }).numEv k.toNat gt NumEv.none))

end Sys2Proof.Machine
end

