-- ==== Sys2Proof/Machine/Com.lean ====
section
/-! DEFINITION. The communication instructions but for the Halyard's and the DMA engine's, the arrivals at a core and
the completions of its transfers (R252 to R265). -/

namespace Sys2Proof.Machine

/-! ### Discards and voids (R165, R167, R196) -/

/-- Count a discard of heat `h`; the first of a lap logs yellow 0x10B (R196). -/
def State.countDiscard (s : State) (h : Nat) (f : Fld) : State :=
  let s := (s.bump f).flag F.HEAT_EVT_discard
  if s.mesh.discLogged.contains h then s
  else
    let s := { s with mesh := { s.mesh with discLogged := h :: s.mesh.discLogged } }
    s.yellow { code := 0x10B, heat := some h }

/-- A late void delivered to a consumer of the module, of heat `h` where it has one (R167). -/
def State.countVoid (s : State) (h : Option Nat) : State :=
  let s := (s.bump F.MSH_CNT_VOID_count).flag F.MSH_EVT_void
  match h with
  | some h => s.bump (F.MSH_H_VOID_count h)
  | none => s

/-- A void with reason late reaches core `k` (R165, R259). -/
def State.coreVoid (s : State) (k : Nat) (void : Nat) : State :=
  if void = 1 then (s.bump (F.CORE_LATE_count k)).countVoid (s.coreOwner k) else s

/-! ### Receive records (R258 to R261) -/

/-- Queue a receive record; a full queue loses it, counts it and traps with cause 10 (R261); a core that has trapped or is
in reset traps no further. -/
def State.rqPut (s : State) (k : Nat) (r : DWord) : State :=
  let c := s.core k
  if c.rq.length < 64 then s.setCore k { c with rq := c.rq ++ [r] }
  else
    let s := s.bump (F.CORE_CNT_RDROP_count k)
    match c.run with
    | .inReset => s
    | .trapped => s
    | _ => s.trap k 10

/-- A receive record (Table 6-15). -/
def rxRec (off flits reason void stream src kind : Nat) : DWord :=
  BitVec.ofNat 64 (off % p2 20 + flits % 256 * p2 20 + reason % 4 * p2 28 + void % 2 * p2 30 + stream % 16 * p2 32 +
    src % 2048 * p2 36 + kind % 8 * p2 60 + p2 63)

/-! ### Head flits (Table 4-7) -/

namespace Hd

def op (h : Flit) : Nat := bitsOf h.toNat 0 4
def flits (h : Flit) : Nat := bitsOf h.toNat 4 8
def addr (h : Flit) : Nat := bitsOf h.toNat 12 48
def src (h : Flit) : Nat := bitsOf h.toNat 60 11
def sport (h : Flit) : Nat := bitsOf h.toNat 71 4
def tag (h : Flit) : Nat := bitsOf h.toNat 75 8
def status (h : Flit) : Nat := bitsOf h.toNat 83 3

def make (op flits addr src sport tag status : Nat) : Flit :=
  BitVec.ofNat 256 (op % 16 + flits % 256 * p2 4 + addr % p2 48 * p2 12 + src % 2048 * p2 60 + sport % 16 * p2 71 +
    tag % 256 * p2 75 + status % 8 * p2 83)

end Hd

/-! ### Write-accumulate (R177, R178) -/

/-- Add eight binary32 words into memory at `a`, elementwise, with the mesh's counters; an uncorrectable granule keeps
both of its words (R366). -/
def State.wacc (s : State) (a : Nat) (x : Flit) : State :=
  s.each (List.range 8) fun s i =>
    if s.mark ((a + 4 * i) / 8) = 2 then (if i % 2 = 0 then s.uncorrected ((a + 4 * i) / 8) else s)
    else
      let w := BitVec.ofNat 32 (leNat (s.readMem (a + 4 * i) 4))
      let (r, nan, ovf) := waccWord w (BitVec.ofNat 32 (bitsOf x.toNat (32 * i) 32))
      let s := s.memStore (a + 4 * i) (leBytes r.toNat 4)
      let s := if nan then (s.bump F.MSH_CNT_WACC_NAN_count).flag F.MSH_EVT_wacc_nan else s
      if ovf then (s.bump F.MSH_CNT_WACC_OVF_count).flag F.MSH_EVT_wacc_ovf else s

/-- Apply one data flit of a write (op 0 or 4) or write-accumulate (op 1) at address `a`: a void leaves its 32 bytes
unchanged, and so does an uncorrectable flit of a write-accumulate (R165, R184). -/
def State.applyFlit (s : State) (op a : Nat) (f : VFlit) : State :=
  if f.void ≠ 0 || (op = 1 && f.bad) then s
  else if op = 1 then s.wacc a f.data
  else s.memStore a (leBytes f.data.toNat 32)

/-! ### Packet arrival (R258, R259, R182, R194) -/

/-- Inbound map entry of a core at an fc offset (R255). -/
def State.inMap (s : State) (k slot : Nat) : Nat := (Tab.get 0 s.mesh.smapA ((k * 2 + 1) * 128 + slot)).toNat

/-- A core whose router sinks what is addressed to it. -/
def State.sinks (s : State) (k : Nat) : Bool := s.fenced k || (s.core k).run == .inReset

/-- A packet of `n` data flits begins at the core port. A range outside the core's own scratchpad, or any of a fenced core,
is discarded whole (R194, R361); a core in reset sinks it (R182); an op that is none of write, write-accumulate and message
does nothing (R387). -/
def State.coreBegin (s : State) (k slot : Nat) (head : VFlit) (n : Nat) : Arrival × State :=
  let a := Hd.addr head.data
  let op := Hd.op head.data
  let mk (take : Bool) : Arrival := ⟨head, s.now, slot, 0, head.void.toNat, take, false⟩
  if head.void ≠ 0 then (mk false, if s.sinks k then s else s.coreVoid k head.void.toNat)
  else if op = 2 || op = 3 || 4 < op then (mk false, s)
  else if s.fenced k || a < spBase k || !(a - spBase k + 32 * n ≤ spSize) then
    (mk false, match s.coreOwner k with
      | some h => s.countDiscard h (F.HEAT_H_DISCARD_addr h)
      | none => s)
  else (mk (!s.sinks k), s)

/-- The next data flit of a packet in arrival at the core port. -/
def State.coreFlit (s : State) (k : Nat) (a : Arrival) (f : VFlit) : Arrival × State :=
  let at_ := Hd.addr a.head.data + 32 * a.n
  let s := if s.sinks k then s else s.coreVoid k f.void.toNat
  let s := if a.take && !s.sinks k then (s.applyFlit (Hd.op a.head.data) at_ f).modCore k fun c =>
      if f.void = 0 then c.soil (at_ - spBase k) 32 else c else s
  ({ a with n := a.n + 1, void := if a.void = 0 then f.void.toNat else a.void }, s)

/-- The end of a packet at the core port: one receive record, none on a quiet stream without a void. The offset, source and
kind of a void head's record are free values (log entry 12). -/
def State.coreEnd (s : State) (k : Nat) (a : Arrival) : State :=
  let m := s.inMap k a.slot
  let stream := if bitsOf m 4 1 = 1 then m % 16 else 0
  let quiet := bitsOf m 4 1 = 1 && bitsOf m 5 1 = 1
  let h := a.head.data
  if s.sinks k then s
  else if a.head.void ≠ 0 then
    let (off, s) := s.draw 20
    let (src, s) := s.draw 11
    let (kind, s) := s.draw 3
    s.rqPut k (rxRec off.toNat a.n (a.void - 1) 1 stream src.toNat kind.toNat)
  else if !a.take || (quiet && a.void = 0) then s
  else s.rqPut k (rxRec (Hd.addr h - spBase k) a.n (a.void - 1) (if a.void = 0 then 0 else 1) stream (Hd.src h) (Hd.op h))

/-- A doorbell for dport 1 of a core (R260). -/
def State.doorbellIn (s : State) (k src v : Nat) : State :=
  if s.fenced k || (s.core k).run = .inReset then s
  else s.rqPut k (rxRec (v % p2 20) (v / p2 20 % 256) (v / p2 28 % 4) (v / p2 30 % 2) 0 src 7 |||
    BitVec.ofNat 64 (v % p2 32))

/-- DOORBELL_ARRIVAL (R260): a receive record of kind 7. -/
def execDoorbellArrival (k : CoreId) (src : CoreId) (v : Word) (s : State) : Res :=
  .next (s.doorbellIn k.toNat src.toNat v.toNat)

/-! ### SEND, SKIP and the pops -/

/-- The stream owns an outbound slot of the core (R253). -/
def State.ownsSlot (s : State) (k stream : Nat) : Bool :=
  bitsOf (s.getA (F.DMA_C_CFG_streams k)) stream 1 == 0 && (List.range 128).any fun i =>
    let e := (Tab.get 0 s.mesh.smapA ((k * 2) * 128 + i)).toNat
    bitsOf e 4 1 == 1 && e % 16 == stream

/-- Queue a packet of `n + 1` slots at `now`, after the slots that earlier SENDs and SKIPs claim (R255). Slots that went
void before it are its first: its head is then void and so is all of it (R163, R164). -/
def Core.queuePkt (c : Core) (now stream op dst : Nat) (refused : Bool) (flits : List Flit) (n : Nat) : Core :=
  let miss := Tab.get 0 c.missed stream
  let used := min miss (n + 1)
  let late := decide (0 < used)
  let item := OutItem.pkt { op := op, at_ := now, dst := dst, total := n + 1, left := n + 1 - used, late := late,
                            refused := refused, units := 0, flits := if late || refused then [] else flits }
  { c with
    outQ := Tab.put stream (Tab.get [] c.outQ stream ++ [item]) c.outQ
    missed := Tab.put stream (miss - used) c.missed }

/-- Flits of a byte string. -/
def flitsOf (bs : List Byte) : Nat → List Flit
  | 0 => []
  | n + 1 => BitVec.ofNat 256 (leNat (bs.take 32)) :: flitsOf (bs.drop 32) n

/-- SEND (R253, R254, R268): the data are taken at issue; a transfer that would read tagged data completes refused and
its slots carry voids. -/
def execSend (k : CoreId) (g : BitVec 3) (a b : BitVec 5) (imm : BitVec 12) (s : State) : Res :=
  .next (s.issue k g (comWord 0 g a b imm) fun s gt =>
    let i := k.toNat
    let c := s.core i
    let stream := imm.toNat % 16
    let op := imm.toNat / 16 % 8
    let off := (c.sv a).toNat
    let dst := (c.sv b).toNat % p2 48
    let n := (c.sv b).toNat / p2 48 % 256
    if 128 ≤ imm.toNat || !(op = 0 || op = 1 || op = 4) || 128 < n then .trap 1
    else if !spIn off (32 * n) then .trap 3
    else if off % 32 ≠ 0 || dst % 32 ≠ 0 then .trap 4
    else if !s.ownsSlot i stream then .trap 7
    else if !c.opFree then .stall
    else
      let id := c.opNext
      let refused := gt || c.tagOfS a || c.tagOfS b || c.tagRange off (32 * n)
      let flits := Hd.make op n dst i 4 id 0 :: flitsOf (s.spGet i off (32 * n)) n
      let c := c.takeOp.queuePkt s.now stream id dst refused flits n
      if refused then .done ((s.setCore i (c.complete id 0 6 0)).provRefuse i id) else .done (s.setCore i c))

/-- The first packet of a queue none of whose slots is left. -/
def Core.sentPkt (c : Core) (stream : Nat) : Option (OutPkt × List OutItem) :=
  match Tab.get [] c.outQ stream with
  | .pkt p :: rest => if p.left = 0 then some (p, rest) else none
  | _ => none

/-- The core whose scratchpad holds an address. -/
def spCore (a : Nat) : Option Nat := if spBase 0 ≤ a && a < spBase 2048 then some ((a - spBase 0) / 0x100000) else none

/-- A SEND whose last slot has passed completes: late where a slot carried a late void (R256), target reset where the core
it was sent to is in reset (R265), else ok; a refused one has its record already. -/
def State.sendDone (s : State) (k stream : Nat) : State :=
  let c := s.core k
  match c.sentPkt stream with
  | none => s
  | some (p, rest) =>
    let c := { c with outQ := Tab.put stream rest c.outQ }
    let gone : Bool := match spCore p.dst with
      | some j => !s.fenced j && (s.core j).run == .inReset
      | none => false
    s.setCore k (if p.refused then c else c.complete p.op 0 (if p.late then 1 else if gone then 2 else 0) p.units)

/-- SEND_COMPLETE (R256). -/
def execSendComplete (k : CoreId) (stream : BitVec 4) (s : State) : Res := .next (s.sendDone k.toNat stream.toNat)

/-- RQPOP (Table 6-14). -/
def execRqpop (k : CoreId) (g : BitVec 3) (a b : BitVec 5) (imm : BitVec 12) (s : State) : Res :=
  .next (s.issue k g (comWord 1 g a b imm) fun s gt =>
    let c := s.core k.toNat
    if b ≠ 0 || imm ≠ 0 then .trap 1
    else .done (s.setCore k.toNat ({ c with rq := c.rq.drop 1 }.setS a (c.rq.headD 0) gt)))

/-- SKIP (R255): releases the next slots no SEND has claimed; slots already gone void are the first of them. -/
def execSkip (k : CoreId) (g : BitVec 3) (a b : BitVec 5) (imm : BitVec 12) (s : State) : Res :=
  .next (s.issue k g (comWord 2 g a b imm) fun s _ =>
    let i := k.toNat
    let c := s.core i
    let stream := imm.toNat % 16
    let n := imm.toNat / 16
    if a ≠ 0 || b ≠ 0 || n = 0 then .trap 1
    else if !s.ownsSlot i stream then .trap 7
    else
      let miss := Tab.get 0 c.missed stream
      let used := min miss n
      let q := Tab.get [] c.outQ stream
      .done (s.setCore i { c with
        outQ := if n = used then c.outQ else Tab.put stream (q ++ [.skip (n - used)]) c.outQ
        missed := Tab.put stream (miss - used) c.missed }))

/-- CQPOP (R263): the identifier of the popped record is free again. -/
def execCqpop (k : CoreId) (g : BitVec 3) (a b : BitVec 5) (imm : BitVec 12) (s : State) : Res :=
  .next (s.issue k g (comWord 8 g a b imm) fun s gt =>
    let c := s.core k.toNat
    if b ≠ 0 || imm ≠ 0 then .trap 1
    else
      match c.cq with
      | [] => .done (s.setCore k.toNat (c.setS a 0 gt))
      | r :: rest =>
        .done (s.setCore k.toNat ({ c with cq := rest, busy := setBit c.busy (r.toNat % 32) false }.setS a r gt)))

/-! ### Relay lanes -/

/-- Relay flits of 128 bytes. -/
def relayFlits (bs : List Byte) : Nat → List (BitVec 1024)
  | 0 => []
  | n + 1 => BitVec.ofNat 1024 (leNat (bs.take 128)) :: relayFlits (bs.drop 128) n

/-- Relay operand checks: reserved fields, count 1 to 4,096, range, alignment. -/
def relayTrap (imm : BitVec 12) (off n : Nat) : Option Nat :=
  if 4 ≤ imm.toNat || n = 0 || 4096 < n then some 1
  else if !spIn off (128 * n) then some 3
  else if off % 128 ≠ 0 then some 4
  else none

/-- RSEND (R257, R268). -/
def execRsend (k : CoreId) (g : BitVec 3) (a b : BitVec 5) (imm : BitVec 12) (s : State) : Res :=
  .next (s.issue k g (comWord 3 g a b imm) fun s gt =>
    let i := k.toNat
    let c := s.core i
    let dir := imm.toNat % 4
    let off := (c.sv a).toNat
    let n := (c.sv b).toNat
    match relayTrap imm off n with
    | some cause => .trap cause
    | none =>
      if !c.opFree then .stall
      else
        let id := c.opNext
        let refused := gt || c.tagOfS a || c.tagOfS b || c.tagRange off (128 * n)
        if refused then .done ((s.setCore i (c.takeOp.complete id 1 6 0)).provRefuse i id)
        else
          let miss := Tab.get 0 c.missedR dir
          let used := min miss n
          let q : RelaySend := { op := id, at_ := s.now, total := n, left := n - used, late := decide (0 < used), refused := false, units := 0,
                                 flits := (relayFlits (s.spGet i off (128 * n)) n).drop used }
          .done (s.setCore i { c.takeOp with
            relQ := Tab.put dir (Tab.get [] c.relQ dir ++ [q]) c.relQ
            missedR := Tab.put dir (miss - used) c.missedR }))

/-- An RSEND whose last relay flit has left completes (R257). -/
def State.rsendDone (s : State) (k dir : Nat) : State :=
  let c := s.core k
  match Tab.get [] c.relQ dir with
  | q :: rest =>
    if q.left = 0 then
      s.setCore k ({ c with relQ := Tab.put dir rest c.relQ }.complete q.op 1 (if q.late then 1 else 0) q.units)
    else s
  | [] => s

/-- RSEND_COMPLETE (R257). -/
def execRsendComplete (k : CoreId) (dir : BitVec 2) (s : State) : Res := .next (s.rsendDone k.toNat dir.toNat)

/-- RRECV (R262): posts a buffer; with four posted in the direction it waits at issue. -/
def execRrecv (k : CoreId) (g : BitVec 3) (a b : BitVec 5) (imm : BitVec 12) (s : State) : Res :=
  .next (s.issue k g (comWord 4 g a b imm) fun s _ =>
    let i := k.toNat
    let c := s.core i
    let dir := imm.toNat % 4
    let off := (c.sv a).toNat
    let n := (c.sv b).toNat
    match relayTrap imm off n with
    | some cause => .trap cause
    | none =>
      let q := Tab.get [] c.relBuf dir
      if !c.opFree || 4 ≤ q.length then .stall
      else
        let buf : RelayBuf := { op := c.opNext, addr := off, n := n, filled := 0, late := false }
        .done (s.setCore i { c.takeOp with relBuf := Tab.put dir (q ++ [buf]) c.relBuf }))

/-- A posted buffer that is full completes its RRECV (R262). -/
def State.rrecvDone (s : State) (k dir : Nat) : State :=
  let c := s.core k
  match Tab.get [] c.relBuf dir with
  | b :: rest =>
    if b.n ≤ b.filled then
      s.setCore k ({ c with relBuf := Tab.put dir rest c.relBuf }.complete b.op 2 (if b.late then 1 else 0) b.n)
    else s
  | [] => s

/-- RRECV_COMPLETE (R262). -/
def execRrecvComplete (k : CoreId) (dir : BitVec 2) (s : State) : Res := .next (s.rrecvDone k.toNat dir.toNat)

/-- Fill the oldest buffer that is not full. -/
def fillBuf (void : Bool) : List RelayBuf → Option (RelayBuf × List RelayBuf)
  | [] => none
  | b :: bs =>
    if b.filled < b.n then some (b, { b with filled := b.filled + 1, late := b.late || void } :: bs)
    else (fillBuf void bs).map fun r => (r.1, b :: r.2)

/-- A relay flit delivered to core `k` from direction `dir` (R262): a void leaves its 128 bytes unchanged; without a
posted buffer it is discarded, counted and logged. -/
def State.relayIn (s : State) (k dir void : Nat) (data : BitVec 1024) : State :=
  let c := s.core k
  if s.fenced k || c.run = .inReset then s
  else
    let s := s.coreVoid k void
    let c := s.core k
    match fillBuf (void ≠ 0) (Tab.get [] c.relBuf dir) with
    | none =>
      (s.bump (F.CORE_CNT_RDROP_count k)).yellow { code := 0x10C, heat := s.coreOwner k, site := k }
    | some (b, q) =>
      let s := s.setCore k { c with relBuf := Tab.put dir q c.relBuf }
      if void ≠ 0 then s else s.spPut k (b.addr + 128 * b.filled) (leBytes data.toNat 128)

/-- RELAY_FLIT_ARRIVAL (R262). -/
def execRelayFlitArrival (k : CoreId) (dir : BitVec 2) (void : BitVec 2) (data : BitVec 1024) (s : State) : Res :=
  .next (s.relayIn k.toNat dir.toNat void.toNat data)

/-! ### Doorbells -/

/-- A control flit (Table 4-9). -/
def ctlFlit (dst dport src sport kind off data heats : Nat) : Flit :=
  BitVec.ofNat 256 (dst % 2048 + dport % 8 * p2 11 + src % 2048 * p2 14 + sport % 8 * p2 25 + kind % 16 * p2 28 +
    off % p2 32 * p2 32 + data % p2 32 * p2 64 + heats % p2 32 * p2 96)

/-- A control flit enters router `k` (R174). -/
def State.ctlEnter (s : State) (k : Nat) (f : Flit) : State :=
  let fl : Flight := ⟨s.now, k, 4, ⟨true, true, 0, f, false, 0⟩, true⟩
  { s with mesh := { s.mesh with flights := s.mesh.flights ++ [fl] } }

/-- DBELL (R252): a doorbell control flit toward s[a]'s router and port; tagged data are refused (Table 14-2). -/
def execDbell (k : CoreId) (g : BitVec 3) (a b : BitVec 5) (imm : BitVec 12) (s : State) : Res :=
  .next (s.issue k g (comWord 9 g a b imm) fun s gt =>
    let i := k.toNat
    let c := s.core i
    let x := (c.sv a).toNat
    if imm ≠ 0 then .trap 1
    else if gt || c.tagOfS a || c.tagOfS b then .done (s.provRefuse i 0)
    else .done (s.ctlEnter i (ctlFlit (x % 2048) (x / 2048 % 8) i 1 3 ((c.sv b).toNat % p2 32) 0 0)))

end Sys2Proof.Machine
end

