-- ==== Sys2Proof/Machine/HalNum.lean ====
section
/-! DEFINITION. The Halyard's descriptors and the arithmetic of its operations on records: the long format, selection,
the bitwise operations and the ordered class (Tables 3-2, 3-5 to 3-7, R96 to R112). A record of one element is a number:
for the sums the 320 bits of Table 3-7; for selection the value in [63:0] and the argrank in [95:64]; for the bitwise
operations and BCAST the value; for the ordered class the layouts of Table 3-6, with bit 128 for a saturated count. -/

namespace Sys2Proof.Machine

/-! ### Descriptors (Table 3-2) -/

namespace HD

def w (d : List Word) (i : Nat) : Nat := (d.getD i 0).toNat
def op (d : List Word) : Nat := bitsOf (w d 0) 0 4
def type (d : List Word) : Nat := bitsOf (w d 0) 4 3
def wide (d : List Word) : Bool := bitsOf (w d 0) 7 1 == 1
def count (d : List Word) : Nat := bitsOf (w d 0) 8 12 + 1
def prov (d : List Word) : Bool := bitsOf (w d 0) 20 1 == 1
def sched (d : List Word) : Bool := bitsOf (w d 0) 21 1 == 1
def team (d : List Word) : Bool := bitsOf (w d 0) 22 1 == 1
def toRoot (d : List Word) : Bool := bitsOf (w d 0) 23 1 == 1
def tag (d : List Word) : Nat := bitsOf (w d 0) 28 4
def root (d : List Word) : Nat := bitsOf (w d 1) 0 21
def src (d : List Word) : Nat := bitsOf (w d 2) 0 16
def dst (d : List Word) : Nat := bitsOf (w d 2) 16 16
def stride (d : List Word) : Nat := bitsOf (w d 3) 0 11
def lapLo (d : List Word) : Nat := bitsOf (w d 3) 16 16

/-- A reserved field holds a non-zero value. -/
def reserved (d : List Word) : Bool :=
  bitsOf (w d 0) 24 4 != 0 || bitsOf (w d 1) 21 11 != 0 || bitsOf (w d 3) 11 5 != 0

/-- The root of a BCAST that selects the masthead buffer. -/
def bufRoot : Nat := 0x1FFFFF

/-- The fields that corresponding descriptors share (R90). -/
def shared (d : List Word) : Nat × Nat × Nat := (w d 0, w d 1, w d 3)

/-- The rank contributes data (R114). -/
def contributes (d : List Word) (rank : Nat) : Bool :=
  if op d = 0xE then false else if op d = 0xD then root d == rank else true

/-- The rank receives the result (R116). -/
def receives (d : List Word) (rank : Nat) : Bool :=
  if op d = 0xE then false else if toRoot d then root d == rank else true

end HD

/-- Bytes of a type. -/
def typeBytes (t : Nat) : Nat := List.getD [4, 2, 8, 4, 8] t 0

/-- Bytes of a leaf element (Table 3-6). -/
def leafBytes (op t : Nat) : Nat := if op = 0xB then 16 else if op = 0xC then 8 else if op = 0xE then 0 else typeBytes t

/-- Bytes of a result element (Table 3-6). -/
def resBytes (op t : Nat) (wide : Bool) : Nat :=
  if op = 5 || op = 6 then (if t = 2 then 16 else 8)
  else if op = 0xA then (if wide then 8 else 4)
  else if op = 0xB || op = 0xC then 16
  else if op = 0xE then 0
  else if (op = 0 || op = 1) && wide then 4
  else typeBytes t

/-- The types of an operation (Table 3-5). -/
def opTypes (op : Nat) : List Nat :=
  List.getD [[0, 1], [0, 1], [2], [0, 1, 2], [0, 1, 2], [0, 1, 2], [0, 1, 2], [3, 4], [3, 4], [3, 4], [0, 1], [0], [0],
    [0, 1, 2, 3, 4]] op []

def ordered (op : Nat) : Bool := decide (0xA ≤ op) && decide (op ≤ 0xC)

/-- The count limit of Table 3-5. -/
def countLimit (op t root : Nat) : Nat :=
  if ordered op then 512 else if op = 0xD && root = HD.bufRoot then 256 / max 1 (typeBytes t) else 4096

/-- R91: a descriptor that rank `rank` of `ranks` issues is accepted; the ranks are those of the operation's scope. Only
a run that is used must lie in the scratchpad: src of a rank that contributes, dst of one that receives (log entry 74).
-/
def descOk (d : List Word) (provEn team : Bool) (rank ranks : Nat) : Bool :=
  let op := HD.op d
  let t := HD.type d
  let e := HD.count d
  op != 0xF && !HD.reserved d && decide (HD.src d < 49152) && decide (HD.dst d < 49152) &&
    (!HD.prov d || (provEn && (op == 3 || op == 5 || op == 0xC))) && (!HD.team d || team) &&
    (!HD.toRoot d || (HD.root d != HD.bufRoot && decide (HD.root d < ranks))) &&
    (op == 0xE ||
      ((opTypes op).contains t && decide (e ≤ countLimit op t (HD.root d)) &&
        (op != 0xD || HD.root d == HD.bufRoot || decide (HD.root d < ranks)) &&
        (!HD.contributes d rank || decide (HD.src d * 16 + e * leafBytes op t ≤ 0xC0000)) &&
        (!HD.receives d rank || decide (HD.dst d * 16 + e * resBytes op t (HD.wide d) ≤ 0xC0000))))

/-! ### The long format as bits (Table 3-7) -/

def packLong (l : LongRec) : Nat :=
  (l.v % long290).toNat + (l.w % (1024 : Int)).toNat * p2 290 + l.nan.toNat * p2 300 + l.pinf.toNat * p2 301 +
    l.ninf.toNat * p2 302 + l.res % 4 * p2 304

def unpackLong (x : Nat) : LongRec :=
  let v : Int := bitsOf x 0 290
  let w : Int := bitsOf x 290 10
  { v := if v < (p2 289 : Nat) then v else v - long290, w := if w < 512 then w else w - 1024,
    nan := bitsOf x 300 1 == 1, pinf := bitsOf x 301 1 == 1, ninf := bitsOf x 302 1 == 1, res := bitsOf x 304 2 }

/-! ### Exact class -/

/-- An integer of 64 bits as a signed value. -/
def int64 (x : Nat) : Int := if x % p2 64 < p2 63 then (x % p2 64 : Nat) else (x % p2 64 : Nat) - (p2 64 : Nat)

/-- A float of type F32 or F16. -/
def typeVal (t x : Nat) : FV := if t = 1 then f16 (x % p2 16) else f32 (BitVec.ofNat 32 x)

/-- The leaf of a sum (R98, R101). -/
def sumLeaf (op t x : Nat) : Nat :=
  if op = 2 then packLong (longOfInt (int64 x))
  else
    let v := typeVal t x
    let v := if op = 1 then (if t = 1 then FV.mul v v else f32 (toF32 (FV.mul v v))) else v
    packLong (longOfV v)

/-- Whether record `b` of the later rank replaces `a` in a selection (R104, R105). -/
def selBetter (op t : Nat) (a b : Nat) : Bool :=
  let x := a % p2 64
  let y := b % p2 64
  let up := op == 3 || op == 5
  if t = 2 then (if up then decide (int64 x < int64 y) else decide (int64 y < int64 x))
  else
    let vx := typeVal t x
    let vy := typeVal t y
    if vx.isNan then false
    else if vy.isNan then true
    else if up then FV.lt vx vy else FV.lt vy vx

/-- Values that selection treats as one: equal values, or two NaNs. -/
def selEqual (t a b : Nat) : Bool :=
  let x := a % p2 64
  let y := b % p2 64
  if t = 2 then x == y
  else (typeVal t x).isNan && (typeVal t y).isNan || FV.eqv (typeVal t x) (typeVal t y)

/-- Combine two records in a selection: the better value; among equals the lower rank. -/
def selComb (op t a b : Nat) : Nat :=
  if selEqual t a b then (if b / p2 64 < a / p2 64 then b else a) else if selBetter op t a b then b else a

/-- A leaf of an exact-class operation: element bits, team or heat rank. -/
def exLeaf (op t rank x : Nat) : Nat :=
  if op ≤ 2 then sumLeaf op t x else if op ≤ 6 then x % p2 64 + rank * p2 64 else x

/-- Combine two exact-class records (R99, R104 to R106). -/
def exComb (op t a b : Nat) : Nat :=
  if op ≤ 2 then packLong (longAdd (unpackLong a) (unpackLong b))
  else if op ≤ 6 then selComb op t a b
  else if op = 7 then Nat.land a b
  else if op = 8 then Nat.lor a b
  else Nat.xor a b

/-- res of a long-format record differs from (V + W) mod 3 (R138). -/
def resBad (r : Nat) : Bool :=
  let l := unpackLong r
  decide (((l.v + l.w) % 3).toNat ≠ l.res)

/-- The result bits of an exact-class record, and whether it overflowed (R100, R102, R104, R105). -/
def exFin (op t : Nat) (wide : Bool) (r : Nat) : Nat × Bool :=
  if op = 2 then
    let x := longI64 (unpackLong r)
    ((x.1 % (p2 64 : Nat)).toNat, x.2)
  else if op ≤ 1 then
    if t = 1 && !wide then longF16 (unpackLong r)
    else
      let x := longF32 (unpackLong r)
      (x.1.toNat, x.2)
  else if op ≤ 6 then
    let v := r % p2 64
    let v := if t = 2 then v
      else if (typeVal t v).isNan then (if t = 1 then 0x7E00 else 0x7FC00000)
      else if (typeVal t v).isZero then 0 else v
    (if op ≤ 4 then v else v + r / p2 64 % p2 32 * p2 (if t = 2 then 64 else 32), false)
  else (r, false)

/-! ### Ordered class (R107 to R112): each operator rounds once; EXP2 is the vector unit's, subnormals kept. A NaN that
an operator makes is the canonical one, and a leaf that no operator meets keeps its own (log entry 75). -/

def opMul (a b : Word) : Word := posZero (toF32 (FV.mul (f32 a) (f32 b)))
def opDiv (a b : Word) : Word := posZero (toF32 (divV (f32 a) (f32 b)))
def opExp2 (a : Word) : Word := (fast1 false exp2V a).1
def ninf32 : Word := 0xFF800000#32

/-- Bits `32 i + 31` to `32 i` of a record. -/
def recWord (r i : Nat) : Word := BitVec.ofNat 32 (bitsOf r (32 * i) 32)

/-- fsum_combine (R109). -/
def fsumComb (a b : Nat) : Nat :=
  let (s, e) := twoSum (recWord a 0) (recWord b 0)
  let t := opAdd (opAdd e (recWord a 1)) (recWord b 1)
  let hi := opAdd s t
  let lo := opSub t (opSub hi s)
  hi.toNat + lo.toNat * p2 32

/-- binary32 of a count, rounded once. -/
def countF32 (n : Nat) : Word := toF32 (.num false n 0)

/-- meanvar_combine (R110): [63:0] count, [95:64] mean, [127:96] M2, bit 128 saturated. -/
def meanvarComb (a b : Nat) : Nat :=
  let an := bitsOf a 0 64
  let bn := bitsOf b 0 64
  if an = 0 then b
  else if bn = 0 then a
  else
    let sat := decide (p2 64 ≤ an + bn) || bitsOf a 128 1 == 1 || bitsOf b 128 1 == 1
    let n := min (an + bn) (p2 64 - 1)
    let fb := opDiv (countF32 bn) (countF32 n)
    let d := opSub (recWord b 2) (recWord a 2)
    let mean := opAdd (recWord a 2) (opMul d fb)
    let ga := opMul (countF32 an) fb
    let m2 := opAdd (opAdd (recWord a 3) (recWord b 3)) (opMul (opMul d d) ga)
    n + mean.toNat * p2 64 + m2.toNat * p2 96 + sat.toNat * p2 128

/-- smxc_combine (R111): [31:0] m, [63:32] s, [127:96] arrived. -/
def smxcComb (a b : Nat) : Nat :=
  let am := recWord a 0
  let as_ := recWord a 1
  let bm := recWord b 0
  let bs := recWord b 1
  let arr := (a / p2 96 + b / p2 96) * p2 96
  if [am, as_, bm, bs].any nan32 || am = 0x7F800000#32 || bm = 0x7F800000#32 then 0x7FC00000 + 0x7FC00000 * p2 32 + arr
  else if am = ninf32 && bm = ninf32 then ninf32.toNat + arr
  else
    let m := if FV.lt (f32 am) (f32 bm) then bm else am
    let ea := opExp2 (opSub am m)
    let eb := opExp2 (opSub bm m)
    let s := opAdd (opMul as_ ea) (opMul bs eb)
    m.toNat + s.toNat * p2 32 + arr

/-- A record that no combine has met, under the special-value rules of R111. -/
def smxcNorm (a : Nat) : Nat :=
  let m := recWord a 0
  let arr := a / p2 96 * p2 96
  if nan32 m || nan32 (recWord a 1) || m = 0x7F800000#32 then 0x7FC00000 + 0x7FC00000 * p2 32 + arr
  else if m = ninf32 then ninf32.toNat + arr
  else a

/-- r of R112: the least multiple of 2^k not below m. -/
def smxcR (k : Int) (m : Word) : Word :=
  match f32 m with
  | .num s n e =>
    if k ≤ e then posZero m
    else
      let d := p2 (k - e).toNat
      let q := n / d
      posZero (toF32 (.num s (if !s && n % d ≠ 0 then q + 1 else q) k))
  | .nan => qnan32
  | .inf s => if s then ninf32 else qnan32

/-- A leaf of an ordered-class operation. -/
def ordLeaf (op t x : Nat) : Nat :=
  if op = 0xA then (if t = 1 then (toF32 (f16 (x % p2 16))).toNat else x % p2 32)
  else if op = 0xB then x % p2 128
  else x % p2 64 + p2 96

def ordComb (op a b : Nat) : Nat :=
  if op = 0xA then fsumComb a b else if op = 0xB then meanvarComb a b else smxcComb a b

/-- Combine records in canonical pairwise order (R107). -/
def ordTree (op : Nat) (rs : List Nat) : Nat := ((pairTree (ordComb op) 22 rs).headD 0)

/-- The result of an ordered-class element, and whether it overflowed (R108, R110, R112). -/
def ordFin (op : Nat) (wide : Bool) (k : Int) (r : Nat) : Nat × Bool :=
  if op = 0xA then
    let hi := posZero (recWord r 0)
    let lo := posZero (recWord r 1)
    (hi.toNat + (if wide then lo.toNat * p2 32 else 0), false)
  else if op = 0xB then
    let mean := posZero (recWord r 2)
    let m2 := posZero (recWord r 3)
    (bitsOf r 0 64 + mean.toNat * p2 64 + m2.toNat * p2 96, bitsOf r 128 1 == 1)
  else
    let r := if bitsOf r 96 32 = 1 then smxcNorm r else r
    let m := posZero (recWord r 0)
    let s := posZero (recWord r 1)
    (m.toNat + s.toNat * p2 32 + (smxcR k m).toNat * p2 64 + bitsOf r 96 32 * p2 96, false)

/-! ### Whole records -/

/-- Element `i` of leaf data, of `n` bytes. -/
def elemAt (data : List Byte) (n i : Nat) : Nat := leNat ((data.drop (i * n)).take n)

/-- The record of element `i` formed from leaves `(rank, data)` in rising rank order. -/
def combineAt (op t : Nat) (leaves : List (Nat × List Byte)) (i : Nat) : Option Nat :=
  let lb := leafBytes op t
  if ordered op then
    if leaves.isEmpty then none else some (ordTree op (leaves.map fun l => ordLeaf op t (elemAt l.2 lb i)))
  else
    match leaves.map fun l => exLeaf op t l.1 (elemAt l.2 lb i) with
    | [] => none
    | r :: rs => some (rs.foldl (exComb op t) r)

/-- The result bytes of records, and whether one overflowed. -/
def finish (op t : Nat) (wide : Bool) (k : Int) (rs : List Nat) : List Byte × Bool :=
  let one (r : Nat) : Nat × Bool :=
    if op = 0xD then (r, false) else if ordered op then ordFin op wide k r else exFin op t wide r
  let xs := rs.map one
  ((xs.map fun x => leBytes x.1 (resBytes op t wide)).flatten, xs.any (·.2))

/-- Whether a result holds a NaN element (Table 3-3). -/
def resNan (op t : Nat) (wide : Bool) (data : List Byte) : Bool :=
  let n := resBytes op t wide
  let bad (r : Nat) : Bool :=
    if op = 0xA then nan32 (recWord r 0) || (wide && nan32 (recWord r 1))
    else if op = 0xB then nan32 (recWord r 2) || nan32 (recWord r 3)
    else if op = 0xC then (List.range 3).any fun i => nan32 (recWord r i)
    else if op ≤ 1 && wide then nan32 (recWord r 0)
    else (op ≤ 6 || op == 0xD) && t ≤ 1 && (typeVal t r).isNan
  n != 0 && (List.range (data.length / n)).any fun i => bad (elemAt data n i)

/-- Order of R95: where two statuses apply, the one of the lower place stands. -/
def statusRank (st : Nat) : Nat := (([6, 4, 3, 2, 7, 5, 8] : List Nat).findIdx? (· == st)).getD 7

/-- The status that R95 leaves of two. -/
def firstStatus (a b : Nat) : Nat := if statusRank a ≤ statusRank b then a else b

/-- What R121 compares: for SMXC the r of each element, else the whole result. -/
def provKey (op : Nat) (data : List Byte) : List Byte :=
  if op = 0xC then ((List.range (data.length / 16)).map fun i => (data.drop (16 * i + 8)).take 4).flatten else data

/-- A provisional SMXC carries s = +0 (R120). -/
def provData (op : Nat) (data : List Byte) : List Byte :=
  if op = 0xC then ((List.range (data.length / 16)).map fun i =>
    (data.drop (16 * i)).take 4 ++ [0, 0, 0, 0] ++ (data.drop (16 * i + 8)).take 8).flatten else data

/-- smxc_k as a signed number. -/
def smxcK (f : Nat) : Int := if f < 8 then f else (f : Int) - 16

/-- The position of R89: fc 0 of the named stride, in the lap nearest `lap`. -/
def namedPos (lap lapLo stride : Nat) : Int :=
  let d : Int := ((lapLo : Int) - (lap : Int) + 32768) % 65536 - 32768
  ((lap : Int) + d) * (lapFc : Nat) + (stride * 128 : Nat)

end Sys2Proof.Machine
end

