-- ==== Sys2Proof/Machine/Halyard.lean ====
section
/-! DEFINITION. The Halyard: descriptors issued by cores, records at a heat's masthead, results and statuses, lowerings,
provisional lowerings, BARRIER, timeouts, the system Halyard and taint records (The Halyard, R80 to R141). A latency is
the time between the commands that carry a record and its lowering. -/

namespace Sys2Proof.Machine

/-! ### The heat's configuration -/

/-- Ranks of the heat. -/
def State.halN (s : State) (h : Nat) : Nat := s.getA (F.HAL_H_RANKS_count_m1 h) + 1

/-- The heat belongs to a team (R123). -/
def State.halTeam (s : State) (h : Nat) : Bool := s.getA (F.HAL_H_CFG_team h) == 1

/-- Members of the heat's team (R510). -/
def State.teamSize (s : State) (h : Nat) : Nat :=
  (s.getA (F.TEAM_H_BLOCK_ex_m1 h) + 1) * (s.getA (F.TEAM_H_BLOCK_ey_m1 h) + 1) * (s.getA (F.TEAM_H_BLOCK_ez_m1 h) + 1)

def State.halBase (s : State) (h : Nat) : Nat := s.getA (F.HAL_H_BASE_base h)
def State.halParent (s : State) (h : Nat) : Nat := s.getA (F.HAL_H_TREE_parent_port h)

/-- Quarter of a heat block. -/
def quarterOf (b : Nat) : Nat := b / 32 * 2 + b % 8 / 4

/-- Die-to-die crossings between two quarters of the ring Q0, Q1, Q3, Q2 (Table 3-1). -/
def crossings (a b : Nat) : Nat := if a = b then 0 else if a + b = 3 then 2 else 1

/-- Quarter of the heat masthead, and c (R81). -/
def State.halMq (s : State) (h : Nat) : Nat := quarterOf ((geomBlocks (s.geomA h)).headD 0)
def State.halC (s : State) (h : Nat) : Nat :=
  (geomBlocks (s.geomA h)).foldl (fun m b => max m (crossings (s.halMq h) (quarterOf b))) 0

/-- D of R117 in strides, for the team scope. -/
def State.halD (s : State) (h : Nat) : Nat := (372 * s.getA (F.HAL_H_TREE_depth h) + 128 + 127) / 128

/-- Cores of the heat that carry a rank, with it. -/
def State.halPorts (s : State) (h : Nat) : List (Nat × Nat) :=
  (s.heatCores h).filterMap fun k => (s.rankOf k).map fun r => (k, r)

/-- A rank in the scope of a descriptor (R124). -/
def State.scopeRank (s : State) (h : Nat) (d : List Word) (r : Nat) : Nat := if HD.team d then s.halBase h + r else r

/-- R91 for rank `r` of heat `h`. -/
def State.descValid (s : State) (h : Nat) (d : List Word) (r : Nat) : Bool :=
  descOk d (s.getA (F.HAL_H_CFG_prov_en h) == 1) (s.halTeam h) (s.scopeRank h d r)
    (if HD.team d then s.halN h * s.teamSize h else s.halN h)

/-! ### A rank's port: completions and dst (R93, R94, R803) -/

/-- A completion word delivered at `t` fc since lap 0 (Table 3-3). -/
def halWord (t status tag : Nat) (prov match_ ovf nan : Bool) : BitVec 64 :=
  BitVec.ofNat 64 (status + tag % 16 * p2 4 + prov.toNat * p2 8 + match_.toNat * p2 9 + ovf.toNat * p2 10 +
    nan.toNat * p2 11 + t % lapFc / 128 * p2 32 + t / lapFc % p2 21 * p2 43)

/-- A port writes the result to dst, where its rank receives one, and queues the completion word, at the present position,
or, for a BARRIER, at its own (Table 3-3). -/
def State.halDeliver (s : State) (h k r : Nat) (iss : HalIssue) (low : HalLow) (prov : Bool) : State :=
  let d := iss.words
  let off := HD.dst d * 16
  let data := if HD.receives d (s.scopeRank h d r) && spIn off low.data.length then low.data else []
  let done : HalDone := ⟨halWord (low.at_.getD s.now) low.status (HD.tag d) prov low.match_ low.ovf low.nan, iss.seq, iss.op, off,
    data.length⟩
  (s.spPut k off data).modCore k fun c => { c with hq := c.hq ++ [done] }

/-- Completions of refused HOISTs enter the queue once those of every earlier descriptor have (R94). -/
def Core.halFlush (c : Core) : Core :=
  let waits (n : Nat) : Bool := (c.halOut ++ c.halWait).any fun i => decide (i.seq < n)
  { c with hq := c.hq ++ (c.halRef.filter fun r => !waits r.1).map (·.2), halRef := c.halRef.filter fun r => waits r.1 }

/-- A lowering reaches the port of core `k`: delivered to an operation the core has issued, else held. A final one ends
the operation at the port. A core in reset receives nothing. -/
def State.halArrive (s : State) (h k r seq : Nat) (low : HalLow) (prov : Bool) : State :=
  let c := s.core k
  if c.run = .inReset then s
  else
    match (c.halOut ++ c.halWait).find? fun i => i.seq == seq with
    | some iss =>
      let s := s.halDeliver h k r iss low prov
      if prov then s
      else s.modCore k fun c =>
        ({ c with
          halOut := c.halOut.filter fun i => i.seq != seq
          halWait := c.halWait.filter fun i => i.seq != seq } : Core).halFlush
    | none =>
      if c.halSeq ≤ seq then s.modCore k fun c => { c with held := c.held ++ [⟨seq, prov, low⟩] } else s

/-- Whether an operation may be in flight: at most four of the heat are, and none is held back (R92, R199). -/
def State.halFree (s : State) (h seq : Nat) : Bool := decide (seq < (s.halH h).done + 4) && !(s.heat h).holdBack

/-- Descriptors that wait in their ports and may now go. -/
def State.halRelease (s : State) (h : Nat) : State :=
  s.each (s.halPorts h) fun s p =>
    let c := s.core p.1
    if c.halWait.isEmpty then s
    else
      let go := c.halWait.filter fun i => s.halFree h i.seq
      s.setCore p.1 { c with halOut := c.halOut ++ go, halWait := c.halWait.filter fun i => !s.halFree h i.seq }

/-- HQPOP (R263, R269, R270): a provisional completion tags the lines its result wrote and opens a source; a sixteenth
open source traps with cause 8. The final completion of an operation whose provisional one was popped closes its source,
or discards: with a replay where the status is ok, else on at the next instruction. -/
def execHqpop (k : CoreId) (g : BitVec 3) (a b : BitVec 5) (imm : BitVec 12) (s : State) : Res :=
  .next (s.issue k g (comWord 6 g a b imm) fun s gt =>
    let i := k.toNat
    let c := s.core i
    if b ≠ 0 || imm ≠ 0 then .trap 1
    else
      match c.hq with
      | [] => .done (s.setCore i (c.setS a 0 gt))
      | r :: rest =>
        let w := r.word.toNat
        let c1 := ({ c with hq := rest }.setS a r.word gt)
        if bitsOf w 8 1 = 1 then
          if c.prov = 15 then .trap 8
          else .done (s.setCore i { c1.tagLines r.dst r.len with prov := c.prov + 1, provSeq := r.seq :: c.provSeq })
        else
          let c2 := { c1 with busy := setBit c1.busy r.op false }
          if !c.provSeq.contains r.seq then .done (s.setCore i c2)
          else
            let s := s.setCore i { c2 with provSeq := c.provSeq.filter (· != r.seq) }
            if w % 16 = 0 then
              if bitsOf w 9 1 = 1 then .done (s.closeSource i) else s.replay i
            else if c.ckpt.isNone then .trap 9
            else .done (s.discard i))

/-! ### Decisions at the masthead -/

/-- The records of an operation as leaves `(rank in scope, data)`, of the ranks that contribute. -/
def State.halLeaves (s : State) (h : Nat) (op : HalOp) : List (Nat × List Byte) :=
  (op.recs.filter fun r => HD.contributes op.words (s.scopeRank h op.words r.1)).map fun r =>
    (s.scopeRank h op.words r.1, r.2.data)

/-- The first of the statuses of R95 that the arrived records fix: rank reset, mismatch, descriptor error, or ok. -/
def State.halFixed (s : State) (h : Nat) (op : HalOp) : Nat :=
  if (s.halH h).rankReset then 2
  else if op.recs.any fun r => HD.shared r.2.words != HD.shared op.words then 5
  else if op.recs.any fun r => !r.2.valid then 8
  else 0

/-- Word `w` of heat `h`'s masthead buffer as it stood before the present fc (R115). -/
def State.lbufWord (s : State) (h w : Nat) : Nat :=
  ((Tab.find s.was (R.HAL_LBUF h w).off).map BitVec.toNat).getD (s.rd (R.HAL_LBUF h w))

/-- The combined records of a heat, one per element; none where no rank contributes. -/
def State.halCombine (s : State) (h : Nat) (op : HalOp) : List Nat :=
  let d := op.words
  let t := HD.type d
  let e := List.range (HD.count d)
  let leaves := s.halLeaves h op
  if HD.op d = 0xE then []
  else if HD.op d = 0xD then
    if HD.root d = HD.bufRoot then
      let bytes := ((List.range 64).map fun w => leBytes (s.lbufWord h w) 4).flatten
      e.map fun i => elemAt bytes (typeBytes t) i
    else
      match leaves with
      | l :: _ => e.map fun i => elemAt l.2 (typeBytes t) i
      | [] => []
  else e.filterMap fun i => combineAt (HD.op d) t leaves i

/-- The fc since lap 0 at which an operation's first record reached the masthead of its scope (R89). -/
def State.firstAt (s : State) (h : Nat) (op : HalOp) : Nat :=
  match op.team with
  | some t => Tab.get op.first (s.halH h).teamAt t
  | none => op.first

/-- The position that an operation's descriptor names (R89). -/
def State.opPos (s : State) (h : Nat) (op : HalOp) : Int :=
  namedPos (s.firstAt h op / lapFc) (HD.lapLo op.words) (HD.stride op.words)

/-- Position of a BARRIER whose last record has reached the masthead now (R117). -/
def State.barrierPos (s : State) (h : Nat) (op : HalOp) : Nat :=
  let dl := if op.team.isSome then s.halD h * 128 else 128
  let t := s.now + dl
  let p := s.opPos h op
  if HD.sched op.words && decide ((s.firstAt h op : Int) ≤ p) && decide ((t : Int) ≤ p) then p.toNat
  else (t + 127) / 128 * 128

/-- Event bit, counter and pennant of a final status (Table 3-4, Table 3-12). -/
def State.halStatus (s : State) (h st : Nat) : State :=
  match st with
  | 2 => s.flag F.HAL_EVT_rank_reset
  | 3 => (s.flag F.HAL_EVT_member_lost).yellow { code := 0x108, heat := some h, site := s.halMq h }
  | 4 => s.flag F.HAL_EVT_pacer_lost
  | 5 => (s.flag F.HAL_EVT_mismatch).bump F.HAL_CNT_MISMATCH_count
  | 6 => ((s.flag F.HAL_EVT_checked).bump F.HAL_CNT_CHECKED_count).red
      { code := 0x20D, heat := some h, site := s.halMq h, flap := s.lapN }
  | 7 => ((s.flag F.HAL_EVT_timeout).bump F.HAL_CNT_TIMEOUT_count).yellow
      { code := 0x109, heat := some h, site := s.halMq h }
  | 8 => s.flag F.HAL_EVT_desc_err
  | _ => s

def HalHeat.mod (x : HalHeat) (seq : Nat) (f : HalOp → HalOp) : HalHeat :=
  { x with ops := x.ops.map fun o => if o.seq = seq then f o else o }

/-- An operation ends with a status and, where it is ok, its result. A status decided and not yet delivered gives way
only to one that R95 puts before it. -/
def State.halDecide (s : State) (h : Nat) (op : HalOp) (st : Nat) (data : List Byte) (ovf : Bool) (at_ : Option Nat) : State :=
  if op.final.any fun l => decide (statusRank l.status ≤ statusRank st) then s
  else
    let d := op.words
    let ok := st == 0
    let m := ok && (match op.prov with | some k => provKey (HD.op d) data == k | none => false)
    let low : HalLow := ⟨st, m, ok && ovf, ok && resNan (HD.op d) (HD.type d) (HD.wide d) data, if ok then data else [], if ok then at_ else none⟩
    (s.modHal h fun x => x.mod op.seq fun o => { o with final := some low }).halStatus h st

/-- An operation ends with a failure status. -/
def State.halFail (s : State) (h : Nat) (op : HalOp) (st : Nat) : State := s.halDecide h op st [] false none

/-- The result of combined records. -/
def State.halResult (s : State) (h : Nat) (d : List Word) (rs : List Nat) : List Byte × Bool :=
  finish (HD.op d) (HD.type d) (HD.wide d) (smxcK (s.getA (F.HAL_H_CFG_smxc_k h))) rs

/-- Whether the residue check of the records of a sum fails; an injection flips the residue of one (R138). -/
def State.halCheck (s : State) (h : Nat) (op : HalOp) (rs : List Nat) : Bool × State :=
  if 2 < HD.op op.words then (false, s)
  else if (s.halH h).flip then (true, s.modHal h fun x => { x with flip := false })
  else (rs.any resBad, s)

/-! ### The system Halyard (R123 to R126, Table 11-4) -/

/-- Flits of one record: two for an exact-class record going up, one otherwise (Table 11-4; log entries 33, 35). -/
def recFlits (wide : Bool) (r : Nat) : List Flit :=
  if wide then [BitVec.ofNat 256 r, BitVec.ofNat 256 (r / p2 256)] else [BitVec.ofNat 256 r]

/-- Cut records into frames of at most `n`, from element `idx`. -/
def halFrames (mk : Nat → Nat → Flit) (wide : Bool) (n : Nat) : Nat → Nat → List Nat → List (List Flit)
  | 0, _, _ => []
  | fuel + 1, idx, rs =>
    match rs with
    | [] => []
    | _ =>
      let now := rs.take n
      (mk idx now.length :: (now.map (recFlits wide)).flatten) :: halFrames mk wide n fuel (idx + n) (rs.drop n)

/-- Frames that carry records of a team operation; one frame without elements where there are none. -/
def State.teamFrames (s : State) (h t low op st : Nat) (rs : List Nat) : List (List Flit) :=
  let wide := low == 0 && decide (op ≤ 9)
  let mk := fun idx n => halFlit0 s.selfAddr h t low op st idx n
  if rs.isEmpty then [[mk 0 0]] else halFrames mk wide (if wide then 7 else 15) 4096 0 rs

/-- Send frames on ports. -/
def State.sendFrames (s : State) (ports : List Nat) (fs : List (List Flit)) : State :=
  s.each ports fun s p => s.each fs fun s f => s.express p 0 f

/-- Result bytes as records of one element each. -/
def resRecs (data : List Byte) (n : Nat) : List Nat :=
  if n = 0 then [] else (List.range (data.length / n)).map fun i => elemAt data n i

/-- Lower a result, or the position of a BARRIER, of team operation `t` to the children; bit 128 of each record tells an
overflow (log entry 36). -/
def State.teamLower (s : State) (h t : Nat) (d : List Word) (st : Nat) (data : List Byte) (ovf : Bool) (at_ : Option Nat) :
    State :=
  let rs := match at_ with
    | some p => [p / lapFc + p % lapFc / 128 * p2 48]
    | none => (resRecs data (resBytes (HD.op d) (HD.type d) (HD.wide d))).map fun r => r + ovf.toNat * p2 128
  s.sendFrames (s.kids h) (s.teamFrames h t 1 (HD.op d) st rs)

/-- Lower a failure status of team operation `t` to the children, and to this masthead's own ports (R804). -/
def State.teamEnd (s : State) (h t code st : Nat) : State :=
  let s := s.sendFrames (s.kids h) (s.teamFrames h t 1 code st [])
  s.modHal h fun x => { x with teamDown := Tab.put t (Tab.get [] x.teamDown t ++ [⟨15, s.selfAddr, code, st, 0, none⟩]) x.teamDown }

/-- Tell a failure of team operation `t` to the parent, unless it, or one that R95 puts before it, has been told. -/
def State.teamTell (s : State) (h t code st : Nat) : State :=
  if statusRank st < statusRank (Tab.get 0 (s.halH h).teamSent t) then
    (s.sendFrames [s.halParent h] (s.teamFrames h t 0 code st [])).modHal h fun x =>
      { x with teamSent := Tab.put t st x.teamSent }
  else s

/-- A failure of a team operation at this member (R804): the system masthead decides and lowers it, another member tells its
parent and awaits the lowering. A checked fault and a lost member end the operation at once, a lost member for the children
too (R136, R138); a member that is lost already ends every later operation so. -/
def State.teamFail (s : State) (h : Nat) (op : HalOp) (t st : Nat) : State :=
  let st := if (s.halH h).memberLost then firstStatus 3 st else st
  let code := HD.op op.words
  let s := if s.halParent h = 15 || st = 3 || st = 6 || op.final.isSome then s.halFail h op st else s
  if s.halParent h = 15 then s.sendFrames (s.kids h) (s.teamFrames h t 1 code st [])
  else
    let s := if st = 3 then s.sendFrames (s.kids h) (s.teamFrames h t 1 code st []) else s
    (s.teamTell h t code st).modHal h fun x => x.mod op.seq fun o => { o with sent := true }

/-- The frames of a team operation that came up. -/
def State.teamUps (s : State) (h t : Nat) : List TeamRec := Tab.get [] (s.halH h).teamUp t

/-- Frames of one child, or one member, are complete: a status, an empty frame, or every element. -/
def teamAll (rs : List TeamRec) (e : Nat) : Bool :=
  rs.any (fun r => r.status != 0 || r.data.isNone) || (List.range e).all fun i => rs.any fun r => r.idx == i

/-- Module addresses of a team's members, by member index (R510, R511). -/
def State.teamMembers (s : State) (h : Nat) : List Nat :=
  let xd := s.get F.BTN_TOPO_xd_m1 + 1
  let yd := s.get F.BTN_TOPO_yd_m1 + 1
  let zd := s.get F.BTN_TOPO_zd_m1 + 1
  let ex := s.getA (F.TEAM_H_BLOCK_ex_m1 h) + 1
  let ey := s.getA (F.TEAM_H_BLOCK_ey_m1 h) + 1
  (List.range (s.teamSize h)).map fun m =>
    let x := (s.getA (F.TEAM_H_BLOCK_ox h) + m % ex) % xd
    let y := (s.getA (F.TEAM_H_BLOCK_oy h) + m / ex % ey) % yd
    let z := (s.getA (F.TEAM_H_BLOCK_oz h) + m / (ex * ey)) % zd
    x + xd * y + xd * yd * z

/-- R126: the heat holds a power of two of ranks, at a base that is a multiple of it. -/
def State.ordFits (s : State) (h : Nat) : Bool :=
  let n := s.halN h
  p2 (Nat.log2 n) == n && s.halBase h % n == 0

/-- A source of records of team operation `t` (a port, or a member) has sent fewer than `e` elements and gone on to the next
operation. -/
def State.teamShort (s : State) (h t e : Nat) (from_ : TeamRec → Bool) : Bool :=
  !teamAll ((s.teamUps h t).filter from_) e && (s.teamUps h ((t + 1) % 65536)).any from_

/-- Where the records of a team operation come from: at the system masthead, for the ordered class, the other members; else
the ports to the children. -/
def State.teamSources (s : State) (h : Nat) (code : Nat) : List (TeamRec → Bool) :=
  if ordered code then
    if s.halParent h = 15 then ((s.teamMembers h).filter (· != s.selfAddr)).map fun a => fun r => r.src == a else []
  else (s.kids h).map fun p => fun r => r.port == p

/-- Every record that the root, or an inner member, awaits from other members has come. -/
def State.teamReady (s : State) (h : Nat) (op : HalOp) (t : Nat) : Bool :=
  let e := HD.count op.words
  (s.teamSources h (HD.op op.words)).all fun f => teamAll ((s.teamUps h t).filter f) e || s.teamShort h t e f

/-- The first failure of the records that came up, with this heat's own. A frame tells the op code and the elements of a
record; what it does not carry of a descriptor cannot be compared (log entry 78). -/
def State.teamStatus (s : State) (h t : Nat) (op : HalOp) (ups : List TeamRec) : Nat :=
  let d := op.words
  let own := s.halFixed h op
  let own := if own = 0 && ordered (HD.op d) && !s.ordFits h then 8 else own
  let differs (r : TeamRec) : Bool := r.op != HD.op d || (r.data.isSome && decide (HD.count d ≤ r.idx))
  let short := if (s.teamSources h (HD.op d)).any (s.teamShort h t (HD.count d)) then 5 else 0
  (ups.map fun r => if differs r then firstStatus 5 r.status else r.status).foldl firstStatus (firstStatus own short)

/-- Records of a team operation at this masthead: own ranks' with the children's (R99, R126). A BCAST of the masthead buffer
takes the buffer of the heat that holds the system masthead (log entry 79). -/
def State.teamCombine (s : State) (h : Nat) (op : HalOp) (ups : List TeamRec) : List Nat :=
  let d := op.words
  let code := HD.op d
  let own := s.halCombine h op
  let at_ (i : Nat) : List TeamRec := ups.filter fun r => r.idx == i && r.data.isSome
  let dat (r : TeamRec) : Nat := r.data.getD 0
  if code = 0xE then []
  else if code = 0xD then
    if !own.isEmpty then own
    else (List.range (HD.count d)).filterMap fun i => ((at_ i).head?).map dat
  else if ordered code then
    if s.halParent h = 15 then
      (List.range (HD.count d)).map fun i =>
        ordTree code ((s.teamMembers h).filterMap fun a =>
          if a = s.selfAddr then own[i]? else ((at_ i).find? fun r => r.src == a).map dat)
    else own
  else
    (List.range (HD.count d)).filterMap fun i =>
      match (own[i]?).toList ++ (at_ i).map dat with
      | [] => none
      | r :: rs => some (rs.foldl (exComb code (HD.type d)) r)

/-- A team operation at this masthead: a failure that is fixed is told or decided; once its own records and every record
awaited have come, its record goes to the parent, or, at the root, it ends and is lowered. -/
def State.teamTry (s : State) (h : Nat) (op : HalOp) (t : Nat) : State :=
  let ups := s.teamUps h t
  if op.sent || op.final.isSome then s
  else if (s.halH h).memberLost then s.teamFail h op t 3
  else if (s.halH h).rankReset then s.teamFail h op t 2
  else if op.recs.length < s.halN h || !s.teamReady h op t then s
  else
    let rs := s.teamCombine h op ups
    let (bad, s) := s.halCheck h op rs
    let st := if bad then 6 else s.teamStatus h t op ups
    if statusRank st < 7 then s.teamFail h op t st
    else if s.halParent h = 15 then
      let (data, ovf) := s.halResult h op.words rs
      let at_ := if HD.op op.words = 0xE then some (s.barrierPos h op) else none
      (s.halDecide h op 0 data ovf at_).teamLower h t op.words 0 data ovf at_
    else
      (s.sendFrames [s.halParent h] (s.teamFrames h t 0 (HD.op op.words) 0 rs)).modHal h fun x =>
        x.mod op.seq fun o => { o with sent := true }

/-- The lowering frames of a team operation, complete: it ends with their status and result. A provisional one is lowered
to the ranks. -/
def State.teamLowered (s : State) (h : Nat) (op : HalOp) (t : Nat) : State :=
  let rs := Tab.get [] (s.halH h).teamDown t
  let d := op.words
  let code := HD.op d
  let n := resBytes code (HD.type d) (HD.wide d)
  let go (prov : Bool) : List TeamRec := rs.filter fun r => (r.status == 1) == prov
  let rec_ (l : List TeamRec) (i : Nat) : Nat := ((l.find? fun r => r.idx == i).bind (·.data)).getD 0
  let bytes (l : List TeamRec) : List Byte := ((List.range (HD.count d)).map fun i => leBytes (rec_ l i) n).flatten
  let s :=
    if op.prov.isNone && !(go true).isEmpty && teamAll (go true |>.map fun r => { r with status := 0 }) (HD.count d) then
      let bs := bytes (go true)
      s.modHal h fun x => x.mod op.seq fun o => { o with
        prov := some (provKey code bs)
        provLow := some ⟨1, false, false, resNan code (HD.type d) (HD.wide d) bs, bs, none⟩ }
    else s
  match (s.halH h).ops.find? fun o => o.seq == op.seq with
  | none => s
  | some op =>
    let st := ((go false).map (·.status)).foldl firstStatus 0
    if statusRank st < 7 then s.halFail h op st
    else if op.final.isSome || (go false).isEmpty then s
    else if code = 0xE then
      match ((go false).head?).bind (·.data) with
      | some p => s.halDecide h op 0 [] false (some (p % p2 48 * lapFc + p / p2 48 % 2048 * 128))
      | none => s
    else if teamAll (go false) (HD.count d) then
      s.halDecide h op 0 (bytes (go false)) (bitsOf (rec_ (go false) 0) 128 1 == 1) none
    else s

/-! ### Records, lowerings and timeouts -/

/-- Look at an operation of the heat after something came to it. -/
def State.halTry (s : State) (h seq : Nat) : State :=
  match (s.halH h).ops.find? fun o => o.seq == seq with
  | none => s
  | some op =>
    match op.team with
    | some t =>
      let s := s.teamTry h op t
      match (s.halH h).ops.find? fun o => o.seq == seq with
      | some op => s.teamLowered h op t
      | none => s
    | none =>
      if op.final.isSome then s
      else if (s.halH h).rankReset then s.halFail h op 2
      else if op.recs.length < s.halN h then s
      else
        let rs := s.halCombine h op
        let (bad, s) := s.halCheck h op rs
        let st := if bad then 6 else s.halFixed h op
        if st ≠ 0 then s.halFail h op st
        else if HD.op op.words = 0xE then s.halDecide h op 0 [] false (some (s.barrierPos h op))
        else
          let (data, ovf) := s.halResult h op.words rs
          s.halDecide h op 0 data ovf none

/-- The masthead opens the operation of a descriptor, unless it stands or has ended. -/
def State.halOpen (s : State) (h : Nat) (iss : HalIssue) : State :=
  let x := s.halH h
  if iss.seq < x.done || x.ops.any fun o => o.seq == iss.seq then s
  else
    let team := HD.team iss.words && s.halTeam h
    let o : HalOp := ⟨iss.seq, iss.words, if team then some (x.teams % 65536) else none, s.now, [], false, none, none, none⟩
    s.modHal h fun x => { x with ops := x.ops ++ [o], teams := if team then x.teams + 1 else x.teams }

/-- HALYARD_RECORD (R98, R99, R803): the oldest record of core `k` that has not gone reaches its heat's masthead. One for
an operation that has ended is discarded. -/
def State.halRecord (s : State) (k : Nat) : State :=
  match s.coreOwner k, s.rankOf k with
  | some h, some r =>
    let c := s.core k
    match c.halOut.find? fun i => !i.sent with
    | none => s
    | some iss =>
      let s := s.setCore k
        { c with halOut := c.halOut.map fun i => if i.seq = iss.seq then { i with sent := true } else i }
      if iss.seq < (s.halH h).done then s
      else
        let s := s.halOpen h iss
        let rec_ : LeafRec := ⟨iss.words, iss.data, iss.valid⟩
        let now := s.now
        let put (o : HalOp) : HalOp :=
          if o.final.isSome then o
          else { o with recs := Tab.put r rec_ o.recs, first := if o.recs.isEmpty then now else o.first }
        let first (x : HalHeat) : HalHeat :=
          match (x.ops.find? fun o => o.seq == iss.seq).bind (·.team) with
          | some t => if (Tab.find x.teamAt t).isSome then x else { x with teamAt := Tab.put t now x.teamAt }
          | none => x
        (s.modHal h fun x => first (x.mod iss.seq put)).halTry h iss.seq
  | _, _ => s

/-- HALYARD_RECORD. -/
def execHalyardRecord (k : CoreId) (s : State) : Res := .next (s.halRecord k.toNat)

/-- A final completion reaches every port of the heat in one fc; the operation is over, and a descriptor that waited may
go (R92, R130). -/
def State.halFinal (s : State) (h : Nat) (op : HalOp) (low : HalLow) : State :=
  let s := s.each (s.halPorts h) fun s p => s.halArrive h p.1 p.2 op.seq low false
  let gone (x : HalHeat) : HalHeat := match op.team with
    | some t => { x with
        teamUp := Tab.del t x.teamUp
        teamDown := Tab.del t x.teamDown
        teamAt := Tab.del t x.teamAt
        teamSent := Tab.del t x.teamSent
        teamsDone := x.teamsDone + 1 }
    | none => x
  let s := s.modHal h fun x => gone { x with ops := x.ops.filter fun o => o.seq != op.seq, done := op.seq + 1 }
  let s := s.bump (F.HAL_H_CNT_HOIST_count h)
  let s := if low.status = 0 then s else s.bump (F.HAL_H_CNT_FAIL_count h)
  let s := if op.prov.isSome && !low.match_ then s.bump (F.HAL_H_CNT_NOMATCH_count h) else s
  (s.put (F.HAL_H_STATUS_last h) low.status).halRelease h

/-- A provisional lowering reaches every port of the heat (R122). -/
def State.halProv (s : State) (h : Nat) (op : HalOp) (low : HalLow) : State :=
  let s := s.each (s.halPorts h) fun s p => s.halArrive h p.1 p.2 op.seq low true
  (s.modHal h fun x => x.mod op.seq fun o => { o with provLow := none }).bump (F.HAL_H_CNT_PROV_count h)

/-- LOWERING_DELIVERED (R93, R94, R122): the oldest provisional lowering of the heat that waits is delivered, else the
final lowering of its oldest operation, a BARRIER's apart. -/
def execLoweringDelivered (h : HeatId) (s : State) : Res :=
  let h := h.toNat
  match (s.halH h).ops.find? fun o => o.provLow.isSome with
  | some op =>
    match op.provLow with
    | some low => .next (s.halProv h op low)
    | none => .next s
  | none =>
    match (s.halH h).ops with
    | op :: _ =>
      match op.final with
      | some low => if low.at_.isNone then .next (s.halFinal h op low) else .next s
      | none => .next s
    | [] => .next s

/-! ### HOIST (R86 to R92, R803) -/

/-- Lowerings of a team operation that have come before any record of this member's ranks are delivered when a core of it
issues the descriptor (R803): where every earlier record of the core has reached the masthead. -/
def State.halServe (s : State) (h k : Nat) (iss : HalIssue) : State :=
  let x := s.halH h
  let early := HD.team iss.words && s.halTeam h && !(Tab.get [] x.teamDown (x.teams % 65536)).isEmpty &&
    !x.ops.any (fun o => o.seq == iss.seq) && (s.core k).halOut.all fun i => i.sent || i.seq == iss.seq
  if early then
    let s := s.halOpen h iss
    match (s.halH h).ops.find? fun o => o.seq == iss.seq with
    | none => s
    | some op =>
      let s := s.teamLowered h op (op.team.getD 0)
      let s := match ((s.halH h).ops.find? fun o => o.seq == iss.seq).bind (·.provLow) with
        | some low => s.halProv h op low
        | none => s
      match (s.halH h).ops with
      | o :: _ => match o.final with
        | some low => if o.seq = iss.seq && low.at_.isNone then s.halFinal h o low else s
        | none => s
      | [] => s
  else s

/-- A descriptor enters its core's port: lowerings held for it are delivered, the provisional one first; a held final one
ends it, and its record enters no sheaf (R803). -/
def State.halIssue (s : State) (h k r : Nat) (iss : HalIssue) : State :=
  let c := s.core k
  let mine := c.held.filter fun l => l.seq == iss.seq
  let s := s.setCore k { c with halSeq := c.halSeq + 1, held := c.held.filter fun l => l.seq != iss.seq }
  let s := s.each (mine.filter (·.prov) ++ mine.filter (!·.prov)) fun s l => s.halDeliver h k r iss l.low l.prov
  if mine.any (!·.prov) then s
  else if s.halFree h iss.seq then (s.modCore k fun c => { c with halOut := c.halOut ++ [iss] }).halServe h k iss
  else s.modCore k fun c => { c with halWait := c.halWait ++ [iss] }

/-- HOIST (R86, R88, R91, R94, R267, R268): the descriptor is read and its leaf taken at issue. Without a rank it
completes at once with descriptor error; where it would read tagged data, it does so after the core's earlier
descriptors. Either way it sends nothing and takes no sequence number, so that the core's next HOIST has that number
(log entry 77). -/
def execHoist (k : CoreId) (g : BitVec 3) (a b : BitVec 5) (imm : BitVec 12) (s : State) : Res :=
  .next (s.issue k g (comWord 5 g a b imm) fun s gt =>
    let i := k.toNat
    let c := s.core i
    let h := (s.coreOwner i).getD 0
    let off := (c.sv a).toNat
    if b ≠ 0 || imm ≠ 0 then .trap 1
    else if !spIn off 16 then .trap 3
    else if off % 16 ≠ 0 then .trap 4
    else
      let d := (List.range 4).map fun j => BitVec.ofNat 32 (s.spRead i (off + 4 * j) 4)
      let rank := s.rankOf i
      let r := s.scopeRank h d (rank.getD 0)
      let n := HD.count d * leafBytes (HD.op d) (HD.type d)
      let reads := rank.isSome && HD.contributes d r && spIn (HD.src d * 16) n
      if HD.prov d && HD.receives d r &&
          !s.inQuar i (HD.dst d * 16) (HD.count d * resBytes (HD.op d) (HD.type d) (HD.wide d)) then .trap 8
      else if !c.opFree then .stall
      else
        let id := c.opNext
        let s := s.setCore i c.takeOp
        let fail : HalDone := ⟨halWord s.now 8 (HD.tag d) false false false false, c.halSeq, id, 0, 0⟩
        if gt || c.tagOfS a || c.tagRange off 16 || (reads && c.tagRange (HD.src d * 16) n) then
          .done ((s.modCore i fun c => { c with halRef := c.halRef ++ [(c.halSeq, fail)] }.halFlush).provRefuse i id)
        else
          match rank with
          | none => .done ((s.modCore i fun c => { c with hq := c.hq ++ [fail] }).flag F.HAL_EVT_desc_err)
          | some rk =>
            let ok := s.descValid h d rk
            let s := s.spFind i off 16
            let s := if ok && reads then s.spFind i (HD.src d * 16) n else s
            .done (s.halIssue h i rk
              { seq := c.halSeq, op := id, words := d, data := if ok && reads then s.spGet i (HD.src d * 16) n else [],
                valid := ok, sent := false }))

/-! ### Positions and timeouts -/

/-- BARRIERs whose position P lies no later than `t` are released by their ports, the oldest operations first (R118); at
most four are in flight. -/
def State.barrierBy (s : State) (h t : Nat) : Nat → State
  | 0 => s
  | n + 1 =>
    match (s.halH h).ops with
    | op :: _ =>
      match op.final with
      | some low => if low.at_.any fun p => decide (p ≤ t) then State.barrierBy (s.halFinal h op low) h t n else s
      | none => s
    | [] => s

/-- BARRIER_COMPLETE (R118): at fc 0 of position P of the oldest operation, a BARRIER, its ports release it. -/
def execBarrierComplete (h : HeatId) (s : State) : Res := .next (s.barrierBy h.toNat s.now 4)

/-- Whether the provisional lowering of an operation is due (R89, R119) at `t`: its position has come and was not passed
when the first record arrived, records are missing, and those that have arrived fix no failure. The system masthead
knows the position of a team operation from its own ranks' descriptor alone (log entry 78). -/
def State.provDue (s : State) (h t : Nat) (op : HalOp) : Bool :=
  let p := s.opPos h op
  HD.prov op.words && op.prov.isNone && op.final.isNone && decide ((s.firstAt h op : Int) ≤ p) && decide (p ≤ (t : Int)) &&
    !op.recs.isEmpty &&
    (match op.team with
    | some n => (decide (op.recs.length < s.halN h) || !s.teamReady h op n) && s.halParent h == 15 &&
        s.teamStatus h n op (s.teamUps h n) == 0
    | none => decide (op.recs.length < s.halN h) && s.halFixed h op == 0)

/-- The result of the records that have arrived is lowered, for the oldest operation that is due at `t` (R119, R120). -/
def State.provBy (s : State) (h t : Nat) : State :=
  match (s.halH h).ops.find? (s.provDue h t) with
  | none => s
  | some op =>
    let d := op.words
    let rs := match op.team with
      | some n => s.teamCombine h op (s.teamUps h n)
      | none => s.halCombine h op
    let data := provData (HD.op d) (s.halResult h d rs).1
    let low : HalLow := ⟨1, false, false, resNan (HD.op d) (HD.type d) (HD.wide d) data, data, none⟩
    let s := s.modHal h fun x => x.mod op.seq fun o => { o with prov := some (provKey (HD.op d) data), provLow := some low }
    match op.team with
    | some n => s.teamLower h n d 1 data false none
    | none => s

/-- PROVISIONAL_LOWERING (R119, R120). -/
def execProvisionalLowering (h : HeatId) (s : State) : Res := .next (s.provBy h.toNat s.now)

/-- What the mastheads do up to `t`: BARRIERs are released and provisional results lowered at their positions (R118,
R119). -/
def State.halUpTo (s : State) (t : Nat) : State :=
  s.each (s.hal.map (·.1)) fun s h => (s.barrierBy h t 4).provBy h t

/-- LEAF_TIMEOUT (R135): 8 laps after its first record, the oldest operation that still lacks a leaf ends. -/
def execLeafTimeout (h : HeatId) (s : State) : Res :=
  let h := h.toNat
  match (s.halH h).ops.find? fun o =>
      o.final.isNone && !o.recs.isEmpty && decide (o.recs.length < s.halN h) && decide (o.first + 8 * lapFc ≤ s.now) with
  | none => .next s
  | some op =>
    let st := firstStatus 7 (s.halFixed h op)
    .next (match op.team with
    | some t => s.teamFail h op t st
    | none => s.halFail h op st)

/-- A system sheaf lacks a child's record of team operation `t`; where none of its own ranks has issued the operation, any
record of a child counts as all of it. -/
def State.teamLacks (s : State) (h t : Nat) : Bool :=
  let e := match (s.halH h).ops.find? fun o => o.team == some t with
    | some op => HD.count op.words
    | none => 0
  (s.kids h).any fun p =>
    let rs := (s.teamUps h t).filter fun r => r.port == p
    rs.isEmpty || !teamAll rs e

/-- The operation of team number `t` is looked at again. -/
def State.teamAgain (s : State) (h t : Nat) : State :=
  match (s.halH h).ops.find? fun o => o.team == some t with
  | some o => s.halTry h o.seq
  | none => s

/-- Team operations whose first record came 8 laps ago, that lack a child's record and have no end. -/
def State.teamLate (s : State) (h : Nat) : List Nat :=
  ((s.halH h).teamAt.filter fun e => decide (e.2 + 8 * lapFc ≤ s.now) && s.teamLacks h e.1 &&
    !((Tab.get [] (s.halH h).teamDown e.1).any fun r => r.status != 1) &&
    !((s.halH h).ops.any fun o => o.team == some e.1 && o.final.isSome)).map (·.1)

/-- MEMBER_LOST_TIMEOUT (R136): 8 laps after the first record of a team operation, a system sheaf that lacks a child's
record lowers member lost, tells its parent, and ends its later team operations so until the heat is recalled. -/
def execMemberLostTimeout (h : HeatId) (s : State) : Res :=
  let h := h.toNat
  match s.teamLate h with
  | [] => .next s
  | t :: _ =>
    let code := match (s.halH h).ops.find? fun o => o.team == some t with
      | some op => HD.op op.words
      | none => (((s.teamUps h t).head?).map (·.op)).getD 0
    let s := (s.modHal h fun x => { x with memberLost := true }).teamEnd h t code 3
    let s := if s.halParent h = 15 then s else s.teamTell h t code 3
    .next (s.teamAgain h t)

/-- R137: every team operation of heat `h` that has not delivered its final completion ends with pacer lost. -/
def State.pacerLost (s : State) (h : Nat) : State :=
  s.each ((s.halH h).ops.filter fun o => o.team.isSome) fun s op => s.halFail h op 4

/-- R132: a rank of heat `h` was reset: its record is discarded, and every operation that has not delivered its final
completion ends with rank reset, for the team too. -/
def State.halRankReset (s : State) (h : Nat) : State :=
  s.each (s.halH h).ops fun s op =>
    match op.team with
    | some t => s.teamFail h op t 2
    | none => s.halFail h op 2

/-- A parity error reported in a sheaf or hub of heat `h`: its oldest operation without an end ends with checked fault,
which raises the heat's red pennant (R138; log entry 80). Whether there was one. -/
def State.halParity (s : State) (h : Nat) : Bool × State :=
  match (s.halH h).ops.find? fun o => o.final.all fun l => statusRank l.status != 0 with
  | none => (false, s)
  | some op => (true, match op.team with
    | some t => s.teamFail h op t 6
    | none => s.halFail h op 6)

/-! ### Halyard frames (R123, Table 11-4) -/

/-- Whether heat `h` takes part in its team: it belongs to one and has not been reset since its last start (R133). -/
def State.teamOpen (s : State) (h : Nat) : Bool := s.halTeam h && s.heatExists h && !(s.halH h).flushed

/-- A taint record at a member: from a child it goes up, from the parent down (R128). -/
def State.taintIn (s : State) (h port lap : Nat) : State :=
  if !s.teamOpen h then s
  else if s.halParent h = port then s.lowerTaint h lap
  else s.raiseTaint h lap

/-- TAINT_RECORD (R128). -/
def execTaintRecord (port : PortId) (h : HeatId) (lap : Lap) (s : State) : Res :=
  .next (s.taintIn h.toNat port.val lap.toNat)

/-- Records of a Halyard frame. -/
def frameRecs (port : Nat) (fs : List Flit) : List TeamRec :=
  match fs with
  | [] => []
  | f :: body =>
    let x := f.toNat
    let low := bitsOf x 31 1
    let op := bitsOf x 32 4
    let n := bitsOf x 52 5
    let idx := bitsOf x 40 12
    let wide := low == 0 && decide (op ≤ 9)
    let val (i : Nat) : Nat :=
      if wide then (body.getD (2 * i) 0).toNat + (body.getD (2 * i + 1) 0).toNat % p2 64 * p2 256
      else (body.getD i 0).toNat
    let one (i : Nat) (v : Option Nat) : TeamRec := ⟨port, x % 1024, op, bitsOf x 36 4, idx + i, v⟩
    if n = 0 then [one 0 none] else (List.range n).map fun i => one i (some (val i))

/-- A child's failure that ends a team operation at once (R804): the system masthead lowers it, another member tells it
on. -/
def State.teamLook (s : State) (h t : Nat) : State :=
  match ([6, 4, 3, 2, 7] : List Nat).find? fun st => (s.teamUps h t).any fun r => r.status == st with
  | none => s
  | some st =>
    let code := (((s.teamUps h t).find? fun r => r.status == st).map (·.op)).getD 0
    if s.halParent h ≠ 15 then s.teamTell h t code st
    else if (Tab.get [] (s.halH h).teamDown t).any fun r => decide (statusRank r.status ≤ statusRank st) then s
    else s.teamEnd h t code st

/-- Team operation `t` has delivered its final completion here; numbers are kept modulo 65,536. -/
def State.teamOver (s : State) (h t : Nat) : Bool :=
  decide (32768 ≤ (t + 65536 - (s.halH h).teamsDone % 65536) % 65536)

/-- A Halyard frame that a port accepted: a taint, a record from a child, or a lowering from the parent, which is
forwarded to the children; an inner member forwards ordered-class records toward the root. A frame for an operation that has
ended is discarded (R803). -/
def State.halFrame (s : State) (port : Nat) (fs : List Flit) : State :=
  match fs with
  | [] => s
  | f :: body =>
    let x := f.toNat
    let h := bitsOf x 10 5
    let t := bitsOf x 15 16
    let op := bitsOf x 32 4
    if !s.teamOpen h then s
    else if op = 0xF && bitsOf x 36 4 = 0 then s.taintIn h port ((body.headD 0).toNat % p2 48)
    else
      let rs := frameRecs port fs
      if bitsOf x 31 1 = 1 then
        let s := s.sendFrames (s.kids h) [fs]
        if s.teamOver h t then s
        else (s.modHal h fun y => { y with teamDown := Tab.put t (Tab.get [] y.teamDown t ++ rs) y.teamDown }).teamAgain h t
      else
        let s := if ordered op && s.halParent h ≠ 15 && bitsOf x 36 4 = 0 then s.sendFrames [s.halParent h] [fs] else s
        if s.teamOver h t then s
        else
          let now := s.now
          let s := s.modHal h fun y => { y with
            teamUp := Tab.put t (Tab.get [] y.teamUp t ++ rs) y.teamUp
            teamAt := if (Tab.find y.teamAt t).isSome then y.teamAt else Tab.put t now y.teamAt }
          ((s.teamLook h t).teamAgain h t).teamAgain h ((t + 65535) % 65536)

end Sys2Proof.Machine
end

