-- ==== Sys2Proof/Machine/Mesh.lean ====
section
/-! DEFINITION. The mesh's geometry, slot tables and their commit checks, the distance table, and the region clocks
(R142 to R173). -/

namespace Sys2Proof.Machine

/-! ### Geometry (R148 to R151, Tables 4-4 and 4-5) -/

/-- Outputs and inputs of a router: 0 to 3 N, E, S, W; 4 core; 5 to 8 attach lanes; 9 to 12 relay N, E, S, W. The
neighbour in a direction. -/
def neighbour (r dir : Nat) : Option Nat :=
  match dir with
  | 0 => if coreRow r = 0 then none else some (r - 64)
  | 1 => if coreCol r = 63 then none else some (r + 1)
  | 2 => if coreRow r = 31 then none else some (r + 64)
  | 3 => if coreCol r = 0 then none else some (r - 1)
  | _ => none

def opposite (dir : Nat) : Nat := (dir + 2) % 4

/-- What one boundary between positions `a` and `b` of an axis costs: 24 at the dies' boundary, 6 between regions of `w`
positions, else 0. -/
def crossCost (die w a b : Nat) : Nat :=
  if (a < die) != (b < die) then 24 else if a / w != b / w then 6 else 0

/-- Latency of a hop between neighbouring routers, above the hop within a region (Table 4-5). -/
def hopExtra (a b : Nat) : Nat := crossCost 32 4 (coreCol a) (coreCol b) + crossCost 16 2 (coreRow a) (coreRow b)

def meshHop (a b : Nat) : Nat := 2 + hopExtra a b
def relayHop (a b : Nat) : Nat := 1 + hopExtra a b

/-- Region boundaries within quarters, and die-to-die boundaries, between two positions of an axis. -/
def crossCount (die w a b : Nat) : Nat × Nat :=
  let d := if (a < die) != (b < die) then 1 else 0
  let q := max (a / w) (b / w) - min (a / w) (b / w)
  (q - d, d)

/-- h, r and d of the minimal paths between two routers (R151). -/
def pathOf (a b : Nat) : Nat × Nat × Nat :=
  let x := crossCount 32 4 (coreCol a) (coreCol b)
  let y := crossCount 16 2 (coreRow a) (coreRow b)
  (max (coreCol a) (coreCol b) - min (coreCol a) (coreCol b) + (max (coreRow a) (coreRow b) - min (coreRow a) (coreRow b)),
   x.1 + y.1, x.2 + y.2)

/-- Port router of region and slice `n`. -/
def portRouter (n : Nat) : Nat := coreAt (4 * (n % 16) + 1) (2 * (n / 16))

/-- The attachment at a router. -/
inductive Attach where
  | slice (n : Nat)
  | baton (p : Nat)
  | host (a : Nat)
  | reserve (r : Nat)
  | starter
  deriving DecidableEq, Repr

/-- The attachment at a site, if there is one (Table 4-4). -/
def attachAt (r : Nat) : Option Attach :=
  if r = 0 then some .starter
  else if coreCol r % 4 = 1 && coreRow r % 2 = 0 then some (.slice ((coreRow r / 2) * 16 + coreCol r / 4))
  else
    match (List.range 12).find? fun p => batonSite p == r with
    | some p => some (.baton p)
    | none =>
      match (List.range 2).find? fun a => hostSite a == r with
      | some a => some (.host a)
      | none => ((List.range 8).find? fun c => reserveSite c == r).map .reserve

/-- Attach lanes of an attachment. -/
def Attach.lanes : Attach → Nat
  | .slice _ => 1
  | .starter => 1
  | _ => 4

/-- The attachment's number in DMA_RMAP_SEL. -/
def Attach.target : Attach → Option Nat
  | .slice n => some n
  | .reserve r => some (256 + r)
  | .host a => some (264 + a)
  | _ => none

/-- The attachment's number in MSH_LATE_SEL. -/
def Attach.consumer : Attach → Nat
  | .slice n => n
  | .baton p => 256 + p
  | .host a => 268 + a
  | .reserve r => 270 + r
  | .starter => 278

/-- The site of a DMA_RMAP_SEL target. -/
def targetSite (t : Nat) : Nat :=
  if t < 256 then portRouter t else if t < 264 then reserveSite (t - 256) else hostSite (t - 264)

/-- Mesh outputs that a router has: toward neighbours, to its core, and its attach lanes. -/
def meshOuts (r : Nat) : List Nat :=
  ((List.range 4).filter fun d => (neighbour r d).isSome) ++ [4] ++
    (match attachAt r with | some a => (List.range a.lanes).map (5 + ·) | none => [])

/-- Relay outputs that a router has. -/
def relayOuts (r : Nat) : List Nat := ((List.range 4).filter fun d => (neighbour r d).isSome).map (9 + ·)

/-! ### Slot tables (R154, R158, R159) -/

def slotKey (r o slot : Nat) : Nat := (r * 13 + o) * 128 + slot

/-- An entry's value where nothing has been written: closed (Table 4-13). -/
def slotReset (o : Nat) : BitVec 4 := if o < 9 then 15 else 0

/-- The committed entry as it acts at present: open or closed outside a heat; in a heat that does not run, only open
entries act; a heat's tables act as written while it runs, recalls or drains. -/
def State.slotEntry (s : State) (r o slot : Nat) : Nat :=
  match s.coreOwner r with
  | none => if o < 9 then 14 else 0
  | some h =>
    let e := (Tab.get (slotReset o) s.mesh.slotA (slotKey r o slot)).toNat
    if heatLive (s.heatSt h) then e else if o < 9 then (if e = 14 then 14 else 15) else 0

/-! ### Commit checks (R160, R171, R173) -/

/-- Rows of a slot table, by router and output: each with its listed entries. -/
def slotRows (t : Tab (BitVec 4)) : Tab (Tab Nat) :=
  t.foldr (fun e rows =>
    match rows with
    | (k, row) :: rest => if k = e.1 / 128 then (k, (e.1 % 128, e.2.toNat) :: row) :: rest
      else (e.1 / 128, [(e.1 % 128, e.2.toNat)]) :: rows
    | [] => [(e.1 / 128, [(e.1 % 128, e.2.toNat)])]) []

/-- The 128 entries of one row. -/
def rowOf (rows : Tab (Tab Nat)) (r o : Nat) : List Nat :=
  let row := Tab.get [] rows (r * 13 + o)
  (List.range 128).map fun i => Tab.get (slotReset o).toNat row i

/-- Entry of a row at an offset. -/
def entryOf (rows : Tab (Tab Nat)) (r o slot : Nat) : Nat :=
  Tab.get (slotReset o).toNat (Tab.get [] rows (r * 13 + o)) (slot % 128)

/-- A failing entry: router, output, slot and cause of MSH_STATUS. -/
abbrev SlotFail := Nat × Nat × Nat × Nat

/-- The first entry of the sites' outputs that a test fails. -/
def scanSlots (sites : List Nat) (outs : Nat → List Nat) (rows : Tab (Tab Nat)) (cause : Nat)
    (bad : Nat → Nat → Nat → Nat → Bool) : Option SlotFail :=
  sites.findSome? fun r => (outs r).findSome? fun o =>
    ((rowOf rows r o).zipIdx.find? fun x => bad r o x.2 x.1).map fun x => (r, o, x.2, cause)

/-- An entry's named input has an upstream output that is closed or open one hop latency earlier, or no such lane. -/
def chainBad (rows : Tab (Tab Nat)) (inside : Nat → Bool) (r o slot e : Nat) : Bool :=
  if o < 9 then
    if e ≤ 3 then
      match neighbour r e with
      | some n =>
        let u := entryOf rows n (opposite e) (slot + 128 - meshHop n r)
        inside n && (u == 14 || u == 15)
      | none => false
    else if 5 ≤ e && e ≤ 8 then
      match attachAt r with
      | some a => decide (a.lanes ≤ e - 5)
      | none => true
    else decide (9 ≤ e && e ≤ 13)
  else if e = 2 || e = 3 then
    match neighbour r (opposite (o - 9)) with
    | some n => inside n && entryOf rows n o (slot + 128 - relayHop n r) == 0
    | none => false
  else false

/-- An entry's named input lies on the heat's boundary; a relay entry 2 or 3 lies on it, upstream or downstream. -/
def boundaryBad (inside : Nat → Bool) (r o _slot e : Nat) : Bool :=
  let out (d : Nat) : Bool := match neighbour r d with | some n => !inside n | none => true
  if o < 9 then decide (e ≤ 3) && out e else (e == 2 || e == 3) && (out (o - 9) || out (opposite (o - 9)))

/-- Longest cyclic run of entries without an open one, and the number of open entries. -/
def openGap (row : List Nat) : Nat × Nat :=
  let opens := (row.zipIdx.filter fun x => x.1 == 14).map (·.2)
  match opens with
  | [] => (128, 0)
  | first :: _ =>
    let gaps := (opens.zip (opens.drop 1 ++ [first + 128])).map fun x => x.2 - x.1 - 1
    (gaps.foldl max 0, opens.length)

/-- The open-slot rule's first failure: the first offset at which 32 entries in turn hold no open one (R173). -/
def openFail (sites : List Nat) (rows : Tab (Tab Nat)) : Option SlotFail :=
  sites.findSome? fun r => (meshOuts r).findSome? fun o =>
    let row := rowOf rows r o
    if (openGap row).1 < 32 then none
    else
      ((List.range 128).find? fun i => (List.range 32).all fun j => row.getD ((i + j) % 128) 15 != 14).map
        fun i => (r, o, i, 3)

/-- Deliveries of a flit that enters router `r` on input `inp` at offset `t`, along a table's entries: router and output. -/
def tracePath (rows : Tab (Tab Nat)) (inside : Nat → Bool) : Nat → List (Nat × Nat × Nat) → List (Nat × Nat)
  | 0, _ => []
  | _, [] => []
  | n + 1, (r, inp, t) :: rest =>
    let named := (meshOuts r).filter fun o => entryOf rows r o t == inp
    let go := named.filterMap fun o =>
      if o < 4 then
        match neighbour r o with
        | some m => if inside m then some (m, opposite o, t + meshHop r m) else none
        | none => none
      else none
    ((named.filter (4 ≤ ·)).map fun o => (r, o)) ++ tracePath rows inside n (go ++ rest)

/-- Read and write slots of a core toward each slice: offsets of the reply maps toward the core, and outbound offsets
whose path ends at the slice's lane (R171; log entry 40). -/
def uniformCount (rows : Tab (Tab Nat)) (rmap : Tab (BitVec 12)) (inside : Nat → Bool) (slices : List Nat) (k : Nat) :
    List (Nat × Nat) :=
  let ends := (List.range 128).flatMap fun i =>
    if (meshOuts k).any fun o => entryOf rows k o i == 4 then tracePath rows inside 4096 [(k, 4, i)] else []
  slices.map fun n =>
    ((rmap.filter fun e => e.1 / 512 == n && e.2.toNat == 2048 + k).length,
     (ends.filter fun e => e == (portRouter n, 5)).length)

/-- The commit check of a heat's staged tables: causes in the order of R160, each over routers, outputs and offsets in
ascending order (DEDUCED, log entry 40). -/
def State.slotCheck (s : State) (g : Nat) (uniform : Bool) (slots : Tab (BitVec 4)) (rmap : Tab (BitVec 12)) :
    Option SlotFail :=
  let sites := geomCores g
  let inside (k : Nat) : Bool := geomHas g (blockOf k)
  let rows := slotRows slots
  let outs (r : Nat) : List Nat := meshOuts r ++ relayOuts r
  (scanSlots sites outs rows 1 (chainBad rows inside)).or
    ((scanSlots sites outs rows 2 (boundaryBad inside)).or
      ((openFail sites rows).or
        (if uniform then
          let slices := (List.range 256).filter fun n => inside (portRouter n)
          let counts := (sites.filter fun k => !s.fenced k).map fun k => (k, uniformCount rows rmap inside slices k)
          let first := (counts.head?.bind fun x => x.2.head?).getD (0, 0)
          (counts.find? fun x => x.2.any fun n => n != first).map fun x => (x.1, 4, 0, 4)
        else none)))

/-- Record a commit check's outcome in MSH_STATUS. -/
def State.slotReport (s : State) (f : Option SlotFail) : State :=
  let (r, o, i, c) := f.getD (0, 0, 0, 0)
  (((s.put F.MSH_STATUS_bad_router r).put F.MSH_STATUS_bad_output o).put F.MSH_STATUS_bad_slot i).put
    F.MSH_STATUS_bad_cause c

/-- MSH_H_OPEN of an active geometry: fewest open entries and longest run without one (Table 4-13). -/
def openOf (g : Nat) (slots : Tab (BitVec 4)) : Nat :=
  let rows := slotRows slots
  let gs := (geomCores g).flatMap fun r => (meshOuts r).map fun o => openGap (rowOf rows r o)
  if gs.isEmpty then 0
  else (gs.map (·.2)).foldl min 128 + (gs.map (·.1)).foldl max 0 * 256

/-! ### The distance table (R172) -/

/-- The router of a destination of MSH_DIST_SEL. -/
def distSite (kind dst : Nat) : Option Nat :=
  match kind with
  | 0 => if dst < 2048 then some dst else none
  | 1 => if dst < 256 then some (portRouter dst) else none
  | 2 => if dst < 12 then some (batonSite dst) else none
  | 3 => if dst < 2 then some (hostSite dst) else none
  | 4 => if dst < 8 then some (reserveSite dst) else none
  | 5 => if dst = 0 then some 0 else none
  | _ => none

/-- MSH_DIST_VAL between two routers. -/
def distVal (a b : Nat) : Nat :=
  let (h, r, d) := pathOf a b
  (2 * h + 6 * r + 24 * d + 2) + h * p2 10 + r * p2 17 + d * p2 22

/-- MSH_DIST_VAL for the pair selected; zero where the destination does not exist. -/
def State.distReg (s : State) : Nat :=
  match distSite (s.get F.MSH_DIST_SEL_kind) (s.get F.MSH_DIST_SEL_dst) with
  | some b => distVal (s.get F.MSH_DIST_SEL_src) b
  | none => 0

/-! ### Region clocks (R143) -/

def State.regionClk (s : State) (n : Nat) : Nat := Tab.get MeshSt.nominalClk s.mesh.clk n

/-- Ask for a region clock, in MHz: it takes effect at the next stride boundary. -/
def State.askClk (s : State) (n mhz : Nat) : State :=
  { s with mesh := { s.mesh with clkReq := Tab.put n mhz s.mesh.clkReq } }

/-- The clock set for a region, and the clock it runs at: the lower of that and its throttled clock (R789, R790). -/
def State.regionTarget (s : State) (n : Nat) : Nat := Tab.get MeshSt.nominalClk s.pwr.target n
def State.regionDue (s : State) (n : Nat) : Nat := min (s.regionTarget n) (Tab.get (s.regionTarget n) s.pwr.cap n)

/-- Every region clock asked for takes effect; a throttle step or raise of the lap does so at stride 16 (R788). A clock that
S-07 has stopped stays stopped (R628). -/
def State.applyClk (s : State) : State :=
  let s := { s with mesh := { s.mesh with clk := s.mesh.clkReq.foldl (fun t e => Tab.put e.1 e.2 t) s.mesh.clk, clkReq := [] } }
  if s.pwr.due && s.stride == 16 then
    let rs := (List.range 256).filter fun n => s.regionClk n != 0 && s.regionClk n != s.regionDue n
    let clk := rs.foldl (fun t n => Tab.put n (s.regionDue n) t) s.mesh.clk
    { s with mesh := { s.mesh with clk := clk }, pwr := { s.pwr with due := false } }
  else s

/-- REGION_CLOCK_CHANGE (R143): at a stride boundary the clocks asked for take effect; nothing at another position. -/
def execRegionClockChange (s : State) : Res := if s.fcIn = 0 then .next s.applyClk else .next s

/-- Regions of a geometry. -/
def geomRegions (g : Nat) : List Nat := ((List.range 256).filter fun n => geomHas g (blockOf (portRouter n)))

/-- Every region of a geometry runs at or above a floor in MHz. -/
def State.atFloor (s : State) (g floor : Nat) : Bool := (geomRegions g).all fun n => decide (floor ≤ s.regionClk n)

/-! ### Control flits and the stop flood (Table 4-9, R174, R179, R180) -/

namespace Ctl
def dst (f : Flit) : Nat := bitsOf f.toNat 0 11
def dport (f : Flit) : Nat := bitsOf f.toNat 11 3
def src (f : Flit) : Nat := bitsOf f.toNat 14 11
def sport (f : Flit) : Nat := bitsOf f.toNat 25 3
def kind (f : Flit) : Nat := bitsOf f.toNat 28 4
def off (f : Flit) : Nat := bitsOf f.toNat 32 32
def data (f : Flit) : Nat := bitsOf f.toNat 64 32
def heats (f : Flit) : Nat := bitsOf f.toNat 96 32

def make (kind dst dport src sport off data heats : Nat) : Flit :=
  BitVec.ofNat 256 (dst + dport * p2 11 + src * p2 14 + sport * p2 25 + kind * p2 28 + off * p2 32 + data * p2 64 +
    heats * p2 96)
end Ctl

/-- A stop flit at a router: its core halts where its heat is named; the flood goes east along row 0 and south down every
column, ahead of other control flits, unless the router has forwarded a flood and a stop of every heat it names. -/
def State.stopFlit (s : State) (r : Nat) (f : Flit) : State :=
  let hs := Ctl.heats f
  let s := match s.coreOwner r with
    | some h => if bitsOf hs h 1 = 1 && (Tab.find s.cores r).isSome then s.haltCore r else s
    | none => s
  let seen := Tab.find s.mesh.stopSeen r
  if seen.map (Nat.lor · hs) = seen && seen.isSome then s
  else
    let outs := (if coreRow r = 0 && coreCol r < 63 then [1] else []) ++ (if coreRow r < 31 then [2] else [])
    let q := Tab.get [] s.mesh.ctrl r
    let isStop (c : CtrlWait) : Bool := Ctl.kind c.flit == 4
    let q' := q.takeWhile isStop ++ outs.map (fun o => ⟨o, f, s.now⟩) ++ q.dropWhile isStop
    { s with mesh := { s.mesh with stopSeen := Tab.put r (Nat.lor (seen.getD 0) hs) s.mesh.stopSeen, ctrl := Tab.put r q' s.mesh.ctrl } }

/-- STOP_FLIT (R179, R180): a stop flit reaches router `r`; another kind of flit is none. -/
def execStopFlit (r : CoreId) (flit : Flit) (s : State) : Res :=
  .next (if Ctl.kind flit = 4 then s.stopFlit r.toNat flit else s)

/-- `stop` of some heats (R179, R729): those that are starting, running, recalling or draining halt with cause 2 and their
held release entries are discarded; the flood of the heats named enters at router 0, also where it names none. The heats
halted. -/
def State.stopHeats (s : State) (named : List Nat) : List Nat × State :=
  let hs := named.filter fun h => heatBusy (s.heatSt h)
  let mask := named.foldl (fun a h => Nat.lor a (p2 h)) 0
  let s := s.each hs fun s h => (s.heatHalted h 2).discardHeld h 3 s.lapN fun _ => true
  (hs, ((s.bump F.MSH_CNT_STOP_count).flag F.MSH_EVT_stop).stopFlit 0 (Ctl.make 4 0 0 0 2 0 0 mask))

/-- The heats that `stop` without a list names. -/
def State.stopAll (s : State) : List Nat := (List.range 32).filter fun h => heatBusy (s.heatSt h)

end Sys2Proof.Machine
end

