-- ==== Sys2Proof/Machine/Mem.lean ====
section
/-! DEFINITION. The memory of a heat, the slices, reserve controllers and stages as mesh targets, the patrol, the
correction windows and the host's BAR2 (R191, R194, R195, R360 to R384, R402 to R407, R806). -/

namespace Sys2Proof.Machine

/-! ### Which memory belongs to a heat (R191, R371) -/

/-- First address past the unit that holds an address. -/
def unitEnd (u : MemUnit) : Nat :=
  match u with
  | .sp k => spBase k + spSize
  | .slice n => (n + 1) * sliceSize
  | .reserve r => reserveBase + (r + 1) * reserveSize
  | .far => 2 * farBase

/-- The attachment that serves a heat's far window: the lower-numbered one it owns (R371). -/
def State.farAtt (s : State) (h : Nat) : Option Nat := (List.range 2).find? fun a => s.ownsHost h a

/-- A unit's memory belongs to heat `h`; the far window only where `far` admits it. -/
def State.unitOf (s : State) (h : Nat) (far : Bool) (u : MemUnit) : Bool :=
  match u with
  | .far => far && (s.farAtt h).isSome
  | _ => s.unitOwner u == some h

/-- Every byte of a range lies in memory that a test admits; `fuel` bounds the units a range may cross. -/
def State.rangeAll (s : State) (p : MemUnit → Bool) : Nat → Nat → Nat → Bool
  | 0, _, n => n == 0
  | fuel + 1, a, n =>
    if n = 0 then true
    else
      match s.memUnit a with
      | none => false
      | some u => p u && (if a + n ≤ unitEnd u then true else State.rangeAll s p fuel (unitEnd u) (a + n - unitEnd u))

/-- Every byte of a range belongs to heat `h` (R191); the far window only for its own DMA engines (R371). -/
def State.belongs (s : State) (h : Nat) (far : Bool) (a n : Nat) : Bool := s.rangeAll (s.unitOf h far) 2400 a n

/-- Slices of a heat, ascending. -/
def State.heatSlices (s : State) (h : Nat) : List Nat :=
  if geomNone (s.geomA h) then [] else (List.range 256).filter fun n => geomHas (s.geomA h) (blockOf (portRouter n))

/-- Module address of a uniform offset (R363). -/
def uniformAddr (slices : List Nat) (u : Nat) : Nat :=
  let n := slices.length
  let unit := u / 4096
  slices.getD (unit % n) 0 * sliceSize + unit / n * 4096 + u % 4096

/-- A write to a scratchpad by other means than its instructions: an open accumulation group there loses its value
(R248). -/
def State.soilAt (s : State) (a n : Nat) : State :=
  match s.memUnit a with
  | some (.sp k) => s.modCore k fun c => c.soil (a - spBase k) n
  | _ => s

/-- Write bytes at a module address. -/
def State.memPut (s : State) (a : Nat) (bs : List Byte) : State := (s.memStore a bs).soilAt a bs.length

/-! ### Targets -/

/-- A target's number: as DMA_RMAP_SEL numbers it, and 512 plus the core for a core's port. -/
def targetNum : MTarget → Nat
  | .slice n => n.toNat
  | .reserve r => 256 + r.toNat
  | .host a => 264 + a.val
  | .core k => 512 + k.toNat

/-- The router of a target. -/
def targetRouter (t : Nat) : Nat := if t < 512 then targetSite t else t - 512

/-- The target's own memory, where it holds any. -/
def targetUnit (t : Nat) : Option MemUnit :=
  if t < 256 then some (.slice t) else if t < 264 then some (.reserve (t - 256)) else if t < 512 then none
  else some (.sp (t - 512))

/-- Service time in fc (Table 9-3). -/
def serviceTime (t : Nat) : Nat := if t < 256 then 384 else if t < 264 then 768 else if t < 512 then 32 else 48

/-- A consumer's late counter, for targets that are no core. -/
def State.lateAt (s : State) (c : Nat) : State :=
  { s with mesh := { s.mesh with
      late := Tab.put c (BitVec.ofNat 32 (min ((Tab.get 0 s.mesh.late c).toNat + 1) (p2 32 - 1))) s.mesh.late } }

def targetConsumer (t : Nat) : Nat := if t < 256 then t else if t < 264 then 270 + (t - 256) else 268 + (t - 264)

/-- A late void reaches a target's port (R165, R167). -/
def State.targetVoid (s : State) (t void : Nat) : State :=
  if void ≠ 1 then s
  else if t < 512 then (s.lateAt (targetConsumer t)).countVoid (s.coreOwner (targetRouter t))
  else s.coreVoid (t - 512) void

/-- The requester holds offsets in the target's active reply map (R365, R806). A core's port answers every requester. -/
def State.answers (s : State) (t req : Nat) : Bool :=
  decide (512 ≤ t) || s.mesh.rmapA.any fun e => e.1 / 512 == t && e.2.toNat == 2048 + req

/-- The heat that owns a target counts a discarded packet (R194, R196, R806). -/
def State.targetDrop (s : State) (t : Nat) : State :=
  match s.coreOwner (targetRouter t) with
  | some h => s.countDiscard h (F.HEAT_H_DISCARD_addr h)
  | none => s

/-- The target holds the whole range itself. -/
def State.targetHolds (s : State) (t a n : Nat) : Bool :=
  match targetUnit t, s.memUnit a with
  | some u, some v => u == v && decide (a + n ≤ unitEnd u)
  | _, _ => false

/-- Queue a reply (R364). -/
def State.oweReply (s : State) (t : Nat) (r : ReplyDue) : State :=
  { s with mem := { s.mem with replies := Tab.put t (Tab.get [] s.mem.replies t ++ [r]) s.mem.replies } }

/-- The stage line that holds a far unit at an attachment. -/
def State.stageLine (s : State) (att unit : Nat) : Option StageLine :=
  s.mem.stage.find? fun l => l.att == att && l.unit == unit

/-- The bytes that a read request finds in a target's own memory, with a status. A host attachment holds none: a mesh packet
that names a far-window address names an unmapped one (R379). -/
def State.targetRead (s : State) (t a n : Nat) : Option (List Byte × Nat) :=
  if s.targetHolds t a n then some (s.readMem a n, if s.errClass a n = 0 then 0 else 3) else none

/-- SLICE_READ_REQUEST (R364, R165, R182, R194, R370, R806): a read request reaches a target. `n` is the number of data
flits its reply stream has in the schedule; a void request's head names the requester that the schedule gives. The
bytes are those that stand when the request arrives. -/
def State.readRequest (s : State) (t : Nat) (head : VFlit) (n : Nat) : State :=
  let s := s.targetVoid t head.void.toNat
  let h := head.data
  let reply (status : Nat) (void read : Bool) (data : List Byte) : ReplyDue :=
    { src := Hd.src h, sport := Hd.sport h, tag := Hd.tag h, addr := Hd.addr h, n := n, due := s.now + serviceTime t,
      status := status, void := void, read := read, data := data }
  if !s.answers t (Hd.src h) then (if head.void = 0 then s.targetDrop t else s)
  else if head.void ≠ 0 then s.oweReply t (reply 0 true false [])
  else
    match s.targetRead t (Hd.addr h) (32 * n) with
    | none => (s.targetDrop t).oweReply t (reply 1 false false (List.replicate (32 * n) 0))
    | some (bs, status) =>
      if 512 ≤ t && (s.core (t - 512)).run = .inReset then s.oweReply t (reply 1 false false (List.replicate (32 * n) 0))
      else s.oweReply t (reply status false true bs)

/-- SLICE_READ_REQUEST (R364). -/
def execSliceReadRequest (t : MTarget) (head : VFlit) (n : BitVec 8) (s : State) : Res :=
  .next (s.readRequest (targetNum t) head n.toNat)

/-- The flits of a reply: its head and data, all voids of reason late for a void one; stamped with the target as their
origin. -/
def replyFlits (t : Nat) (r : ReplyDue) : List MFlit :=
  let v := if r.void then 1 else 0
  let hd := Hd.make 3 r.n r.addr (targetRouter t) (if 512 ≤ t then 4 else 5) r.tag r.status
  let datas := flitsOf r.data r.n
  let strm := p2 20 + t * 2048 + r.src
  (⟨true, r.n == 0, v, hd, false, strm⟩ : MFlit) :: (datas.zipIdx.map fun x => ⟨false, x.2 + 1 == r.n, v, x.1, false, strm⟩)

/-- Where a target's replies to a requester wait for their slots: by requester, but for a core's port together. -/
def replyKey (t req : Nat) : Nat := t * 2048 + (if 512 ≤ t then 0 else req)

/-- A reply's flits go to their slots. -/
def State.putReply (s : State) (t : Nat) (r : ReplyDue) (own : Bool) : State :=
  let key := replyKey t r.src
  { s with mem := { s.mem with
      lanes := Tab.put key (Tab.get [] s.mem.lanes key ++ (replyFlits t r).map fun f => (own, f)) s.mem.lanes } }

/-- SLICE_REPLY (R364, R380 to R382): the first reply whose service time has passed is ready for its slots; what its read
found acts now. -/
def State.sendReply (s : State) (t : Nat) : State :=
  match Tab.get [] s.mem.replies t with
  | r :: rest =>
    if s.now < r.due then s
    else
      let s := { s with mem := { s.mem with replies := Tab.put t rest s.mem.replies } }
      let s := if r.read then s.findErr r.addr (32 * r.n) else s
      s.putReply t r false
  | [] => s

/-- SLICE_REPLY (R364). -/
def execSliceReply (t : MTarget) (s : State) : Res := .next (s.sendReply (targetNum t))

/-- A reply whose first offset has come and which is not ready leaves as voids with reason late, that the target counts
(R367). -/
def State.lateReply (s : State) (t req : Nat) : State :=
  match (Tab.get [] s.mem.replies t).find? fun r => r.src == req with
  | none => s
  | some r =>
    if s.now < r.due then s
    else
      let s := { s with mem := { s.mem with replies := Tab.put t ((Tab.get [] s.mem.replies t).erase r) s.mem.replies } }
      s.putReply t { r with void := true } true

/-- What a target sends in an offset of a requester. -/
def State.replySlot (s : State) (t req : Nat) : Option MFlit × State :=
  let key := replyKey t req
  let s := if t < 512 && (Tab.get [] s.mem.lanes key).isEmpty then s.lateReply t req else s
  match Tab.get [] s.mem.lanes key with
  | [] => (none, s)
  | x :: rest =>
    let s := { s with mem := { s.mem with lanes := Tab.put key rest s.mem.lanes } }
    (some x.2, if x.1 then s.lateAt (targetConsumer t) else s)

/-! ### Packets in arrival at a target (R165, R166, R177, R194, R366, R806) -/

/-- A flit of a write finds an uncorrectable granule: a write-accumulate in any granule that it reads, a write in one that
it covers in part (R366, Table 9-5). -/
def State.flitHits (s : State) (op a : Nat) (f : VFlit) : Bool :=
  if f.void ≠ 0 || (op = 1 && f.bad) then false
  else if op = 1 then s.errClass a 32 != 0
  else a % 8 != 0 && (s.mark (a / 8) == 2 || s.mark ((a + 31) / 8) == 2)

/-- A packet of `n` data flits begins at a target: a core's port, or a memory target, which discards an op that is none of
its own (R806) and a range that it does not hold (R194). -/
def State.arrBegin (s : State) (t slot : Nat) (head : VFlit) (n : Nat) : Arrival × State :=
  if 512 ≤ t then s.coreBegin (t - 512) slot head n
  else
    let s := s.targetVoid t head.void.toNat
    let take := head.void == 0 && decide (Hd.op head.data ≤ 1) && s.targetHolds t (Hd.addr head.data) (32 * n)
    (⟨head, s.now, slot, 0, head.void.toNat, take, false⟩, if head.void = 0 && !take then s.targetDrop t else s)

/-- The next data flit of a packet in arrival is applied as it comes (R177). -/
def State.arrFlit (s : State) (t : Nat) (a : Arrival) (f : VFlit) : Arrival × State :=
  if 512 ≤ t then s.coreFlit (t - 512) a f
  else
    let at_ := Hd.addr a.head.data + 32 * a.n
    let op := Hd.op a.head.data
    let s := s.targetVoid t f.void.toNat
    ({ a with n := a.n + 1, hit := a.hit || (a.take && s.flitHits op at_ f) }, if a.take then s.applyFlit op at_ f else s)

/-- The reply of a target to a packet: its head alone (R366), not before the service time after the packet's head. -/
def State.ackPacket (s : State) (t status : Nat) (a : Arrival) : State :=
  let h := a.head.data
  if s.answers t (Hd.src h) then
    s.oweReply t { src := Hd.src h, sport := Hd.sport h, tag := Hd.tag h, addr := Hd.addr h, n := 0,
                   due := max (a.at_ + serviceTime t) s.now, status := status, void := false, read := false, data := [] }
  else s

/-- The end of a packet at a target. A core's port answers a write where the core is in reset and the schedule answers it
(R182; log entry 59). -/
def State.arrEnd (s : State) (t : Nat) (a : Arrival) : State :=
  if 512 ≤ t then
    let k := t - 512
    let dead := !s.fenced k && (s.core k).run == .inReset
    if dead && a.head.void = 0 && Hd.op a.head.data ≤ 1 && Config.answersWrite k (Hd.src a.head.data) then s.ackPacket t 1 a
    else s.coreEnd k a
  else if a.head.void ≠ 0 || 2 ≤ Hd.op a.head.data then s
  else s.ackPacket t (if !a.take then 1 else if a.hit then 3 else 0) a

/-- The data flits of a packet, in order. -/
def State.arrFlits (s : State) (t : Nat) (a : Arrival) : List VFlit → Arrival × State
  | [] => (a, s)
  | f :: fs => let (a, s) := s.arrFlit t a f; State.arrFlits s t a fs

/-- A whole packet that is no read request, at a target. -/
def State.writePacket (s : State) (t slot : Nat) (head : VFlit) (data : List VFlit) : State :=
  let (a, s) := s.arrBegin t slot head data.length
  let (a, s) := s.arrFlits t a data
  s.arrEnd t a

/-- SLICE_WRITE_PACKET (R366). -/
def execSliceWritePacket (t : MTarget) (head : VFlit) (data : List VFlit) (s : State) : Res :=
  .next (s.writePacket (targetNum t) s.fcIn head data)

/-- PACKET_ARRIVAL (R258, R370): a packet at a core's port; a read request there asks for as many flits as the schedule
gives its reply. -/
def execPacketArrival (k : CoreId) (slot : BitVec 7) (head : VFlit) (data : List VFlit) (s : State) : Res :=
  .next (if head.void = 0 && Hd.op head.data = 2 then
      s.readRequest (512 + k.toNat) head (Config.replyFlits (512 + k.toNat) (Hd.src head.data * 64) % 129)
    else s.writePacket (512 + k.toNat) slot.toNat head data)

/-! ### Windows and the patrol (R380, R384) -/

/-- CE_WINDOW (R380): at a lap that is a multiple of 1,024 every unit's count begins anew. -/
def execCeWindow (s : State) : Res :=
  if s.lapN % 1024 = 0 then .next { s with mem := { s.mem with ce := [] } } else .next s

/-- A slice or controller is in service: S-12 or S-13 has passed, and it is not out of service (R384, R645). -/
def State.unitServed (s : State) (t : Nat) : Bool :=
  if t < 256 then decide (12 < s.boot.step) && bitsOf (s.rd (R.STA_OOSS (t / 32))) (t % 32) 1 == 0
  else decide (13 < s.boot.step) && bitsOf (s.rd R.STA_OOSX) (t - 256) 1 == 0

/-- Granules of a slice or controller. -/
def patrolLen (t : Nat) : Nat := if t < 256 then sliceSize / 32 else reserveSize / 32

def patrolBase (t : Nat) : Nat := if t < 256 then t * sliceSize else reserveBase + (t - 256) * reserveSize

/-- A slice has wrapped: once every slice in service has, a pass is counted (R384). -/
def State.patrolWrap (s : State) (t : Nat) : State :=
  if 256 ≤ t then s
  else
    let w := if s.mem.wrapped.contains t then s.mem.wrapped else t :: s.mem.wrapped
    let all := (List.range 256).all fun n => !s.unitServed n || w.contains n
    let s := { s with mem := { s.mem with wrapped := if all then [] else w } }
    if all then (s.bump F.DMA_CNT_PATROL_count).flag F.DMA_EVT_pass else s

/-- PATROL_GRANULE (R384): the unit reads and checks its next granule; `found` is what its cells have developed since
they were written: 1 correctable, 2 uncorrectable. -/
def State.patrol (s : State) (t found : Nat) : State :=
  if !s.on F.DMA_CFG_patrol_en || !s.unitServed t then s
  else
    let i := Tab.get 0 s.mem.patrol t
    let a := patrolBase t + 32 * i
    let s := if (found = 1 || found = 2) && s.mark (a / 8) < found then s.setMark (a / 8) found else s
    let s := s.findErr a 32
    let next := (i + 1) % patrolLen t
    let s := { s with mem := { s.mem with patrol := Tab.put t next s.mem.patrol } }
    if next = 0 then s.patrolWrap t else s

/-- PATROL_GRANULE (R384): slices and reserve controllers patrol; other targets have none. -/
def execPatrolGranule (t : MTarget) (found : BitVec 2) (s : State) : Res :=
  if (targetNum t) < 264 then .next (s.patrol (targetNum t) found.toNat) else .next s

/-! ### BAR2 (R195, R402 to R407) -/

/-- log2 of BAR2's size; 64 GiB after reset (Table 9-9). -/
def State.bar2Log (s : State) (pf : Nat) : Nat := Tab.get 36 s.mem.bar2 pf

/-- The base in use: bits below the size taken as zero (R404). -/
def State.bar2Base (s : State) (pf : Nat) : Nat :=
  let b := if pf = 0 then s.get F.DMA_BAR2_BASE0_LO_base_lo * p2 30 + s.get F.DMA_BAR2_BASE0_HI_base_hi * p2 32
    else s.get F.DMA_BAR2_BASE1_LO_base_lo * p2 30 + s.get F.DMA_BAR2_BASE1_HI_base_hi * p2 32
  b / p2 (s.bar2Log pf) * p2 (s.bar2Log pf)

/-- The region of Table 9-1 of an address, for accesses that must not leave one. -/
def State.barRegion (s : State) (a : Nat) : Option (Nat × Nat) :=
  match s.memUnit a with
  | some (.slice _) => some (0, 256 * sliceSize)
  | some (.reserve _) => some (reserveBase, reserveBase + 8 * reserveSize)
  | some (.sp k) => some (spBase k, spBase k + spSize)
  | _ => none

/-- What becomes of a BAR2 access. -/
inductive BarWay where
  | go (a : Nat)
  | drop
  | foreign (h : Nat)
  deriving DecidableEq, Repr

/-- Admission of a BAR2 access of `n` bytes at offset `off` (R195, R405, R406). -/
def State.barWay (s : State) (pf off n : Nat) : BarWay :=
  let a := s.bar2Base pf + off
  match (if off + n ≤ p2 (s.bar2Log pf) then s.barRegion a else none) with
  | none => .drop
  | some (_, hi) =>
    if hi < a + n then .drop
    else
      match s.coreOwner (hostSite pf) with
      | some h => if s.belongs h false a n then .go a else .foreign h
      | none =>
        if s.rangeAll (fun u => match s.unitOwner u with | some h => !heatLive (s.heatSt h) | none => true) 2400 a n then
          .go a else .drop

/-- A dropped host access (R405), which the heat that owns the attachment counts as well (R195). -/
def State.hostDrop (s : State) (pf : Nat) : State :=
  let s := (s.bump F.DMA_CNT_HOSTDROP_count).flag F.DMA_EVT_hostdrop
  match s.coreOwner (hostSite pf) with
  | some h => s.countDiscard h (F.HEAT_H_DISCARD_addr h)
  | none => s

/-- BAR2_READ (R195, R382, R405). -/
def execBar2Read (pf : Fin 2) (off : BitVec 39) (len : BitVec 13) (s : State) : Res :=
  let n := len.toNat
  let ones := List.replicate n (0xFF : Byte)
  match s.barWay pf.val off.toNat n with
  | .drop => .next ((s.hostDrop pf.val).send (.bar2Data pf.val ones false))
  | .foreign h => .next ((s.countDiscard h (F.HEAT_H_DISCARD_addr h)).send (.bar2Data pf.val ones false))
  | .go a => .next ((s.findErr a n).send (.bar2Data pf.val (s.readMem a n) (s.errClass a n != 0)))

/-- A poisoned write stores its granules with the poison code and acts as a finding (R383). -/
def State.poisonPut (s : State) (a : Nat) (bs : List Byte) : State :=
  let gs := if bs.isEmpty then [] else (List.range ((a + bs.length - 1) / 8 - a / 8 + 1)).map (· + a / 8)
  let s := (s.writeMem a bs).soilAt a bs.length
  let s := s.each gs fun s g => (s.setMark g 2).bump F.DMA_CNT_UE_count
  match s.memUnit a with
  | none => s
  | some u =>
    let s := ((s.recordErr (8 * (a / 8)) (unitClass u) (s.unitOwner u)).flag F.DMA_EVT_poison_in).flag F.DMA_EVT_ue
    let units := (gs.filterMap fun g => s.memUnit (8 * g)).foldl (fun l u => if l.contains u then l else l ++ [u]) []
    s.each units fun s u =>
      s.red { code := errCode (unitClass u), heat := s.unitOwner u, site := unitSite u, detail := 8 * (a / 8) % p2 32,
              flap := s.lapBack 128 }

/-- Bytes of posted BAR2 writes that a host attachment holds (R407). -/
def postedMax : Nat := 0x100000

/-- A posted write leaves the attachment for the memory. -/
def State.bar2Apply (s : State) (pf off : Nat) (bytes : List Byte) (poison : Bool) : State :=
  match s.barWay pf off bytes.length with
  | .drop => s.hostDrop pf
  | .foreign h => s.countDiscard h (F.HEAT_H_DISCARD_addr h)
  | .go a => if poison then s.poisonPut a bytes else s.memPut a bytes

/-- BAR2_WRITE (R24, R195, R383, R405, R407): a write that finds no room is not sent, for want of credits; one that the
attachment takes is applied in order, and its room is free again when time has passed (log entry 83). -/
def execBar2Write (pf : Fin 2) (off : BitVec 39) (bytes : List Byte) (poison : Bool) (s : State) : Res :=
  let held := Tab.get 0 s.mem.posted pf.val
  if postedMax < held + bytes.length then .next (s.send (.noCredit pf.val))
  else
    let s := { s with mem := { s.mem with posted := Tab.put pf.val (held + bytes.length) s.mem.posted } }
    .next (s.bar2Apply pf.val off.toNat bytes poison)

/-- BAR2_RESIZE (R402, R404): 2^(30 + size) bytes. -/
def execBar2Resize (pf : Fin 2) (size : Fin 10) (s : State) : Res :=
  .next { s with mem := { s.mem with bar2 := Tab.put pf.val (30 + size.val) s.mem.bar2 } }

/-- A write of DMA_BAR2_BASE: stored with its bits below the size in force cleared (R404). -/
def State.putBar2Base (s : State) (pf : Nat) (hi : Bool) (v : Nat) : State :=
  let size := s.bar2Log pf
  let keep (w lo : Nat) : Nat := if size ≤ lo then w else w / p2 (size - lo) * p2 (size - lo)
  if hi then
    s.put (if pf = 0 then F.DMA_BAR2_BASE0_HI_base_hi else F.DMA_BAR2_BASE1_HI_base_hi) (keep (v % 65536) 32)
  else
    s.put (if pf = 0 then F.DMA_BAR2_BASE0_LO_base_lo else F.DMA_BAR2_BASE1_LO_base_lo) (keep (v / p2 30) 30)

/-- DMA_BAR2_BASE_WRITE (R404). -/
def execDmaBar2BaseWrite (_p : Path) (pf : Fin 2) (hi : Bool) (v : Word) (s : State) : Res :=
  .next (s.putBar2Base pf.val hi v.toNat)

end Sys2Proof.Machine
end

