-- ==== Sys2Proof/Machine/Dma.lean ====
section
/-! DEFINITION. The DMA engine, its descriptors and page lists, and the far window's stage lines (R371 to R378, R383,
R385 to R401). A descriptor's units move in order within one command, but for those that wait for the host (log entry
41). -/

namespace Sys2Proof.Machine

/-! ### Descriptors (Table 9-7) -/

namespace DD

def w (d : List Word) (i : Nat) : Nat := (d.getD i 0).toNat
def op (d : List Word) : Nat := bitsOf (w d 0) 0 4
def chain (d : List Word) : Bool := bitsOf (w d 0) 12 1 == 1
def usrc (d : List Word) : Bool := bitsOf (w d 0) 13 1 == 1
def udst (d : List Word) : Bool := bitsOf (w d 0) 14 1 == 1
def ro (d : List Word) : Bool := bitsOf (w d 0) 15 1 == 1
def page (d : List Word) : Nat := p2 (12 + bitsOf (w d 0) 16 4)
def src (d : List Word) : Nat := w d 1 + w d 2 % 65536 * p2 32
def dst (d : List Word) : Nat := w d 3 + w d 4 % 65536 * p2 32
def units (d : List Word) : Nat := w d 5
def list (d : List Word) : Nat := w d 6 + w d 7 % 65536 * p2 32
def first (d : List Word) : Nat := w d 8
def count (d : List Word) : Nat := w d 9
def aux (d : List Word) : Nat := w d 10
def bounce (d : List Word) : Nat := w d 12 % 65536 * 16
def next (d : List Word) : Nat := w d 13 % 65536 * 16

end DD

/-- The descriptor at a scratchpad offset of a core. -/
def State.dmaDesc (s : State) (k off : Nat) : List Word := wordsOf (s.spGet k off 64) 16

/-! ### Page lists (R393) -/

/-- A frame, a hole, or the end of what can be walked. -/
inductive PageRef where
  | frame (f : Nat) (at_ : Nat)
  | hole
  | bad
  deriving DecidableEq, Repr

/-- Walk a list from its entry at byte address `a`: skip `first` entries, then take `n`. Chain markers lead to other
blocks; an entry outside the heat's memory is `bad`. -/
def State.walk (s : State) (h : Nat) : Nat → Nat → Nat → Nat → List PageRef
  | 0, _, _, n => List.replicate n .bad
  | fuel + 1, a, first, n =>
    if n = 0 then []
    else if !s.belongs h false a 4 then List.replicate n .bad
    else
      let e := leNat (s.readMem a 4)
      if e = 0xFFFFFFFF then
        if s.belongs h false (a + 4) 8 then State.walk s h fuel (leNat (s.readMem (a + 4) 8) % p2 48) first n
        else List.replicate n .bad
      else if 0 < first then State.walk s h fuel (a + 4) (first - 1) n
      else (if e = 0xFFFFFFFE then PageRef.hole else .frame e a) :: State.walk s h fuel (a + 4) 0 (n - 1)

/-- The pages of a list descriptor. -/
def State.pages (s : State) (h : Nat) (d : List Word) : List PageRef :=
  s.walk h (2 * (DD.first d + DD.count d) + 64) (DD.list d) (DD.first d) (DD.count d)

/-! ### Where a descriptor's units lie -/

/-- A side of a transfer. -/
inductive Side where
  | none
  | at_ (base : Nat) (uniform : Bool)
  | list (base : Nat) (uniform : Bool) (pages : List PageRef) (size : Nat)
  deriving DecidableEq, Repr

/-- Module address of byte `i` of a side; none for a hole or an address that the side does not have. -/
def Side.addr (slices : List Nat) (sd : Side) (i : Nat) : Option Nat :=
  let go (u : Bool) (a : Nat) : Nat := if u then uniformAddr slices a else a
  match sd with
  | .none => Option.none
  | .at_ b u => some (go u (b + i))
  | .list b u ps size =>
    match ps.getD (i / size) .bad with
    | .frame f _ => some (go u (b + f * size + i % size))
    | _ => Option.none

/-- Every byte of a side belongs to the heat. -/
def State.sideOk (s : State) (h : Nat) (sd : Side) (len : Nat) : Bool :=
  let view := (s.heatSlices h).length * sliceSize
  let ok (u : Bool) (a n : Nat) : Bool := if u then decide (a + n ≤ view) else s.belongs h true a n
  match sd with
  | .none => true
  | .at_ b u => b % 32 == 0 && ok u b len
  | .list b u ps size => b % 32 == 0 && ps.all fun p =>
      match p with
      | .frame f _ => ok u (b + f * size) size
      | .hole => true
      | .bad => false

/-- The side's bytes all lie in core `k`'s own scratchpad. -/
def Side.own (k : Nat) (sd : Side) : Bool :=
  let mine (a : Nat) : Bool := decide (spBase k ≤ a) && decide (a < spBase k + spSize)
  match sd with
  | .none => true
  | .at_ b u => !u && mine b
  | .list b u ps size => !u && ps.all fun p => match p with | .frame f _ => mine (b + f * size) | _ => true

/-- A descriptor made ready: source, destination, bytes to move, and what a hole of the source writes. -/
structure Plan where
  src : Side
  dst : Side
  len : Nat
  fill : Option Nat
  stage : Bool
  /-- The bounce area, where neither side is the core's own scratchpad (R388). -/
  bounce : Option Nat
  deriving DecidableEq, Repr

/-- The plan of a descriptor of core `k` in heat `h`, or none where it breaks a rule (R361, R389, R395, R398, Table
9-8). -/
def State.planOf (s : State) (k h : Nat) (d : List Word) : Option Plan :=
  let n := 32 * DD.units d
  let pageOk := decide (bitsOf (DD.w d 0) 16 4 ≤ 8)
  let src := Side.at_ (DD.src d) (DD.usrc d)
  let dst := Side.at_ (DD.dst d) (DD.udst d)
  let view := (s.heatSlices h).length
  let check (p : Plan) : Option Plan :=
    let uni := (!DD.usrc d && !DD.udst d) || 0 < view
    let direct := p.stage || p.src == .none || p.src.own k || p.dst.own k
    let bounce := direct || (DD.bounce d % 512 == 0 && decide (DD.bounce d + 8192 ≤ spSize))
    if DD.units d ≠ 0 && uni && s.sideOk h p.src p.len && s.sideOk h p.dst p.len && bounce then
      some { p with bounce := if direct then none else some (DD.bounce d) }
    else none
  match DD.op d with
  | 0 => check ⟨src, dst, n, none, false, none⟩
  | 1 =>
    if pageOk && n = DD.count d * DD.page d then
      check ⟨.list (DD.src d) (DD.usrc d) (s.pages h d) (DD.page d), dst, n, none, false, none⟩
    else none
  | 2 =>
    if pageOk && n = DD.count d * DD.page d then
      check ⟨src, .list (DD.dst d) (DD.udst d) (s.pages h d) (DD.page d), n, none, false, none⟩
    else none
  | 3 =>
    if pageOk && n = DD.page d then
      match s.walk h (2 * DD.first d + 64) (DD.list d) (DD.first d) 1 with
      | [.frame f _] =>
        check ⟨.at_ (DD.src d + f * DD.page d) (DD.usrc d), .at_ (DD.dst d + DD.count d * DD.page d) (DD.udst d), n, none,
          false, none⟩
      | _ => none
    else none
  | 4 =>
    if DD.units d % 128 = 0 && DD.src d % 4096 = 0 && farBase ≤ DD.src d && !DD.usrc d then
      check ⟨src, .none, n, none, true, none⟩
    else none
  | 5 => check ⟨.none, dst, n, some (DD.aux d), false, none⟩
  | _ => none

/-! ### The far window (R371 to R378) -/

/-- DMA_FWa_BASE and DMA_FWa_SIZE. -/
def State.fwBase (s : State) (a : Nat) : Nat :=
  if a = 0 then s.get F.DMA_FW0_BASE_LO_base_lo * 8 + s.get F.DMA_FW0_BASE_HI_base_hi * p2 32
  else s.get F.DMA_FW1_BASE_LO_base_lo * 8 + s.get F.DMA_FW1_BASE_HI_base_hi * p2 32

def State.fwSize (s : State) (a : Nat) : Nat := s.get (if a = 0 then F.DMA_FW0_SIZE_pages else F.DMA_FW1_SIZE_pages)

/-- The translation entry of a far unit of 4 KiB: none where the page is not mapped (R372, Table 9-4). -/
def State.fwEntry (s : State) (a unit : Nat) : Option Nat :=
  let page := unit / 512
  if s.fwSize a ≤ page then none
  else
    let e := leNat (s.readMem (s.fwBase a + 8 * page) 8)
    if bitsOf e 0 1 = 1 then some e else none

/-- A far unit fails: counted, with its pennant (Table 9-6). -/
def State.farFail (s : State) (k cls : Nat) : State :=
  let s := s.bump F.DMA_CNT_FAR_count
  let h := s.coreOwner k
  if cls = 4 then
    (s.flag F.DMA_EVT_poison_in).red { code := errCode 4, heat := h, site := k, flap := s.lapBack 128 }
  else (s.flag F.DMA_EVT_far_err).yellow { code := 0x10F, heat := h, site := k, detail := cls }

/-- A free stage line at an attachment (R373, R374): where none of the 4,096 is free, the line staged earliest among those
that PREFETCH staged and no move has used is evicted; none where there is no such line. Staged lines stand in the order in
which they were staged. -/
def State.roomLine (s : State) (att : Nat) : Option State :=
  let mine := s.mem.stage.filter fun l => l.att == att
  if mine.length < 4096 then some s
  else
    (mine.find? fun l => l.pre && l.staged).map fun v =>
      { s with mem := { s.mem with stage := s.mem.stage.filter fun l => l.att != att || l.unit != v.unit } }

/-- STAGE_REQUEST (R372 to R374): the attachment translates the unit and issues the reads. -/
def State.stageReq (s : State) (att k unit : Nat) (pre : Bool) : State :=
  if (s.stageLine att unit).isSome then s
  else
    match s.roomLine att with
    | none => s
    | some s =>
      let s := s.bump F.DMA_CNT_STAGE_count
      let line (host left fail : Nat) : StageLine :=
        { att := att, unit := unit, core := k, ms := s.boot.ms, host := host, left := left, staged := false,
          fail := fail, pre := pre, data := [] }
      let add (s : State) (l : StageLine) : State := { s with mem := { s.mem with stage := s.mem.stage ++ [l] } }
      let entry := s.fwBase att + 8 * (unit / 512)
      let cls := if unit / 512 < s.fwSize att then s.errClass entry 8 else 0
      match s.fwEntry att unit with
      | none => (add s (line 0 0 7)).farFail k 7
      | some e =>
        let s := s.findErr entry 8
        if cls ≠ 0 then add s (line 0 0 cls)
        else
          let host := e / p2 21 * p2 21 + unit % 512 * 4096
          (add s (line host 4096 0)).send (.hostRead att host 4096)

/-- STAGE_REQUEST (R373). -/
def execStageRequest (att : Fin 2) (k : CoreId) (unit : BitVec 31) (s : State) : Res :=
  .next (s.stageReq att.val k.toNat unit.toNat false)

def State.modStage (s : State) (att unit : Nat) (f : StageLine → StageLine) : State :=
  { s with mem := { s.mem with stage := s.mem.stage.map fun l => if l.att == att && l.unit == unit then f l else l } }

/-- FAR_READ_COMPLETION (R373, R378, R383): `status` 0 good, 1 poisoned, 2 Unsupported Request or Completer Abort. -/
def execFarReadCompletion (att : Fin 2) (unit : BitVec 31) (status : BitVec 2) (bytes : List Byte) (s : State) : Res :=
  match s.stageLine att.val unit.toNat with
  | none => .next s
  | some l =>
    if l.staged || l.fail ≠ 0 then .next s
    else if status = 1 then .next ((s.modStage l.att l.unit fun l => { l with fail := 4 }).farFail l.core 4)
    else if status ≠ 0 then .next ((s.modStage l.att l.unit fun l => { l with fail := 6 }).farFail l.core 6)
    else
      let left := l.left - bytes.length
      let s := s.modStage l.att l.unit fun l => { l with data := l.data ++ bytes.take l.left, left := left, staged := left == 0 }
      let mine (x : StageLine) : Bool := x.att == l.att && x.unit == l.unit
      .next (if left ≠ 0 then s
        else { s with mem := { s.mem with stage := (s.mem.stage.filter fun x => !mine x) ++ s.mem.stage.filter mine } })

/-- STAGE_TIMEOUT (R378): a line without all its completions after stage_to ms fails with class 5. -/
def execStageTimeout (att : Fin 2) (unit : BitVec 31) (s : State) : Res :=
  match s.stageLine att.val unit.toNat with
  | none => .next s
  | some l =>
    if l.staged || l.fail ≠ 0 || s.boot.ms < l.ms + s.get F.DMA_CFG_stage_to then .next s
    else .next ((s.modStage l.att l.unit fun l => { l with fail := 5 }).farFail l.core 5)

/-! ### Moving units -/

/-- What one unit of up to 4 KiB comes to: moved, waiting for the host, or failed with a status and class. -/
inductive UnitEnd where
  | moved (s : State)
  | waits (s : State)
  | fails (s : State) (status cls : Nat)

/-- 32-byte pieces of a unit with their addresses at a side. -/
def Side.pieces (slices : List Nat) (sd : Side) (i n : Nat) : List (Nat × Option Nat) :=
  (List.range (n / 32)).map fun j => (j, sd.addr slices (i + 32 * j))

/-- Far units that a side's pieces touch, in order. -/
def farUnits (ps : List (Nat × Option Nat)) : List Nat :=
  ps.foldl (fun l p =>
    match p.2 with
    | some a => if farBase ≤ a && a < 2 * farBase then
        (let u := (a - farBase) / 4096; if l.contains u then l else l ++ [u]) else l
    | none => l) []

/-- A core other than `k` whose scratchpad the pieces touch is in reset (R265, R370). -/
def State.resetTarget (s : State) (k : Nat) (ps : List (Nat × Option Nat)) : Bool :=
  ps.any fun p =>
    match p.2.bind s.memUnit with
    | some (.sp j) => j != k && (s.core j).run == .inReset
    | _ => false

/-- The far units a source needs: staged ones, else asked for now; a failed one ends the descriptor. -/
def State.needStage (s : State) (k att : Nat) (pre : Bool) : List Nat → UnitEnd
  | [] => .moved s
  | u :: us =>
    match s.stageLine att u with
    | some l =>
      if l.fail ≠ 0 then
        .fails { s with mem := { s.mem with stage := s.mem.stage.filter fun x => x.att != att || x.unit != u } } 4 l.fail
      else if l.staged then s.needStage k att pre us
      else .waits s
    | none =>
      let s := s.stageReq att k u pre
      match s.stageLine att u with
      | some l => if l.fail ≠ 0 then
          .fails { s with mem := { s.mem with stage := s.mem.stage.filter fun x => x.att != att || x.unit != u } } 4 l.fail
        else .waits s
      | none => .waits s

/-- The bytes of one piece of the source. -/
def State.pieceRead (s : State) (att : Nat) (fill : Option Nat) (a : Option Nat) : List Byte :=
  match fill, a with
  | some w, _ => (List.replicate 8 (leBytes w 4)).flatten
  | none, none => List.replicate 32 0
  | none, some a =>
    if farBase ≤ a && a < 2 * farBase then
      match s.stageLine att ((a - farBase) / 4096) with
      | some l => (l.data.drop ((a - farBase) % 4096)).take 32
      | none => []
    else s.readMem a 32

/-- The class of the first uncorrectable granule that the pieces read, with what the reads find. -/
def State.readPieces (s : State) (ps : List (Nat × Option Nat)) : State × Nat :=
  ps.foldl (fun r p =>
    match p.2 with
    | some a =>
      if farBase ≤ a && a < 2 * farBase then r
      else (r.1.findErr a 32, if r.2 = 0 then r.1.errClass a 32 else r.2)
    | none => r) (s, 0)

/-- Write the pieces: to memory, or in posted writes of whole far units (R376, R377). -/
def State.writePieces (s : State) (att : Nat) (ro : Bool) (ds : List (Nat × Option Nat)) (bytes : List (List Byte)) : State :=
  s.each ds fun s d =>
    match d.2 with
    | none => s
    | some a =>
      let bs := bytes.getD d.1 []
      if farBase ≤ a && a < 2 * farBase then
        match s.fwEntry att ((a - farBase) / 4096) with
        | some e =>
          s.send (.hostWrite att (e / p2 21 * p2 21 + (a - farBase) % p2 21) bs (ro && bitsOf e 3 1 == 1) (bitsOf e 2 1 == 1))
        | none => s
      else s.memPut a bs

/-- The destination's far units can be written: class 7 not mapped, class 8 read-only (R372). -/
def State.farWritable (s : State) (att : Nat) (us : List Nat) : Nat :=
  us.foldl (fun c u =>
    if c ≠ 0 then c
    else match s.fwEntry att u with
      | none => 7
      | some e => if bitsOf e 1 1 = 1 then 0 else 8) 0

/-- Move the unit at byte `i` of a plan, `n` bytes, by way of one half of the bounce area where neither side is the
core's own (R388). A far unit is written through a stage line that must be free, and is free again when its posted
writes have gone (R376). -/
def State.moveUnit (s : State) (k h : Nat) (ro : Bool) (p : Plan) (i n : Nat) : UnitEnd :=
  let sl := s.heatSlices h
  let att := (s.farAtt h).getD 0
  let src := p.src.pieces sl i n
  let dst := p.dst.pieces sl i n
  let live := src.filter fun x => p.dst == .none || (dst.getD x.1 (0, none)).2.isSome
  match s.needStage k att false (farUnits live) with
  | .moved s =>
    if s.resetTarget k live || s.resetTarget k dst then .fails s 2 0
    else
      let (s, cls) := s.readPieces live
      if cls ≠ 0 then .fails s 4 cls
      else
        let wcls := s.farWritable att (farUnits dst)
        if wcls ≠ 0 then .fails (s.farFail k wcls) 4 wcls
        else
          let bytes := src.map fun x => s.pieceRead att p.fill x.2
          match (if (farUnits dst).isEmpty then some s else s.roomLine att) with
          | none => .waits s
          | some s =>
          let s := match p.bounce, live with
            | some b, _ :: _ => s.spPut k (b + i / 4096 % 2 * 4096) bytes.flatten
            | _, _ => s
          let s := s.writePieces att ro dst bytes
          let keep := if i + n < p.len then farUnits (p.src.pieces sl (i + n) 32) else []
          let gone := (farUnits live).filter fun u => !keep.contains u
          .moved { s with mem := { s.mem with stage := s.mem.stage.filter fun l => l.att != att || !gone.contains l.unit } }
  | e => e

/-- Move units from byte `i` on. -/
def State.moveUnits (s : State) (k h : Nat) (ro : Bool) (p : Plan) : Nat → Nat → UnitEnd × Nat
  | 0, i => (.moved s, i)
  | fuel + 1, i =>
    if p.len ≤ i then (.moved s, i)
    else
      let n := min 4096 (p.len - i)
      match s.moveUnit k h ro p i n with
      | .moved s => State.moveUnits s k h ro p fuel (i + n)
      | e => (e, i)

/-- PREFETCH (R398): stage units from byte `i` on, each until it is staged or has failed; `cls` is the class of the
first that failed. -/
def State.stageUnits (s : State) (k att : Nat) (p : Plan) : Nat → Nat → Nat → UnitEnd × Nat × Nat
  | 0, i, cls => (.moved s, i, cls)
  | fuel + 1, i, cls =>
    if p.len ≤ i then (.moved s, i, cls)
    else
      match s.needStage k att true (farUnits (p.src.pieces [] i 32)) with
      | .moved s => State.stageUnits s k att p fuel (i + 4096) cls
      | .fails s _ c => State.stageUnits s k att p fuel (i + 4096) (if cls = 0 then c else cls)
      | .waits s => (.waits s, i, cls)

/-! ### Chains -/

/-- Bytes of a scratchpad that carry a tag. -/
def State.memTagged (s : State) (a n : Nat) : Bool :=
  match s.memUnit a with
  | some (.sp j) => (s.core j).tagRange (a - spBase j) n
  | _ => false

/-- A source in a scratchpad that carries a tag (R268). -/
def State.srcTagged (s : State) (sl : List Nat) (p : Plan) : Bool :=
  (List.range (p.len / 32)).any fun i =>
    match p.src.addr sl (32 * i) with
    | some a => s.memTagged a 32
    | none => false

/-- A page list that `State.walk` reads carries a tag. -/
def State.walkTagged (s : State) (h : Nat) : Nat → Nat → Nat → Nat → Bool
  | 0, _, _, _ => false
  | fuel + 1, a, first, n =>
    if n = 0 || !s.belongs h false a 4 then false
    else if s.memTagged a 4 then true
    else if leNat (s.readMem a 4) = 0xFFFFFFFF then
      s.belongs h false (a + 4) 8 &&
        (s.memTagged (a + 4) 8 || State.walkTagged s h fuel (leNat (s.readMem (a + 4) 8) % p2 48) first n)
    else State.walkTagged s h fuel (a + 4) (first - 1) (if 0 < first then n else n - 1)

/-- A descriptor would read a tagged line: its page list, or its source (R268). -/
def State.planTagged (s : State) (k h : Nat) (d : List Word) : Bool :=
  let list := match DD.op d with
    | 1 => s.walkTagged h (2 * (DD.first d + DD.count d) + 64) (DD.list d) (DD.first d) (DD.count d)
    | 2 => s.walkTagged h (2 * (DD.first d + DD.count d) + 64) (DD.list d) (DD.first d) (DD.count d)
    | 3 => s.walkTagged h (2 * DD.first d + 64) (DD.list d) (DD.first d) 1
    | _ => false
  list || match s.planOf k h d with
    | some p => s.srcTagged (s.heatSlices h) p
    | none => false

/-- A chain would read a tagged line: a descriptor, a page list or a source of any of its descriptors (R268). -/
def State.chainTagged (s : State) (k h : Nat) : Nat → Nat → Bool
  | 0, _ => false
  | fuel + 1, off =>
    if off % 64 ≠ 0 || !spIn off 64 then false
    else if (s.core k).tagRange off 64 then true
    else
      let d := s.dmaDesc k off
      s.planTagged k h d || (DD.chain d && State.chainTagged s k h fuel (DD.next d))

/-- DMA (R263, R268, R385): a chain is queued, at most eight; a ninth waits at issue. A chain that would read a tagged
line, or a tagged descriptor offset, is refused whole. -/
def execDma (k : CoreId) (g : BitVec 3) (a b : BitVec 5) (imm : BitVec 12) (s : State) : Res :=
  .next (s.issue k g (comWord 7 g a b imm) fun s gt =>
    let i := k.toNat
    let c := s.core i
    let off := (c.sv a).toNat
    if b ≠ 0 || imm ≠ 0 then .trap 1
    else if !spIn off 64 then .trap 3
    else if off % 64 ≠ 0 then .trap 4
    else if !c.opFree || 8 ≤ c.dma.length then .stall
    else
      let id := c.opNext
      let tagged := gt || c.tagOfS a || s.chainTagged i ((s.coreOwner i).getD 32) 65536 off
      let c := c.takeOp
      if tagged then .done ((s.setCore i (c.complete id 3 6 0)).provRefuse i id)
      else
        .done (s.setCore i { c with dma := c.dma ++ [⟨id, off, false, 0, 0, 0, false, 0, 0⟩] }))

/-- Replace the chain in progress. -/
def State.modChain (s : State) (k : Nat) (f : DmaChain → DmaChain) : State :=
  s.modCore k fun c => { c with dma := match c.dma with | x :: xs => f x :: xs | [] => [] }

/-- A descriptor has failed: its chain ends (R400, R401). -/
def State.dmaFail (s : State) (k status cls : Nat) : State :=
  (s.bump (F.DMA_C_CNT_ERR_count k)).modChain k fun x => { x with ended := true, status := status, cls := cls }

/-- Write words 14 and 15 back (R391). -/
def State.dmaBack (s : State) (k off done status cls : Nat) : State :=
  if off % 64 = 0 && spIn off 64 then s.spPut k (off + 56) (leBytes (done + (status + cls * 16 + 256) * p2 32) 8) else s

/-- A COW whose page has been copied writes the new frame into the entry and the old one into aux (R395). -/
def State.cowEnd (s : State) (k h off : Nat) (d : List Word) : State :=
  if DD.op d ≠ 3 then s
  else
    match s.walk h (2 * DD.first d + 64) (DD.list d) (DD.first d) 1 with
    | [.frame f at_] => (s.memPut at_ (leBytes (DD.count d) 4)).spPut k (off + 40) (leBytes f 4)
    | _ => s

/-- DMA_DESCRIPTOR (R385, R391 to R401): the descriptor in progress begins or goes on, unit after unit, until it ends, a
unit waits for the host, or one fails. An ended descriptor whose chain goes on is written back and the next follows. -/
def State.dmaStep (s : State) (k : Nat) : State :=
  match (s.core k).dma with
  | [] => s
  | x :: _ =>
    if x.ended then s
    else
      let h := (s.coreOwner k).getD 32
      let bad := x.at_ % 64 ≠ 0 || !spIn x.at_ 64
      let s := if x.begun then s else s.modChain k fun x => { x with begun := true, done := 0, cls := 0, count := x.count + 1 }
      let x := ((s.core k).dma.head?).getD x
      if bad || 65536 < x.count || h = 32 then s.dmaFail k 5 0
      else
        let s := if x.done = 0 then s.spFind k x.at_ 64 else s
        let d := s.dmaDesc k x.at_
        match s.planOf k h d with
        | none => s.dmaFail k 5 0
        | some p =>
          if (s.core k).tagRange x.at_ 64 || s.planTagged k h d then (s.dmaFail k 6 0).provRefuse k x.op
          else
            let fuel := p.len / 4096 + 2
            let (e, i, c) := if p.stage then s.stageUnits k ((s.farAtt h).getD 0) p fuel (32 * x.done) x.cls
              else let r := s.moveUnits k h (DD.ro d) p fuel (32 * x.done); (r.1, r.2, 0)
            let moved := if p.stage then 0 else i / 32 - x.done
            let note (s : State) : State :=
              (s.bump (F.DMA_C_CNT_UNITS_count k) moved).modChain k fun y =>
                { y with done := i / 32, total := y.total + moved, cls := c }
            match e with
            | .waits s => note s
            | .fails s status cls => (note s).dmaFail k status cls
            | .moved s =>
              let s := (note s).cowEnd k h x.at_ d
              if c ≠ 0 then s.dmaFail k 4 c
              else if DD.chain d then
                (s.dmaBack k x.at_ (if p.stage then 0 else i / 32) 0 0).modChain k fun y => { y with at_ := DD.next d, begun := false, done := 0 }
              else s.modChain k fun y => { y with ended := true }

/-- DMA_DESCRIPTOR (R391): a core that is fenced or in reset runs none. -/
def execDmaDescriptor (k : CoreId) (s : State) : Res :=
  if s.fenced k.toNat || (s.core k.toNat).run = .inReset then .next s else .next (s.dmaStep k.toNat)

/-- The end of the chain in progress: its last descriptor is written back, and one record of kind 3 follows (R400). A
PREFETCH moves no unit (R398). -/
def State.dmaEnd (s : State) (k : Nat) : State :=
  match (s.core k).dma with
  | x :: rest =>
    if !x.ended then s
    else
      let s := s.dmaBack k x.at_ (if DD.op (s.dmaDesc k x.at_) = 4 then 0 else x.done) x.status x.cls
      s.modCore k fun c => { c with dma := rest }.complete x.op 3 x.status x.total
  | [] => s

/-- DMA_CHAIN_COMPLETE (R400). -/
def execDmaChainComplete (k : CoreId) (s : State) : Res := .next (s.dmaEnd k.toNat)

/-- The end of a drain: every chain completes with heat stopped, in order (R202, R401). -/
def State.dmaStop (s : State) (k : Nat) : State :=
  s.each (s.core k).dma fun s x =>
    let s := s.modChain k fun y => if y.ended then y else { y with ended := true, status := 3, cls := 0 }
    let s := if x.begun || x.ended then s else s.modChain k fun y => { y with done := 0 }
    s.dmaEnd k

/-- DMA_C_STATE, DMA_STATUS.stage counts: read from what the engine holds (Table 9-12). -/
def State.dmaState (s : State) (k : Nat) : Nat :=
  let q := (s.core k).dma
  match q with
  | [] => 0
  | x :: _ => q.length + p2 4 + x.at_ / 16 % 65536 * p2 5

def State.stageCount (s : State) (a : Nat) : Nat := (s.mem.stage.filter fun l => l.att == a).length

/-- Attachment `a` serves a heat's far window (R371). -/
def State.servesFar (s : State) (a : Nat) : Bool :=
  match s.coreOwner (hostSite a) with
  | some h => s.farAtt h == some a
  | none => false

end Sys2Proof.Machine
end

