-- ==== Sys2Proof/Machine/Kv.lean ====
section
/-! DEFINITION. The KV cache: pages, the page frame table, sheets, the keeper's commands and its moves between tiers
(R410 to R438, R444, R460). -/

namespace Sys2Proof.Machine

/-! ### Configuration (Table 10-11) -/

/-- Head dimension, element bytes, groups and layers of a heat's cache, and its slices. -/
structure KvCfg where
  d : Nat
  e : Nat
  g : Nat
  l : Nat
  slices : List Nat
  deriving DecidableEq, Repr

def State.kvCfg (s : State) (h : Nat) : KvCfg :=
  { d := List.getD [64, 128, 256] (s.getA (F.KV_H_CFG_dsel h)) 128, e := if s.getA (F.KV_H_CFG_kvfmt h) = 1 then 4 else 2,
    g := s.getA (F.KV_H_CFG_g_m1 h) + 1, l := s.getA (F.KV_H_CFG_l_m1 h) + 1, slices := s.heatSlices h }

/-- Bytes of a page: 256 slots of K and V (R410). -/
def KvCfg.page (c : KvCfg) : Nat := 512 * c.d * c.e

/-- Bytes of one slot's K. -/
def KvCfg.slot (c : KvCfg) : Nat := c.d * c.e

def State.kvPft (s : State) (h : Nat) : Nat := s.getA (F.KV_H_PFT_LO_pft h) + s.getA (F.KV_H_PFT_HI_pft h) * p2 32
def State.kvDig (s : State) (h : Nat) : Nat := s.getA (F.KV_H_DIG_LO_dig h) + s.getA (F.KV_H_DIG_HI_dig h) * p2 32
def State.kvPages (s : State) (h : Nat) : Nat := s.getA (F.KV_H_NPAGE_pages h)

/-- First frame and number of frames of tier 1, 2 or 3. -/
def State.kvBase (s : State) (h t : Nat) : Nat :=
  s.getA (if t = 1 then F.KV_H_T1_BASE_base h else if t = 2 then F.KV_H_T2_BASE_base h else F.KV_H_T3_BASE_base h)

def State.kvFrames (s : State) (h t : Nat) : Nat :=
  s.getA (if t = 1 then F.KV_H_T1_N_frames h else if t = 2 then F.KV_H_T2_N_frames h else F.KV_H_T3_N_frames h)

/-! ### Uniform memory and frames (R363, R414) -/

/-- Cut a range at 4 KiB boundaries: first byte and length of each part. -/
def cut4k : Nat → Nat → Nat → List (Nat × Nat)
  | 0, _, _ => []
  | fuel + 1, a, n =>
    if n = 0 then []
    else
      let m := min n (4096 - a % 4096)
      (a, m) :: cut4k fuel (a + m) (n - m)

def State.uGet (s : State) (sl : List Nat) (u n : Nat) : List Byte :=
  ((cut4k (n / 4096 + 2) u n).map fun p => s.readMem (uniformAddr sl p.1) p.2).flatten

def State.uPut (s : State) (sl : List Nat) (u : Nat) (bs : List Byte) : State :=
  s.each (cut4k (bs.length / 4096 + 2) u bs.length) fun s p =>
    s.memStore (uniformAddr sl p.1) ((bs.drop (p.1 - u)).take p.2)

/-- Errors that a read of a uniform range finds: the state and the first class. -/
def State.uFind (s : State) (sl : List Nat) (u n : Nat) : State × Nat :=
  (cut4k (n / 4096 + 2) u n).foldl (fun r p =>
    (r.1.findErr (uniformAddr sl p.1) p.2, if r.2 = 0 then r.1.errClass (uniformAddr sl p.1) p.2 else r.2)) (s, 0)

/-- A byte of a frame: the uniform offset of tier 1, or the module address of the other tiers. -/
def State.frameAt (s : State) (h t f : Nat) : Nat :=
  let c := s.kvCfg h
  let b := (s.kvBase h t + f) * c.page
  if t = 1 then b else if t = 2 then reserveBase + b else farBase + b

/-- Bytes of a frame; those of the far tier come from what the heat's ATTEND has read, or from staged lines. -/
def State.frameGet (s : State) (h t f off n : Nat) : List Byte :=
  let a := s.frameAt h t f + off
  if t = 1 then s.uGet (s.kvCfg h).slices a n
  else if t = 2 then s.readMem a n
  else ((cut4k (n / 4096 + 2) (a - farBase) n).map fun p =>
    let data := match List.find? (fun (x : Nat × List Byte) => x.1 == p.1 / 4096) (Tab.get [] s.kv.far h) with
      | some x => x.2
      | none => match s.stageLine ((s.farAtt h).getD 0) (p.1 / 4096) with
        | some l => l.data
        | none => []
    ((data ++ List.replicate 4096 0).drop (p.1 % 4096)).take p.2).flatten

/-- Write bytes of a frame; those of the far tier leave as posted writes. -/
def State.framePut (s : State) (h t f off : Nat) (bs : List Byte) : State :=
  let a := s.frameAt h t f + off
  if t = 1 then s.uPut (s.kvCfg h).slices a bs
  else if t = 2 then s.memStore a bs
  else
    let att := (s.farAtt h).getD 0
    s.each (cut4k (bs.length / 4096 + 2) (a - farBase) bs.length) fun s p =>
      match s.fwEntry att (p.1 / 4096) with
      | some e =>
        s.send (.hostWrite att (e / p2 21 * p2 21 + p.1 % p2 21) ((bs.drop (p.1 - (a - farBase))).take p.2) false
          (bitsOf e 2 1 == 1))
      | none => s

/-- Errors that a read of a frame finds. -/
def State.frameFind (s : State) (h t f off n : Nat) : State × Nat :=
  let a := s.frameAt h t f + off
  if t = 1 then s.uFind (s.kvCfg h).slices a n
  else if t = 2 then (s.findErr a n, s.errClass a n)
  else (s, 0)

/-! ### The page frame table (Table 10-2) -/

/-- An entry of the page frame table. -/
structure Pft where
  tier : Nat
  pin : Bool
  moving : Bool
  dig : Bool
  refs : Nat
  frame : Nat
  touch : Nat
  pbase : Nat
  pmask : Nat
  fill : Nat
  deriving DecidableEq, Repr

def Pft.ofNat (x : Nat) : Pft :=
  { tier := bitsOf x 0 2, pin := bitsOf x 2 1 == 1, moving := bitsOf x 3 1 == 1, dig := bitsOf x 4 1 == 1,
    refs := bitsOf x 16 16, frame := bitsOf x 32 32, touch := bitsOf x 64 48, pbase := bitsOf x 112 8,
    pmask := bitsOf x 128 64, fill := bitsOf x 192 9 }

def Pft.toNat (p : Pft) : Nat :=
  p.tier % 4 + p.pin.toNat * 4 + p.moving.toNat * 8 + p.dig.toNat * 16 + p.refs % 65536 * p2 16 + p.frame % p2 32 * p2 32 +
    p.touch % p2 48 * p2 64 + p.pbase % 256 * p2 112 + p.pmask % p2 64 * p2 128 + p.fill % 512 * p2 192

def State.pft (s : State) (h p : Nat) : Pft :=
  Pft.ofNat (leNat (s.uGet (s.kvCfg h).slices (s.kvPft h + 32 * p) 32))

def State.putPft (s : State) (h p : Nat) (e : Pft) : State :=
  s.uPut (s.kvCfg h).slices (s.kvPft h + 32 * p) (leBytes e.toNat 32)

def State.modPft (s : State) (h p : Nat) (f : Pft → Pft) : State := s.putPft h p (f (s.pft h p))

/-- Pages of the bundle with base `e`. -/
def KvCfg.bundle (c : KvCfg) (e : Nat) : List Nat := (List.range (c.l * c.g)).map (e + ·)

/-- A free bundle: all of its pages in the table and of tier 0 (Table 10-4). -/
def State.freeBundle (s : State) (h e : Nat) : Bool :=
  let c := s.kvCfg h
  decide (e + c.l * c.g ≤ s.kvPages h) && (c.bundle e).all fun p => (s.pft h p).tier == 0

/-! ### Free frames (R415) -/

/-- Bytes of a tier's bitmap. -/
def bitmapLen (n : Nat) : Nat := (n + 63) / 64 * 8

/-- Uniform offset of a tier's bitmap: the three follow the table. -/
def State.bitmapAt (s : State) (h t : Nat) : Nat :=
  s.kvPft h + 32 * s.kvPages h +
    (if t = 1 then 0 else bitmapLen (s.kvFrames h 1) + (if t = 2 then 0 else bitmapLen (s.kvFrames h 2)))

/-- A tier's bitmap as a number: bit f set while frame f is free. -/
def State.bitmap (s : State) (h t : Nat) : Nat :=
  leNat (s.uGet (s.kvCfg h).slices (s.bitmapAt h t) (bitmapLen (s.kvFrames h t)))

/-- KV_H_FREE1 to KV_H_FREE3. -/
def freeFld (h t : Nat) : Fld :=
  if t = 1 then F.KV_H_FREE1_free h else if t = 2 then F.KV_H_FREE2_free h else F.KV_H_FREE3_free h

/-- Write a tier's bitmap, with its count of free frames. -/
def State.putBitmap (s : State) (h t v : Nat) : State :=
  let n := s.kvFrames h t
  let s := s.uPut (s.kvCfg h).slices (s.bitmapAt h t) (leBytes v (bitmapLen n))
  s.put (freeFld h t) ((List.range n).foldl (fun k f => k + v / p2 f % 2) 0)

/-- The lowest free frame of a tier. -/
def State.lowFrame (s : State) (h t : Nat) : Option Nat :=
  let v := s.bitmap h t
  (List.range (s.kvFrames h t)).find? fun f => v / p2 f % 2 == 1

def State.takeFrame (s : State) (h t f : Nat) : State := s.putBitmap h t (s.bitmap h t - p2 f)

def State.freeFrame (s : State) (h t f : Nat) : State := s.putBitmap h t (Nat.lor (s.bitmap h t) (p2 f))

/-- The bitmaps of a heat are rebuilt from its table, and it is ready (R415). -/
def State.kvRebuild (s : State) (h : Nat) : State :=
  let ps := (List.range (s.kvPages h)).map fun p => s.pft h p
  let s := s.each [1, 2, 3] fun s t =>
    let v := ps.foldl (fun v p => if p.tier = t && v / p2 p.frame % 2 = 1 then v - p2 p.frame else v) (p2 (s.kvFrames h t) - 1)
    if s.kvFrames h t = 0 then s.put (freeFld h t) 0 else s.putBitmap h t v
  (s.put (F.KV_H_STATUS_ready h) 1).put F.KV_STATUS_ready (Nat.lor (s.get F.KV_STATUS_ready) (p2 h))

/-- A frame for a page: the lowest free one of tier 1, else of the reserve, else of the far tier where it holds pages
(R425). -/
def State.anyFrame (s : State) (h : Nat) : Option (Nat × Nat) :=
  match s.lowFrame h 1, s.lowFrame h 2 with
  | some f, _ => some (1, f)
  | none, some f => some (2, f)
  | none, none => if s.getA (F.KV_H_CFG_far_en h) = 1 then (s.lowFrame h 3).map fun f => (3, f) else none

/-- A GROW or spill finds no frame, or finds one (KV_H_STATUS.full). -/
def State.kvFull (s : State) (h : Nat) (full : Bool) : State :=
  let s := s.putB (F.KV_H_STATUS_full h) full
  if full then s.flag F.KV_EVT_full else s

/-- Allocate a frame for each page; none where one finds no frame. -/
def State.allocPages (s : State) (h : Nat) : List Nat → Option State
  | [] => some s
  | p :: ps =>
    match s.anyFrame h with
    | none => none
    | some (t, f) => State.allocPages ((s.takeFrame h t f).modPft h p fun e =>
        { e with tier := t, frame := f, fill := 0, dig := false, pmask := 0, pbase := 0, moving := false, pin := false }) h ps

/-- Free every page of a bundle (R426). -/
def State.freePages (s : State) (h e : Nat) : State :=
  s.each ((s.kvCfg h).bundle e) fun s p =>
    let x := s.pft h p
    let s := if x.tier = 0 then s else s.freeFrame h x.tier x.frame
    s.putPft h p { x with tier := 0, dig := false, pmask := 0, fill := 0 }

/-- One sheet entry no longer names bundle `e`. -/
def State.dropRef (s : State) (h e : Nat) : State :=
  let x := s.pft h e
  let s := s.putPft h e { x with refs := x.refs - 1 }
  if x.refs ≤ 1 then s.freePages h e else s

/-! ### Layout (R460) -/

/-- Ranges given as first byte and length: any two meet. -/
def rangesMeet : List (Nat × Nat) → Bool
  | [] => false
  | r :: rs => (rs.any fun q => r.2 != 0 && q.2 != 0 && meets r.1 r.2 q.1 q.2) || rangesMeet rs

/-- The active layout leaves the heat's memory or overlaps itself. -/
def State.layoutBad (s : State) (h : Nat) : Bool :=
  let c := s.kvCfg h
  let region (t : Nat) : Nat × Nat := (s.kvBase h t * c.page, s.kvFrames h t * c.page)
  let maps := bitmapLen (s.kvFrames h 1) + bitmapLen (s.kvFrames h 2) + bitmapLen (s.kvFrames h 3)
  let pages := s.kvPages h
  let uni := [region 1, (s.kvPft h, 32 * pages + maps), (s.kvDig h, pages * 2 * c.d * c.e)]
  let view := c.slices.length * sliceSize
  let far := region 3
  uni.any (fun r => r.2 != 0 && decide (view < r.1 + r.2)) || rangesMeet uni ||
    !s.belongs h false (reserveBase + (region 2).1) (region 2).2 ||
    (far.2 != 0 && ((s.farAtt h).isNone || decide (farBase < far.1 + far.2)))

/-! ### Sheets (Tables 10-3 and 10-4) -/

/-- A sheet's header. -/
structure Sheet where
  ring : Bool
  spec : Bool
  nglob : Nat
  len : Nat
  plen : Nat
  w : Nat
  glob : Nat
  deriving DecidableEq, Repr

def State.sheet (s : State) (a : Nat) : Sheet :=
  let x := leNat (s.readMem a 28)
  { ring := bitsOf x 0 1 == 1, spec := bitsOf x 1 1 == 1, nglob := bitsOf x 8 8, len := bitsOf x 32 48,
    plen := bitsOf x 96 7, w := bitsOf x 128 16, glob := bitsOf x 160 48 }

def State.putSheet (s : State) (a : Nat) (x : Sheet) : State :=
  s.memStore a (leBytes (x.ring.toNat + x.spec.toNat * 2 + x.nglob % 256 * 256 + x.len % p2 48 * p2 32 +
    x.plen % 128 * p2 96 + x.w % 65536 * p2 128 + x.glob % p2 48 * p2 160) 28)

/-- Blocks that a sheet's tokens reach. -/
def Sheet.blocks (x : Sheet) : Nat := (x.len + x.plen + 255) / 256

/-- A sheet address: 64-byte aligned in the heat's tier 1 (R417). -/
def State.sheetOk (s : State) (h a n : Nat) : Bool :=
  a % 64 == 0 && s.rangeAll (fun u => match u with | .slice _ => s.unitOwner u == some h | _ => false) 600 a n

/-- Address of list block `n` of a sheet: the markers of the earlier ones lead to it (R393, R418). -/
def State.listBlock (s : State) (a : Nat) : Nat → Nat
  | 0 => a + 64
  | n + 1 => leNat (s.readMem (State.listBlock s a n + 4088) 8) % p2 48

/-- Address of the entry of block `b`; in ring mode entry b mod w. -/
def State.entryAt (s : State) (a : Nat) (x : Sheet) (b : Nat) : Nat :=
  let i := if x.ring then b % max 1 x.w else b
  if x.ring then a + 64 + 4 * i else s.listBlock a (i / 1021) + 4 * (i % 1021)

/-- Bundle base of block `b`, where it is present: in ring mode one of the `w` most recent blocks (R419). -/
def State.bundleOf (s : State) (a : Nat) (x : Sheet) (b : Nat) : Option Nat :=
  if x.blocks ≤ b || (x.ring && b + x.w < x.blocks) then none
  else
    let e := leNat (s.readMem (s.entryAt a x b) 4)
    if e = 0xFFFFFFFE || e = 0xFFFFFFFF then none else some e

/-- A fresh list block: entries not present, its marker, and no next block (log entry 42). -/
def freshBlock : List Byte :=
  ((List.replicate 1021 (leBytes 0xFFFFFFFE 4)).flatten) ++ leBytes 0xFFFFFFFF 4 ++ List.replicate 8 0

/-! ### Digests (R435, R436) -/

/-- The larger or smaller of two elements of format kvfmt, NaN propagating (R312). -/
def kvPick (e : Nat) (up : Bool) (a b : Nat) : Nat :=
  let op := if up then maxV else minV
  if e = 4 then (fast2 false op (BitVec.ofNat 32 a) (BitVec.ofNat 32 b)).1.toNat
  else
    let v := op (f16 a) (f16 b)
    if v.isNan then 0x7E00 else fmt16.rnd v

/-- Elements of a byte string. -/
def kvElems (e : Nat) (bs : List Byte) (n : Nat) : List Nat := (List.range n).map fun i => leNat ((bs.drop (e * i)).take e)

/-- Fold one slot's K into the digest of page `p`. -/
def State.foldDigest (s : State) (h p slot : Nat) : State :=
  let c := s.kvCfg h
  let x := s.pft h p
  let k := kvElems c.e (s.frameGet h x.tier x.frame (slot * c.slot) c.slot) c.d
  let at_ := s.kvDig h + p * 2 * c.slot
  let old := kvElems c.e (s.uGet c.slices at_ (2 * c.slot)) (2 * c.d)
  let mx := if x.dig then List.zipWith (kvPick c.e true) old k else k
  let mn := if x.dig then List.zipWith (kvPick c.e false) (old.drop c.d) k else k
  let s := s.uPut c.slices at_ (((mx ++ mn).map fun v => leBytes v c.e).flatten)
  s.modPft h p fun x => { x with dig := true }

/-- Commit `n` slots of page `p` from slot `i` on: the digest is folded before fill is written. -/
def State.commitSlots (s : State) (h p i n : Nat) : State :=
  let s := s.each ((List.range n).map (i + ·)) fun s j => s.foldDigest h p j
  s.modPft h p fun x => { x with fill := min 256 (max x.fill (i + n)) }

/-- Positions `from_` to `from_ + n - 1` by block: block, first slot, count. -/
def byBlock (from_ n : Nat) : List (Nat × Nat × Nat) :=
  if n = 0 then []
  else
    (List.range ((from_ + n - 1) / 256 - from_ / 256 + 1)).map fun j =>
      let b := from_ / 256 + j
      let lo := max from_ (256 * b)
      (b, lo % 256, min (from_ + n) (256 * (b + 1)) - lo)

/-! ### Keeper commands (R422 to R427, R444) -/

namespace KD

def w (d : List Word) (i : Nat) : Nat := (d.getD i 0).toNat
def addr (d : List Word) (i : Nat) : Nat := w d i + w d (i + 1) % 65536 * p2 32

end KD

/-- COMMIT: the accepted path: slots relative to len, or none where the descriptor's path breaks R444. tpar zero names a
chain (log entry 42). -/
def State.commitPath (s : State) (k : Nat) (d : List Word) : Option (List Nat) :=
  let a := bitsOf (KD.w d 3) 0 7
  let path := bitsOf (KD.w d 4) 0 16 * 16
  let tpar := bitsOf (KD.w d 4) 16 16 * 16
  if tpar = 0 then some (List.range a)
  else if !spIn path (max 1 a) || !spIn tpar 64 then none
  else
    let ps : List Nat := (s.spGet k path a).map (·.toNat)
    let ok := (List.range a).all fun j =>
      let p : Nat := ps.getD j 0
      if j = 0 then p == 0
      else decide (p < 64) && (s.spGet k (tpar + p) 1).headD 0 == BitVec.ofNat 8 (ps.getD (j - 1) 0) && decide (ps.getD (j - 1) 0 < p)
    if ok then some ps else none

/-- COMMIT (R444): the state, or a status. -/
def State.kvCommit (s : State) (h k : Nat) (d : List Word) : State × Nat :=
  let sh := KD.addr d 1
  let x := s.sheet sh
  let a := bitsOf (KD.w d 3) 0 7
  match s.commitPath k d with
  | none => (s, 5)
  | some ps =>
    if !s.sheetOk h sh 64 || !x.spec || x.plen < a then (s, 5)
    else
      let c := s.kvCfg h
      let pages (b : Nat) : List Nat := match s.bundleOf sh x b with | some e => c.bundle e | none => []
      let s := s.each (List.range a) fun s j =>
        let p := x.len + ps.getD j 0
        let q := x.len + j
        if p = q then s
        else s.each (List.zip (pages (p / 256)) (pages (q / 256))) fun s m =>
          let src := s.pft h m.1
          let dst := s.pft h m.2
          s.each [0, 256 * c.slot] fun s v =>
            s.framePut h dst.tier dst.frame (v + q % 256 * c.slot)
              (s.frameGet h src.tier src.frame (v + p % 256 * c.slot) c.slot)
      let s := s.each (byBlock x.len a) fun s b => s.each (pages b.1) fun s p => s.commitSlots h p b.2.1 b.2.2
      let s := s.each (byBlock x.len x.plen) fun s b => s.each (pages b.1) fun s p => s.modPft h p fun e => { e with pmask := 0 }
      (s.putSheet sh { x with len := x.len + a, plen := 0, spec := false }, 0)

/-- Set the entry of block `b` of a sheet, taking a fresh list block at `pool` where the entry is the first of one. -/
def State.setEntry (s : State) (a : Nat) (x : Sheet) (b e pool : Nat) : State :=
  let s :=
    if x.ring || b % 1021 ≠ 0 || b = 0 then s
    else (s.memStore (s.listBlock a (b / 1021 - 1) + 4084) (leBytes (0xFFFFFFFF + pool % p2 48 * p2 32) 12)).memStore pool freshBlock
  s.memStore (s.entryAt a x b) (leBytes e 4)

/-- FORK (R423, R424). -/
def State.kvFork (s : State) (h : Nat) (d : List Word) : State × Nat :=
  let c := s.kvCfg h
  let sh := KD.addr d 1
  let e := KD.w d 3
  let child := KD.addr d 5
  let n := KD.addr d 7
  let pool := KD.addr d 9
  let x := s.sheet sh
  let nb := n / 256
  let full := (List.range nb).filterMap fun b => (s.bundleOf sh x b).map fun p => (b, p)
  let lists := if x.ring then 0 else ((n + 255) / 256 - 1) / 1021
  let tail := n % 256 ≠ 0
  if !s.sheetOk h sh 64 || !s.sheetOk h child (64 + 4096) || !s.sheetOk h pool (4096 * lists) || x.len < n ||
      (full.any fun p => (s.pft h p.2).refs == 65535) ||
      (tail && (!s.freeBundle h e || (s.bundleOf sh x nb).isNone)) then (s, 5)
  else
    match (if tail then s.allocPages h (c.bundle e) else some s) with
    | none => (s.kvFull h true, 4)
    | some s =>
      let y : Sheet := { x with len := n, plen := 0, spec := false }
      let s := (s.memStore child (List.replicate 64 0)).putSheet child y
      let s := s.memStore (child + 64) freshBlock
      let s := s.each full fun s p =>
        (s.setEntry child y p.1 p.2 (pool + 4096 * (p.1 / 1021 - 1))).modPft h p.2 fun t => { t with refs := t.refs + 1 }
      if !tail then (s, 0)
      else
        let s := (s.setEntry child y nb e (pool + 4096 * (nb / 1021 - 1))).modPft h e fun t => { t with refs := 1 }
        match s.bundleOf sh x nb with
        | none => (s, 5)
        | some p0 =>
          let s := s.each (List.zip (c.bundle p0) (c.bundle e)) fun s m =>
            let src := s.pft h m.1
            let dst := s.pft h m.2
            let s := s.each [0, 256 * c.slot] fun s v =>
              s.framePut h dst.tier dst.frame v (s.frameGet h src.tier src.frame v (n % 256 * c.slot))
            s.commitSlots h m.2 0 (n % 256)
          (s, 0)

/-- Every bundle that a sheet names, in block order. -/
def State.sheetBundles (s : State) (a : Nat) (x : Sheet) : List Nat :=
  (List.range x.blocks).filterMap fun b => s.bundleOf a x b

/-- RELEASE (R426). -/
def State.kvRelease (s : State) (h : Nat) (d : List Word) : State × Nat :=
  let sh := KD.addr d 1
  if !s.sheetOk h sh 64 then (s, 5)
  else (s.each (s.sheetBundles sh (s.sheet sh)) fun s e => s.dropRef h e, 0)

/-- PIN (R427). -/
def State.kvPin (s : State) (h : Nat) (d : List Word) : State × Nat :=
  let sh := KD.addr d 1
  let b := KD.w d 5 + KD.w d 6 % 256 * p2 32
  let x := s.sheet sh
  match (if s.sheetOk h sh 64 then s.bundleOf sh x b else none) with
  | none => (s, 5)
  | some e => (s.each ((s.kvCfg h).bundle e) fun s p => s.modPft h p fun t => { t with pin := bitsOf (KD.w d 3) 0 1 == 1 }, 0)

/-- The block that a GROW appends: in ring mode the one after the last token's, else the first from there that no entry
names (DEDUCED, log entry 42). -/
def State.growBlock (s : State) (a : Nat) (x : Sheet) : Nat :=
  if x.ring then x.blocks
  else
    ((List.range 1021).map (x.blocks + ·)).find? (fun b =>
      b % 1021 == 0 && b != 0 || leNat (s.readMem (s.entryAt a x b) 4) == 0xFFFFFFFE) |>.getD x.blocks

/-- GROW (R425). -/
def State.kvGrow (s : State) (h : Nat) (d : List Word) : State × Nat :=
  let c := s.kvCfg h
  let sh := KD.addr d 1
  let e := KD.w d 3
  let pool := KD.addr d 5
  let x := s.sheet sh
  if !s.sheetOk h sh 64 || !s.freeBundle h e then (s, 5)
  else
    let b := s.growBlock sh x
    let fresh := !x.ring && b % 1021 == 0 && b != 0
    if fresh && !s.sheetOk h pool 4096 then (s, 5)
    else
      match s.allocPages h (c.bundle e) with
      | none => (s.kvFull h true, 4)
      | some s =>
        let old := if x.ring && x.w ≤ b then
            (let v := leNat (s.readMem (s.entryAt sh x b) 4)
             if v = 0xFFFFFFFE then none else some v) else none
        let s := (s.setEntry sh x b e pool).modPft h e fun t => { t with refs := 1 }
        let s := match old with | some v => s.dropRef h v | none => s
        (s.kvFull h false, 0)

/-- A keeper command: kinds 1 to 5, on heat rank 0 only; kinds 6 and 7 are reserved (R422, Table 10-4). -/
def State.keeperCmd (s : State) (h k kind : Nat) (d : List Word) : State × Nat :=
  if s.rankOf k ≠ some 0 || KD.w d 0 / 8 ≠ 0 then (s, 5)
  else
    match kind with
    | 1 => s.kvCommit h k d
    | 2 => s.kvFork h d
    | 3 => s.kvRelease h d
    | 4 => s.kvPin h d
    | 5 => s.kvGrow h d
    | _ => (s, 5)

/-! ### Far units that the heat reads -/

/-- What becomes of the far units that an ATTEND or a keeper move needs: all read, some still to come, one failed. -/
inductive StageEnd where
  | here | waits | fails
  deriving DecidableEq, Repr

/-- A stage line is free again. -/
def State.freeLine (s : State) (att u : Nat) : State :=
  { s with mem := { s.mem with stage := s.mem.stage.filter fun x => x.att != att || x.unit != u } }

/-- The far units that an ATTEND or a keeper move of heat `h` needs (R373, R452): a staged one is read, which frees its
line; one that is not staged is asked for as far as lines are free. -/
def State.attendStage (s : State) (h k att : Nat) : List Nat → State × StageEnd
  | [] => (s, .here)
  | u :: us =>
    let have_ := Tab.get [] s.kv.far h
    if have_.any fun x => x.1 == u then State.attendStage s h k att us
    else
      let s := s.stageReq att k u false
      match s.stageLine att u with
      | none => (s, .waits)
      | some l =>
        if l.fail ≠ 0 then (s.freeLine att u, .fails)
        else if l.staged then
          State.attendStage { s.freeLine att u with kv := { s.kv with far := Tab.put h (have_ ++ [(u, l.data)]) s.kv.far } } h k att us
        else ((State.attendStage s h k att us).1, if (State.attendStage s h k att us).2 = .fails then .fails else .waits)

/-- Far units of a page in frame `f` of the far tier. -/
def State.farUnits (s : State) (h f : Nat) : List Nat :=
  let a := s.frameAt h 3 f - farBase
  (List.range ((s.kvCfg h).page / 4096)).map fun i => a / 4096 + i

/-! ### Moves between tiers (R428 to R432) -/

def State.kvMoves (s : State) (h j : Nat) : List KvMove := Tab.get [] s.kv.moves (h * 64 + j)
def State.setMoves (s : State) (h j : Nat) (l : List KvMove) : State :=
  { s with kv := { s.kv with moves := Tab.put (h * 64 + j) l s.kv.moves } }

/-- Every move of a heat that has not ended. -/
def State.allMoves (s : State) (h : Nat) : List KvMove :=
  (s.kv.moves.filter fun e => e.1 / 64 == h).flatMap (·.2)

/-- Step 1 of the next move of keeper `j`: marked moving, then abandoned where the page has been touched (R432). The
move of a page that has been freed since is dropped. -/
def State.beginMove (s : State) (h j : Nat) : Nat → State
  | 0 => s
  | n + 1 =>
    match s.kvMoves h j with
    | [] => s
    | m :: rest =>
      if m.begun then s
      else
        let x := s.pft h m.page
        if x.tier = 0 || x.moving then State.beginMove ((s.freeFrame h m.tier m.frame).setMoves h j rest) h j n
        else if x.touch + s.getA (F.KV_H_COOL_cool h) ≤ s.lapN then
          (s.putPft h m.page { x with moving := true }).setMoves h j ({ m with begun := true } :: rest)
        else
          let s := (s.freeFrame h m.tier m.frame).setMoves h j rest
          State.beginMove ((s.bump (F.KV_H_CNT_ABANDON_count h)).flag F.KV_EVT_abandon) h j n

/-- Insert by a key, rising, keeping the order of equals. -/
def insertBy (key : Nat → Nat × Nat) (x : Nat) : List Nat → List Nat
  | [] => [x]
  | y :: t => if pairLt' (key x) (key y) then x :: y :: t else y :: insertBy key x t
where
  pairLt' (a b : Nat × Nat) : Bool := decide (a.1 < b.1) || (a.1 == b.1 && decide (a.2 < b.2))

/-- Pages of a tier that a test admits, in the order of a key. -/
def State.pagesBy (s : State) (h : Nat) (p : Pft → Bool) (key : Nat → Pft → Nat × Nat) : List Nat :=
  (((List.range (s.kvPages h)).filter fun i => p (s.pft h i))).foldl (fun l i => insertBy (fun j => key j (s.pft h j)) i l) []

/-- Queue moves of pages to a tier, page j of the list on keeper j mod (keep_m1 + 1), until one finds no frame. -/
def State.queueMoves (s : State) (h tier : Nat) : Nat → List Nat → State
  | _, [] => s
  | j, p :: ps =>
    match s.lowFrame h tier with
    | none => s.kvFull h true
    | some f =>
      let kp := j % (s.getA (F.KV_H_CFG_keep_m1 h) + 1)
      let s := (s.takeFrame h tier f).setMoves h kp (s.kvMoves h kp ++ [⟨p, tier, f, false⟩])
      State.queueMoves s h tier (j + 1) ps

/-- Spill from tier `t` to the next: pages of least touch, as many as bring free frames to the high mark, moves in progress
counted as freed (R429, R430). -/
def State.spill (s : State) (h t low high : Nat) : State × Nat :=
  let moving := (s.allMoves h).filter fun m => (s.pft h m.page).tier == t
  let free := s.get (freeFld h t) + moving.length
  if low ≤ free then (s, 0)
  else
    let ps := s.pagesBy h (fun x => x.tier == t && !x.pin && !x.moving && x.pmask == 0 &&
      decide (x.touch + s.getA (F.KV_H_COOL_cool h) ≤ s.lapN)) (fun i x => (x.touch, i))
    let ps := (ps.filter fun p => !(s.allMoves h).any fun m => m.page == p).take (high - free)
    ((if ps.isEmpty then s else (s.kvFull h false)).queueMoves h (t + 1) 0 ps, ps.length)

/-- Promote up to 64 pages: pinned ones first, from the reserve or the far tier (R427), then those of the reserve by falling
touch (R431). -/
def State.promote (s : State) (h : Nat) : State :=
  let th := s.getA (F.KV_H_COOL_promote h) * 64
  let free := s.get (freeFld h 1)
  if th = 0 || free ≤ th then s
  else
    let ps := s.pagesBy h (fun x => (x.tier == 2 || (x.pin && x.tier == 3)) && !x.moving) (fun i x =>
      (if x.pin then 0 else p2 48 - x.touch, i))
    let ps := (ps.filter fun p => !(s.allMoves h).any fun m => m.page == p).take (min 64 (free - th))
    s.queueMoves h 1 0 ps

/-- KEEPER_CHECK (R429, R431): at stride 0 of a lap, in a heat that runs and whose bitmaps are ready. -/
def execKeeperCheck (h : HeatId) (s : State) : Res :=
  let i := h.toNat
  if !heatLive (s.heatSt i) || !s.on (F.KV_H_STATUS_ready i) || s.stride ≠ 0 then .next s
  else
    let w (f : Fld) (k : Nat) : Nat := s.getA f * k
    let (s1, n) := s.spill i 1 (w (F.KV_H_WATER_low1 i) 64) (w (F.KV_H_WATER_high1 i) 64)
    let s2 := if s.getA (F.KV_H_CFG_far_en i) = 1 then
        (s1.spill i 2 (w (F.KV_H_WATER_low2 i) 4096) (w (F.KV_H_WATER_high2 i) 4096)).1 else s1
    let s3 := if n = 0 then s2.promote i else s2
    let s4 := s3.each (List.range (s.getA (F.KV_H_CFG_keep_m1 i) + 1)) fun s j => s.beginMove i j ((s.kvMoves i j).length + 1)
    .next (s4.putB (F.KV_H_STATUS_spilling i) (!(s4.allMoves i).isEmpty))

/-- The page of move `m`, which stands at `x`, is copied; its entry is rewritten and its old frame freed (R432). A page that
cannot be read stays where it is; the target frame of a page freed meanwhile is freed. -/
def State.copyMove (s : State) (h : Nat) (m : KvMove) (x : Pft) (failed : Bool) : State :=
  let n := (s.kvCfg h).page
  if x.tier = 0 || !x.moving then s.freeFrame h m.tier m.frame
  else
    let (s, cls) := s.frameFind h x.tier x.frame 0 n
    if failed || cls ≠ 0 then (s.freeFrame h m.tier m.frame).putPft h m.page { x with moving := false }
    else
      let s := s.framePut h m.tier m.frame 0 (s.frameGet h x.tier x.frame 0 n)
      let s := s.putPft h m.page { x with tier := m.tier, frame := m.frame, moving := false }
      let s := s.freeFrame h x.tier x.frame
      if x.tier < m.tier then (s.bump (F.KV_H_CNT_SPILL_count h)).flag F.KV_EVT_spill else s

/-- The move in progress of a keeper ends, and the next begins. One from the far tier waits until its units are staged. -/
def State.endMove (s : State) (h j : Nat) : State :=
  match s.kvMoves h j with
  | [] => s
  | m :: rest =>
    if !m.begun then s.beginMove h j (rest.length + 2)
    else
      let x := s.pft h m.page
      let us := if x.tier = 3 && x.moving then s.farUnits h x.frame else []
      let (s, e) := s.attendStage h ((s.heatCores h).headD 0) ((s.farAtt h).getD 0) us
      if e = .waits then s
      else
        let s := s.copyMove h m x (e == .fails)
        let left := (Tab.get [] s.kv.far h).filter fun u => !us.contains u.1
        let s := if us.isEmpty then s else { s with kv := { s.kv with far := Tab.put h left s.kv.far } }
        let s := (s.setMoves h j rest).beginMove h j (rest.length + 1)
        s.putB (F.KV_H_STATUS_spilling h) (!(s.allMoves h).isEmpty)

/-- KEEPER_MOVE_COPY_DONE (R432). -/
def execKeeperMoveCopyDone (h : HeatId) (j : BitVec 6) (s : State) : Res := .next (s.endMove h.toNat j.toNat)

end Sys2Proof.Machine
end

