-- ==== Sys2Proof/Machine/Attend.lean ====
section
/-! DEFINITION. ATTEND and the keeper commands as instructions: descriptors, page selection, the arithmetic of R453 and
completion (R437 to R458). The ranks' work is done when the last of them has issued (log entry 43). -/

namespace Sys2Proof.Machine

/-! ### The descriptor (Table 10-5) -/

namespace AD

def w (d : List Word) (i : Nat) : Nat := (d.getD i 0).toNat
def kind (d : List Word) : Nat := bitsOf (w d 0) 0 3
def append (d : List Word) : Bool := bitsOf (w d 0) 3 1 == 1
def spec (d : List Word) : Bool := bitsOf (w d 0) 4 1 == 1
def tree (d : List Word) : Bool := bitsOf (w d 0) 5 1 == 1
def retr (d : List Word) : Bool := bitsOf (w d 0) 6 1 == 1
def prov (d : List Word) : Bool := bitsOf (w d 0) 7 1 == 1
def pf (d : List Word) : Nat := bitsOf (w d 0) 8 3
def ofmt (d : List Word) : Nat := bitsOf (w d 0) 11 1
def agmask (d : List Word) : Nat := bitsOf (w d 0) 12 8
def flight (d : List Word) : Nat := bitsOf (w d 0) 20 4
def layer (d : List Word) : Nat := bitsOf (w d 1) 0 16
def hq (d : List Word) : Nat := bitsOf (w d 1) 16 7
def nseq (d : List Word) : Nat := bitsOf (w d 2) 0 5
def nq (d : List Word) : Nat := bitsOf (w d 2) 5 7
def ptop (d : List Word) : Nat := bitsOf (w d 2) 12 8
def wloc (d : List Word) : Nat := bitsOf (w d 2) 20 8
def sscale (d : List Word) : Word := d.getD 3 0
def qbuf (d : List Word) : Nat := bitsOf (w d 4) 0 16 * 16
def obuf (d : List Word) : Nat := bitsOf (w d 4) 16 16 * 16
def kvnew (d : List Word) : Nat := bitsOf (w d 5) 0 16 * 16
def wbuf (d : List Word) : Nat := bitsOf (w d 5) 16 16 * 16
def wlen (d : List Word) : Nat := bitsOf (w d 6) 0 16 * 64
def ftab (d : List Word) : Nat := bitsOf (w d 6) 16 16 * 16
def tpar (d : List Word) : Nat := bitsOf (w d 7) 0 16 * 16
def gmax (d : List Word) : Nat := bitsOf (w d 7) 16 7
def oroot (d : List Word) : Nat := bitsOf (w d 8) 0 21
def sbuf (d : List Word) : Nat := w d 10 + w d 11 % 65536 * p2 32
def rows (d : List Word) : Nat := nq d * hq d

/-- A reserved field is not zero, or a field holds a reserved encoding. -/
def reserved (d : List Word) : Bool :=
  w d 0 / p2 24 != 0 || w d 1 / p2 23 != 0 || w d 2 / p2 28 != 0 || w d 7 / p2 23 != 0 || w d 8 / p2 21 != 0 ||
    bitsOf (w d 9) 11 5 != 0 || w d 11 / p2 16 != 0 || ([12, 13, 14, 15].any fun i => w d i != 0) ||
    pf d == 0 || decide (4 < pf d)

/-- The fields that every rank's descriptor shares (R450). -/
def shared (d : List Word) : List Nat := [w d 0, w d 1, w d 2, w d 3, gmax d, w d 8, w d 9, w d 10, w d 11]

end AD

/-- Heat logical rank that roots a sequence and group (R447). -/
def rootOf (d : List Word) (g n sq gr : Nat) : Nat := (AD.oroot d + sq * g + gr) % n

/-- The (sequence, group) pairs that rank `rk` roots, in order. -/
def rootedBy (d : List Word) (g n rk : Nat) : List (Nat × Nat) :=
  ((List.range (AD.nseq d)).flatMap fun sq => (List.range g).map fun gr => (sq, gr)).filter fun p =>
    rootOf d g n p.1 p.2 == rk

/-- Bytes of one rooted output: header and rows. -/
def outLen (c : KvCfg) (d : List Word) : Nat := 16 + AD.rows d * c.d * (if AD.ofmt d = 1 then 2 else 4)

/-- Sheet addresses of the flight table of core `k`. -/
def State.flightTab (s : State) (k : Nat) (d : List Word) : List Nat :=
  (List.range (AD.nseq d)).map fun i => s.spRead k (AD.ftab d + 8 * i) 8 % p2 48

/-- The sheet after the append (R441). -/
def appended (d : List Word) (x : Sheet) : Sheet :=
  if !AD.append d then x
  else if AD.spec d then { x with plen := AD.nq d, spec := true } else { x with len := x.len + AD.nq d }

/-- The flight of a length in blocks (R440). -/
def inFlight (f blocks : Nat) : Bool :=
  if f = 0 then decide (blocks ≤ 1) else decide (p2 (f - 1) < blocks) && decide (blocks ≤ p2 f)

/-- R449 for a sheet: addressed in tier 1, of the flight, with no open candidates where it is appended to, its global list
in bounds, and every block that the append writes present (log entry 43). -/
def State.attSheetOk (s : State) (h : Nat) (d : List Word) (a : Nat) : Bool :=
  let x := s.sheet a
  let y := appended d x
  s.sheetOk h a 64 && inFlight (AD.flight d) y.blocks && (!AD.append d || (x.plen == 0 && !x.spec)) &&
    decide (x.nglob ≤ AD.gmax d) &&
    (!AD.append d || (byBlock x.len (AD.nq d)).all fun b => (s.bundleOf a y b.1).isSome)

/-- Ranks of a heat: rank and core, rising. -/
def State.ranks (s : State) (h : Nat) : List (Nat × Nat) :=
  let rs := (s.heatCores h).filterMap fun k => (s.rankOf k).map fun r => (r, k)
  (List.range rs.length).filterMap fun r => rs.find? fun p => p.1 == r

/-- R449: the descriptor of a kind 0 ATTEND that core `k` issues is in error. -/
def State.attendBad (s : State) (h k : Nat) (d : List Word) : Bool :=
  let c := s.kvCfg h
  let n := max 1 (s.ranks h).length
  let rk := (s.rankOf k).getD 0
  let ags := (List.range 8).filter fun i => bitsOf (AD.agmask d) i 1 == 1
  let u := (AD.nseq d * c.g * (AD.wloc d + AD.gmax d + AD.ptop d) * 8 + n - 1) / n
  let need := (AD.pf d + 1) * min 8 u * 64 * c.slot + u * AD.rows d * 128 + ags.length * 40960
  let mine := (rootedBy d c.g n rk).length
  (s.rankOf k).isNone || AD.reserved d || decide (ags.length < 2) || decide (c.l ≤ AD.layer d) ||
    AD.hq d == 0 || decide (64 < AD.hq d) || AD.nseq d == 0 || decide (16 < AD.nseq d) || AD.nq d == 0 ||
    decide (64 < AD.nq d) || AD.wloc d == 0 || decide (512 < AD.rows d) || decide (64 < AD.gmax d) ||
    (AD.spec d && !AD.append d) || (AD.tree d && !AD.spec d) || (AD.spec d && !AD.tree d && decide (17 < AD.nq d)) ||
    (ags.any fun i => (Tab.find (s.core k).ag i).isSome) || decide (AD.wlen d < need) ||
    !spIn (AD.qbuf d) (AD.nseq d * c.g * AD.rows d * c.slot) || !spIn (AD.wbuf d) (AD.wlen d) ||
    !spIn (AD.ftab d) (8 * AD.nseq d) || (AD.tree d && !spIn (AD.tpar d) (AD.nq d)) ||
    (AD.append d && mine != 0 && !spIn (AD.kvnew d) (mine * 2 * AD.nq d * c.slot)) ||
    (mine != 0 && !spIn (AD.obuf d) (mine * outLen c d)) || s.on (F.KV_H_STATUS_layout_bad h) ||
    (AD.prov d && s.getA (F.HAL_H_CFG_prov_en h) != 1) ||
    !(s.flightTab k d).all fun a => s.attSheetOk h d a

/-! ### Issue -/

/-- Core `k` reads a tagged line for an ATTEND (R266): its descriptor, Q, the flight table, the tree's parents, or the new K
and V of the pairs that it roots. -/
def State.attendTagged (s : State) (k off : Nat) (d : List Word) : Bool :=
  let c := s.core k
  let h := (s.coreOwner k).getD 0
  let cfg := s.kvCfg h
  let mine := (rootedBy d cfg.g (max 1 (s.ranks h).length) ((s.rankOf k).getD 0)).length
  c.tagRange off 64 || (AD.kind d == 0 &&
    (c.tagRange (AD.qbuf d) (AD.nseq d * cfg.g * AD.rows d * cfg.slot) || c.tagRange (AD.ftab d) (8 * AD.nseq d) ||
      (AD.tree d && c.tagRange (AD.tpar d) (AD.nq d)) ||
      (AD.append d && c.tagRange (AD.kvnew d) (mine * 2 * AD.nq d * cfg.slot))))

/-- ATTEND of any kind: the identifier is taken and the core's issue waits until it completes. A keeper command is
executed at once. -/
def State.attendIssue (s : State) (k : CoreId) (g : BitVec 3) (ta : BitVec 4) : State :=
  s.issue k g (matWord 8 g 0 ta 0 0 0) fun s gt =>
    let i := k.toNat
    let c := s.core i
    let h := (s.coreOwner i).getD 0
    let off := TD.base (c.tv ta)
    if !spIn off 64 then .trap 3
    else if off % 64 ≠ 0 then .trap 4
    else if !c.opFree || c.attend.isSome then .stall
    else
      let s := s.spFind i off 64
      let d := s.dmaDesc i off
      let kind := AD.kind d
      let tag := gt || s.attendTagged i off d
      let op (ready : Bool) (status : Nat) : AttendOp :=
        { op := c.opNext, desc := off, words := d, start := s.now, ready := ready, status := status, units := 0, heads := [], tag := tag }
      let put (s : State) (o : AttendOp) : State := s.modCore i fun c => { c.takeOp with attend := some o }
      if kind ≠ 0 then
        if !s.on (F.KV_H_STATUS_ready h) then .stall
        else
          let (s, st) := s.keeperCmd h i kind d
          .done (put s (op true st))
      else
        if s.attendBad h i d then .done (put s (op true 5))
        else if tag && !s.inQuar i (AD.obuf d) ((rootedBy d (s.kvCfg h).g (max 1 (s.ranks h).length) ((s.rankOf i).getD 0)).length *
            outLen (s.kvCfg h) d) then .trap 8
        else .done (put s (op false 0))

/-- ATTEND (R446, R453, R457). -/
def execAttend (k : CoreId) (g : BitVec 3) (ta : BitVec 4) (s : State) : Res := .next (s.attendIssue k g ta)
/-- COMMIT: an ATTEND whose descriptor has kind 1 (R422, R444). -/
def execKeeperCommit (k : CoreId) (g : BitVec 3) (ta : BitVec 4) (s : State) : Res := .next (s.attendIssue k g ta)
/-- FORK: kind 2 (R422, R423). -/
def execKeeperFork (k : CoreId) (g : BitVec 3) (ta : BitVec 4) (s : State) : Res := .next (s.attendIssue k g ta)
/-- RELEASE: kind 3 (R422, R426). -/
def execKeeperRelease (k : CoreId) (g : BitVec 3) (ta : BitVec 4) (s : State) : Res := .next (s.attendIssue k g ta)
/-- PIN: kind 4 (R422, R427). -/
def execPinPage (k : CoreId) (g : BitVec 3) (ta : BitVec 4) (s : State) : Res := .next (s.attendIssue k g ta)
/-- GROW: kind 5 (R422, R425). -/
def execKeeperGrow (k : CoreId) (g : BitVec 3) (ta : BitVec 4) (s : State) : Res := .next (s.attendIssue k g ta)

/-! ### Page selection (R437 to R439) -/

/-- A fold of fast-path lanes with its events. -/
def fastFold (f : Word → Word → Word × NumEv) (init : Word × NumEv) (l : List Word) : Word × NumEv :=
  l.foldl (fun a w => let r := f a.1 w; (r.1, a.2.join r.2)) init

/-- An element of kvfmt as binary32, exactly. -/
def kvWord (e x : Nat) : Word := if e = 4 then BitVec.ofNat 32 x else toF32 (f16 x)

/-- Q of a sequence and group as rows of element codes. -/
def State.attQ (s : State) (k : Nat) (c : KvCfg) (d : List Word) (sq gr : Nat) : List (List Nat) :=
  let base := AD.qbuf d + (sq * c.g + gr) * AD.rows d * c.slot
  (List.range (AD.rows d)).map fun r => kvElems c.e (s.spGet k (base + r * c.slot) c.slot) c.d

/-- Page of a block, layer and group. -/
def State.attPage (s : State) (c : KvCfg) (d : List Word) (a : Nat) (x : Sheet) (b gr : Nat) : Option Nat :=
  (s.bundleOf a x b).map fun e => e + AD.layer d * c.g + gr

/-- The bound of a page for rows of one sequence and group, on core `k` (R437): none is minus infinity (dig = 0). -/
def State.attBound (s : State) (h k : Nat) (c : KvCfg) (q : List (List Nat)) (p : Nat) : Word × NumEv :=
  let z := s.ftz k
  if !(s.pft h p).dig then (ninf32, NumEv.none)
  else
    let dg := kvElems c.e (s.uGet c.slices (s.kvDig h + p * 2 * c.slot) (2 * c.slot)) (2 * c.d)
    let col (i : Nat) : List Word := q.map fun r => kvWord c.e (r.getD i 0)
    let pick (op : FV → FV → FV) (l : List Word) : Word × NumEv := fastFold (fast2 z op) (l.headD 0, NumEv.none) (l.drop 1)
    let t (i : Nat) : Word × NumEv :=
      let mx := pick maxV (col i)
      let mn := pick minV (col i)
      let kx := kvWord c.e (dg.getD i 0)
      let kn := kvWord c.e (dg.getD (c.d + i) 0)
      let ps := [fast2 z FV.mul mx.1 kx, fast2 z FV.mul mx.1 kn, fast2 z FV.mul mn.1 kx, fast2 z FV.mul mn.1 kn]
      let r := pick maxV (ps.map (·.1))
      (r.1, NumEv.all ([mx.2, mn.2, r.2] ++ ps.map (·.2)))
    let ts := (List.range c.d).map t
    let sum2 (x y : Word × NumEv) : Word × NumEv :=
      let r := fast2 z FV.add x.1 y.1
      (r.1, (x.2.join y.2).join r.2)
    let bs := (List.range (c.d / 64)).map fun j => (pairTree sum2 6 ((ts.drop (64 * j)).take 64)).headD (0, NumEv.none)
    match bs with
    | [] => (0, NumEv.none)
    | b :: rest => rest.foldl sum2 b

/-- A bound ranks above another: higher, then of the lower block; a NaN below minus infinity (R438). -/
def boundAbove (a b : Word × Nat) : Bool :=
  let x := f32 a.1
  let y := f32 b.1
  if x.isNan then y.isNan && decide (a.2 < b.2)
  else if y.isNan then true
  else FV.lt y x || (FV.eqv x y && decide (a.2 < b.2))

def insertBound (x : Word × Nat) : List (Word × Nat) → List (Word × Nat)
  | [] => [x]
  | y :: t => if boundAbove x y then x :: y :: t else y :: insertBound x t

/-- The local window and the present global blocks of a sheet. -/
def State.attFixed (s : State) (d : List Word) (a : Nat) (x : Sheet) : List Nat :=
  let bn := x.blocks - 1
  let loc := if x.blocks = 0 then [] else (List.range x.blocks).filter fun b => decide (bn < b + AD.wloc d)
  let glob := (List.range x.nglob).map fun i => leNat (s.readMem (x.glob + 8 * i) 5)
  ((List.range x.blocks).filter fun b => loc.contains b || glob.contains b).filter fun b => (s.bundleOf a x b).isSome

/-- The candidate blocks of a sheet (R438). -/
def State.attCands (s : State) (d : List Word) (a : Nat) (x : Sheet) : List Nat :=
  if !AD.retr d then []
  else
    let fixed := s.attFixed d a x
    (List.range (x.len / 256)).filter fun b => !fixed.contains b && (s.bundleOf a x b).isSome

/-- A scan unit or a chunk: sequence, group, block, chunk. -/
structure AttUnit where
  sq : Nat
  gr : Nat
  b : Nat
  c : Nat
  deriving DecidableEq, Repr

/-- Scan units in order: sequence, group, candidate block. -/
def State.scanUnits (s : State) (c : KvCfg) (d : List Word) (sheets : List (Nat × Sheet)) : List AttUnit :=
  (sheets.zipIdx).flatMap fun x => (List.range c.g).flatMap fun gr =>
    (s.attCands d x.1.1 x.1.2).map fun b => ⟨x.2, gr, b, 0⟩

/-- Units `floor(j N / n)` to `floor((j+1) N / n) - 1` (R451). -/
def shareOf {α : Type} (l : List α) (j n : Nat) : List α :=
  (l.drop (j * l.length / n)).take ((j + 1) * l.length / n - j * l.length / n)

/-! ### What a row sees (R443) -/

/-- `j` is `i` or an ancestor of `i`. -/
def ancestor (parent : Nat → Nat) : Nat → Nat → Nat → Bool
  | 0, _, _ => false
  | n + 1, j, i => i == j || (decide (j < i) && ancestor parent n j (parent i))

/-- Node `i` sees the slot at position `p`: `l0` is len before the append, `x` the sheet after it. -/
def sees (d : List Word) (parent : Nat → Nat) (l0 : Nat) (x : Sheet) (i p : Nat) : Bool :=
  if p < x.len then decide (p ≤ l0 + i)
  else if p < x.len + x.plen then
    (if AD.tree d then ancestor parent 65 (p - x.len) i else decide (p - x.len ≤ i))
  else false

/-! ### Arithmetic on one rank (R453) -/

/-- Groups of a product of `rows` and 32 `cols` given as lane operands. -/
def prodGroups (np m : Nat) (rows cols : List (List LaneOp)) : List (List TV) :=
  elems m fun r c => elemGroups np false (rows.getD r []) (cols.getD c []) [] []

/-- Lane operands of element codes, with their events. -/
def lanesOf (fmt : Nat) (z : Bool) (m : List (List Nat)) : List (List LaneOp) × NumEv :=
  let r := m.map fun row => row.map (laneOf fmt z)
  (r.map fun row => row.map (·.1), NumEv.all (r.map fun row => NumEv.all (row.map (·.2))))

/-- An accumulation group of `m` rows and `levels` levels that takes products in turn and is read out as F32 with coarse
product `cw`: its words, row after row, and the events. The group lives in an empty scratchpad of its own. -/
def State.agWork (s : State) (k m levels : Nat) (prods : List (List (List TV) × NumEv)) (cw : Word) : List Word × NumEv :=
  let w : State := { s with mem := MemSt.blank }
  let g0 : AGrp := { mode := 0, m := m, levels := levels, retries := 0, tagged := false, occ := 0, steps := 0, rbase := 0,
                     chan := some false, fresh := true, dirty := false }
  let r := prods.foldl (fun (r : State × AGrp × NumEv) p => r.1.mmaRun k p.1 4 r.2.1 (r.2.2.join p.2)) (w, g0, NumEv.none)
  let (vals, _, ev) := r.1.agValues k r.2.1
  let outs := vals.map fun v => readOut 0 (s.ftz k) (s.sat8 k) .nearest (f32 cw) v.1 v.2
  (outs.map fun o => BitVec.ofNat 32 o.1, NumEv.all (r.2.2 :: ev :: outs.map (·.2)))

/-- Rows of `l` in blocks of 32. -/
def blocks32 {α : Type} (l : List α) : List (List α) :=
  (List.range ((l.length + 31) / 32)).map fun i => (l.drop (32 * i)).take 32

/-- What every rank needs of the heat's ATTEND: configuration, descriptor, ranks, sheets before and after the append. -/
structure AttJob where
  h : Nat
  c : KvCfg
  n : Nat
  sheets : List (Nat × Sheet × Sheet)
  deriving DecidableEq, Repr

/-- K (v = 0) or V (v = 1) of the 32 slots of a unit, as element codes by slot. -/
def State.attChunk (s : State) (j : AttJob) (d : List Word) (u : AttUnit) (v : Nat) : List (List Nat) :=
  let (a, _, x) := j.sheets.getD u.sq (0, ⟨false, false, 0, 0, 0, 0, 0⟩, ⟨false, false, 0, 0, 0, 0, 0⟩)
  match s.attPage j.c d a x u.b u.gr with
  | none => List.replicate 32 (List.replicate j.c.d 0)
  | some p =>
    let e := s.pft j.h p
    let bs := s.frameGet j.h e.tier e.frame (v * 256 * j.c.slot + 32 * u.c * j.c.slot) (32 * j.c.slot)
    (List.range 32).map fun t => kvElems j.c.e (bs.drop (t * j.c.slot)) j.c.d

def transpose (m : List (List Nat)) (n : Nat) : List (List Nat) := (List.range n).map fun i => m.map fun r => r.getD i 0

/-- Scores of a unit on core `k`: rows of 32 words (phase 3). -/
def State.attScores (s : State) (j : AttJob) (k : Nat) (d : List Word) (u : AttUnit) : List (List Word) × NumEv :=
  let fmt := if j.c.e = 4 then 0 else 1
  let z := s.ftz k
  let (_, x0, x) := j.sheets.getD u.sq (0, ⟨false, false, 0, 0, 0, 0, 0⟩, ⟨false, false, 0, 0, 0, 0, 0⟩)
  let q := lanesOf fmt z (s.attQ k j.c d u.sq u.gr)
  let kc := lanesOf fmt z (s.attChunk j d u 0)
  let parent (i : Nat) : Nat := ((s.spGet k (AD.tpar d + i) 1).headD 0).toNat
  let parts := (blocks32 q.1).map fun rows =>
    s.agWork k rows.length 1 [(prodGroups (passCount s k fmt fmt) rows.length rows kc.1, NumEv.none)] (AD.sscale d)
  let all := (parts.map (·.1)).flatten
  let rows := (List.range (AD.rows d)).map fun r =>
    ((all.drop (32 * r)).take 32).zipIdx.map fun w =>
      if sees d parent x0.len x (r / AD.hq d) (256 * u.b + 32 * u.c + w.2) then w.1 else ninf32
  (rows, NumEv.all (q.2 :: kc.2 :: parts.map (·.2)))

/-- EXP2 of each word less `m`, on the fast path. -/
def expSub (z : Bool) (m : Word) (ws : List Word) : List (Word × NumEv) :=
  ws.map fun w =>
    let a := fast2 z (fun x y => FV.add x (FV.neg y)) w m
    let b := fast1 z exp2V a.1
    (b.1, a.2.join b.2)

/-- m_c and s_c of a rank's units of one sequence and group (phase 3). -/
def attLeaf (z : Bool) (units : List (List (List Word))) : Word × Word × NumEv :=
  let ws := (units.flatten).flatten
  let m := match ws with
    | [] => (ninf32, NumEv.none)
    | w :: rest => fastFold (fast2 z maxV) (w, NumEv.none) rest
  let sum2 (x y : Word × NumEv) : Word × NumEv :=
    let r := fast2 z FV.add x.1 y.1
    (r.1, (x.2.join y.2).join r.2)
  let rows := (units.flatten).map fun row => (pairTree sum2 5 (expSub z m.1 row)).headD (0, NumEv.none)
  let t := rows.foldl sum2 (0, NumEv.none)
  (m.1, t.1, m.2.join t.2)

/-- Partial outputs of a rank for one sequence and group: for each row d words and s' (phase 5). -/
def State.attPart (s : State) (j : AttJob) (k : Nat) (d : List Word) (units : List (AttUnit × List (List Word))) (r : Word) :
    List (List Word) × NumEv :=
  let fmt := if j.c.e = 4 then 0 else 1
  let z := s.ftz k
  let np := passCount s k 0 fmt
  let nb := j.c.d / 32
  let one := if fmt = 0 then 0x3F800000 else 0x3C00
  let us := units.map fun u =>
    let v := s.attChunk j d u.1 1
    let p := u.2.map fun row => expSub z r row
    (p, v)
  let rowBlocks := (List.range ((AD.rows d + 31) / 32)).map fun i => (32 * i, min 32 (AD.rows d - 32 * i))
  let parts := rowBlocks.map fun rb => (List.range (nb + 1)).map fun cb =>
    let prods := us.map fun u =>
      let a := lanesOf 0 z (((u.1.drop rb.1).take rb.2).map fun row => row.map fun w => w.1.toNat)
      let cols : List (List Nat) :=
        if cb < nb then (List.range 32).map fun t => u.2.map fun slot => slot.getD (32 * cb + t) 0
        else (List.range 32).map fun t => List.replicate 32 (if t = 0 then one else 0)
      let b := lanesOf fmt z cols
      (prodGroups np rb.2 a.1 b.1, a.2.join b.2)
    s.agWork k rb.2 4 prods 0x3F800000#32
  let rows := (rowBlocks.zip parts).flatMap fun x => (List.range x.1.2).map fun i =>
    ((x.2.take nb).map fun blk => (blk.1.drop (32 * i)).take 32).flatten ++
      (match x.2.getLast? with | some blk => [blk.1.getD (32 * i) 0] | none => [0])
  let evs := NumEv.all ((us.flatMap fun u => u.1.map fun row => NumEv.all (row.map (·.2))) ++ parts.flatMap fun p => p.map (·.2))
  (rows, evs)

/-- An exact SUM of F32 leaves in rank order, delivered as F32 (R98 to R100). -/
def sumF32 (ws : List Word) : Word :=
  match ws.map fun w => sumLeaf 0 0 w.toNat with
  | [] => 0
  | x :: xs => BitVec.ofNat 32 (exFin 0 0 false (xs.foldl (exComb 0 0) x)).1

/-- Outputs of one sequence and group at its root: codes row after row, some row NaN, some row empty, empty rows (phase
7, R454). -/
def attOut (d : List Word) (dim : Nat) (r : Word) (sums : List (List Word)) : List Nat × Bool × Bool × Nat × NumEv :=
  let nanCode := if AD.ofmt d = 1 then 0x7E00 else 0x7FC00000
  let n := AD.rows d * dim
  if nan32 r then (List.replicate n nanCode, true, false, 0, NumEv.none)
  else if r = ninf32 then (List.replicate n 0, false, true, 0, NumEv.none)
  else
    let rows := sums.map fun row =>
      let ss := row.getLastD 0
      if ss = 0 then (List.replicate dim 0, false, true, NumEv.none)
      else
        let q := (row.take dim).map fun o => strictDiv o ss
        let cv := q.map fun x => if AD.ofmt d = 1 then cvtStrict 1 false .nearest x.1 else (x.1.toNat, NumEv.none)
        (cv.map (·.1), q.any (fun x => nan32 x.1), false, NumEv.all (q.map (·.2) ++ cv.map (·.2)))
    ((rows.map (·.1)).flatten, rows.any (·.2.1), rows.any (·.2.2.1), (rows.filter (·.2.2.1)).length,
      NumEv.all (rows.map (·.2.2.2)))

/-! ### The heat's ATTEND as a whole -/

/-- Every page the ATTEND reads or writes, for its sheets after the append and its selected blocks. -/
def State.attPages (s : State) (c : KvCfg) (d : List Word) (sheets : List (Nat × Sheet × Sheet)) (sel : List AttUnit) :
    List Nat :=
  let app := if AD.append d then sheets.flatMap fun x => (byBlock x.2.1.len (AD.nq d)).flatMap fun b =>
      (List.range c.g).filterMap fun gr => s.attPage c d x.1 x.2.2 b.1 gr else []
  let rd := sel.filterMap fun u =>
    let x := sheets.getD u.sq (0, ⟨false, false, 0, 0, 0, 0, 0⟩, ⟨false, false, 0, 0, 0, 0, 0⟩)
    s.attPage c d x.1 x.2.2 u.b u.gr
  (app ++ rd).foldl (fun l p => if l.contains p then l else l ++ [p]) []

/-- Blocks each (sequence, group) reads: the fixed ones and, with retrieval, the pages of highest bound; and the scan's
bounds in order, each with its scan unit, its rank's core and its events. -/
def State.attSelect (s : State) (h : Nat) (c : KvCfg) (cores : List Nat) (words : Nat → List Word) (d : List Word)
    (sheets : List (Nat × Sheet × Sheet)) : List AttUnit × List (Word × Nat × NumEv) :=
  let after := sheets.map fun x => (x.1, x.2.2)
  let scan := s.scanUnits c d after
  let n := cores.length
  let bounds := (cores.zipIdx).flatMap fun x => (shareOf scan x.2 n).map fun u =>
    let sh := sheets.getD u.sq (0, ⟨false, false, 0, 0, 0, 0, 0⟩, ⟨false, false, 0, 0, 0, 0, 0⟩)
    let b := match s.attPage c d sh.1 sh.2.2 u.b u.gr with
      | some p => s.attBound h x.1 c (s.attQ x.1 c (words x.1) u.sq u.gr) p
      | none => (ninf32, NumEv.none)
    (u, b, x.1)
  let sel := (after.zipIdx).flatMap fun x => (List.range c.g).flatMap fun gr =>
    let fixed := s.attFixed d x.1.1 x.1.2
    let mine := bounds.filter fun b => b.1.sq == x.2 && b.1.gr == gr
    let top := ((mine.foldl (fun l b => insertBound (b.2.1.1, b.1.b) l) []).take (AD.ptop d)).map (·.2)
    let top := if AD.retr d then top else []
    (((List.range x.1.2.blocks).filter fun b => fixed.contains b || top.contains b)).map fun b => ⟨x.2, gr, b, 0⟩
  (sel, bounds.map fun b => (b.2.1.1, b.2.2, b.2.1.2))

/-- Far units of the pages read. -/
def State.attFar (s : State) (h : Nat) (ps : List Nat) : List Nat :=
  ps.flatMap fun p => if (s.pft h p).tier = 3 then s.farUnits h (s.pft h p).frame else []

/-- Write the new K and V (R441): slots of every root's (sequence, group) pairs, then the pages' marks and the sheets. -/
def State.attAppend (s : State) (j : AttJob) (cores : List Nat) (words : Nat → List Word) (d : List Word) : State :=
  if !AD.append d then s
  else
    let c := j.c
    let s := s.each (cores.zipIdx) fun s r =>
      s.each ((rootedBy d c.g j.n r.2).zipIdx) fun s y =>
        let x := j.sheets.getD y.1.1 (0, ⟨false, false, 0, 0, 0, 0, 0⟩, ⟨false, false, 0, 0, 0, 0, 0⟩)
        let src := AD.kvnew (words r.1) + y.2 * 2 * AD.nq d * c.slot
        s.each (List.range (AD.nq d)) fun s i =>
          let pos := x.2.1.len + i
          match s.attPage c d x.1 x.2.2 (pos / 256) y.1.2 with
          | none => s
          | some p =>
            let e := s.pft j.h p
            let s := s.framePut j.h e.tier e.frame (pos % 256 * c.slot) (s.spGet r.1 (src + i * c.slot) c.slot)
            s.framePut j.h e.tier e.frame (256 * c.slot + pos % 256 * c.slot)
              (s.spGet r.1 (src + (AD.nq d + i) * c.slot) c.slot)
    s.each j.sheets fun s x =>
      let s := s.each (byBlock x.2.1.len (AD.nq d)) fun s b =>
        s.each ((List.range c.g).filterMap fun gr => s.attPage c d x.1 x.2.2 b.1 gr) fun s p =>
          if AD.spec d then s.modPft j.h p fun e => { e with pbase := b.2.1, pmask := p2 b.2.2 - 1 }
          else s.commitSlots j.h p b.2.1 b.2.2
      s.putSheet x.1 x.2.2

/-- Run a heat's ATTEND on every rank: append, selection, scores, SMXC, partial outputs, sums and the roots' outputs
(R453). -/
def State.attendAll (s : State) (j : AttJob) (cores : List Nat) (words : Nat → List Word) (d : List Word) (sel : List AttUnit)
    (bounds : List (Word × Nat × NumEv)) : State :=
  let c := j.c
  let s := s.attAppend j cores words d
  let s := if AD.retr d then
      s.each (bounds.zipIdx) fun s b => s.uPut c.slices (AD.sbuf d + 4 * b.2) (leBytes b.1.1.toNat 4)
    else s
  let sheetOf (sq : Nat) : Nat × Sheet × Sheet := j.sheets.getD sq (0, ⟨false, false, 0, 0, 0, 0, 0⟩, ⟨false, false, 0, 0, 0, 0, 0⟩)
  let parent (i : Nat) : Nat := ((s.spGet (cores.headD 0) (AD.tpar d + i) 1).headD 0).toNat
  let seen (u : AttUnit) : Bool :=
    let x := sheetOf u.sq
    (List.range 32).any fun t => (List.range (AD.nq d)).any fun i =>
      sees d parent x.2.1.len x.2.2 i (256 * u.b + 32 * u.c + t)
  let units := (sel.flatMap fun u => (List.range 8).map fun ch => { u with c := ch }).filter seen
  let pairs := (List.range j.sheets.length).flatMap fun sq => (List.range c.g).map fun gr => (sq, gr)
  let work := (cores.zipIdx).map fun r =>
    let mine := shareOf units r.2 j.n
    (r.1, mine.map fun u => (u, s.attScores j r.1 (words r.1) u))
  let results := pairs.map fun pr =>
    let per := work.map fun w => (w.1, w.2.filter fun u => u.1.sq == pr.1 && u.1.gr == pr.2)
    let leaves := per.map fun w => attLeaf (s.ftz w.1) (w.2.map fun u => u.2.1)
    let rec_ := ordTree 0xC (leaves.map fun l => ordLeaf 0xC 0 (l.1.toNat + l.2.1.toNat * p2 32))
    let fin := (ordFin 0xC false (smxcK (s.getA (F.HAL_H_CFG_smxc_k j.h))) rec_).1
    let r := recWord fin 2
    let parts := per.map fun w =>
      if r = ninf32 then (w.1, ([] : List (List Word)), NumEv.none)
      else
        let p := s.attPart j w.1 (words w.1) (w.2.map fun u => (u.1, u.2.1)) r
        (w.1, p.1, p.2)
    let sums := (List.range (AD.rows d)).map fun row => (List.range (c.d + 1)).map fun i =>
      sumF32 (parts.map fun p => (p.2.1.getD row []).getD i 0)
    (pr, fin, attOut d c.d r sums, (per.map (·.1)).zip (List.zipWith NumEv.join (leaves.map (·.2.2)) (parts.map (·.2.2))))
  let rootAt (x : (Nat × Nat)) : Nat := cores.getD (rootOf d c.g j.n x.1 x.2) 0
  let evs := (if AD.retr d then bounds.map (·.2) else []) ++ work.map (fun w => (w.1, NumEv.all (w.2.map fun u => u.2.2))) ++
    results.flatMap fun x => (rootAt x.1, x.2.2.1.2.2.2.2) :: x.2.2.2
  let tagged (k : Nat) : Bool := match (s.core k).attend with
    | some a => a.tag
    | none => false
  let s := s.each cores fun s k => s.numEv k (tagged k) (NumEv.all ((evs.filter fun e => e.1 == k).map (·.2)))
  let s := s.each results fun s x =>
    let rk := rootOf d c.g j.n x.1.1 x.1.2
    let k := cores.getD rk 0
    let idx := ((rootedBy d c.g j.n rk).zipIdx.find? fun y => y.1 == x.1).map (·.2) |>.getD 0
    let at_ := AD.obuf (words k) + idx * outLen c d
    let o := x.2.2.1
    let tag := tagged k
    let head := x.2.1 % p2 32 * p2 32 + bitsOf x.2.1 32 32 * p2 64 + bitsOf x.2.1 64 32 +
      (o.2.1.toNat + o.2.2.1.toNat * 2) * p2 96
    let s := s.spStore k at_ (leBytes head 16 ++ (o.1.map fun v => leBytes v (if AD.ofmt d = 1 then 2 else 4)).flatten) tag
    let s := s.bump (F.KV_H_CNT_EMPTY_count j.h) o.2.2.2.1
    let s := if o.2.2.1 then s.flag F.KV_EVT_empty else s
    s.modCore k fun cc => { cc with attend := cc.attend.map fun a => { a with heads := a.heads ++ [at_] } }
  s.each work fun s w =>
    let mine := (w.2.filterMap fun u => let x := sheetOf u.1.sq; s.attPage c d x.1 x.2.2 u.1.b u.1.gr)
    let (s, cls) := mine.foldl (fun (r : State × Nat) p =>
      let e := r.1.pft j.h p
      let f := r.1.frameFind j.h e.tier e.frame 0 c.page
      (f.1, if r.2 = 0 then f.2 else r.2)) (s, 0)
    s.modCore w.1 fun cc => { cc with attend := cc.attend.map fun a =>
      { a with ready := true, status := if cls ≠ 0 then 4 else 0, units := w.2.length } }

/-- Every rank of an ATTEND ends with a status. -/
def State.attendEnd (s : State) (cores : List Nat) (status : Nat) : State :=
  s.each cores fun s k => s.modCore k fun c => { c with attend := c.attend.map fun a =>
    if a.ready then a else { a with ready := true, status := status } }

/-- Whether every rank of the heat has an ATTEND in progress. -/
def State.attendFull (s : State) (h : Nat) : Bool :=
  let rs := s.ranks h
  !rs.isEmpty && rs.all fun r => (s.core r.2).attend.isSome

/-- A heat's ATTEND holds for units that have not come, from now on. -/
def State.attendHold (s : State) (h : Nat) : State :=
  if (Tab.find s.kv.hold h).isSome then s else { s with kv := { s.kv with hold := Tab.put h s.now s.kv.hold } }

/-- A heat's ATTEND holds no longer: the strides of holding are counted (R452). -/
def State.attendFree (s : State) (h : Nat) : State :=
  match Tab.find s.kv.hold h with
  | some t => ({ s with kv := { s.kv with hold := Tab.del h s.kv.hold } } : State).bump (F.KV_H_CNT_STALL_count h) (s.now / 128 - t / 128)
  | none => s

/-- What a heat's ATTEND has read of far units is dropped. -/
def State.attendDrop (s : State) (h : Nat) : State := { s with kv := { s.kv with far := Tab.del h s.kv.far } }

/-- Bring a heat's ATTEND to its end if it can: a rank reset, a rank in error or descriptors that differ end it on every
rank (R458); its pages are touched, and those that move or are not staged make it wait (R433, R452); else it runs. A
failed far page is a memory error. -/
def State.attendTry (s : State) (h : Nat) : State :=
  let rs := s.ranks h
  let cores := rs.map (·.2)
  let ops := cores.filterMap fun k => (s.core k).attend
  if (s.halH h).rankReset then s.attendEnd cores 2
  else if !s.attendFull h || ops.all (·.ready) then s
  else if ops.any fun o => o.ready then s.attendEnd cores 5
  else
    let d := (ops.headD ⟨0, 0, [], 0, false, 0, 0, [], false⟩).words
    if ops.any fun o => AD.shared o.words != AD.shared d then s.attendEnd cores 5
    else if !s.on (F.KV_H_STATUS_ready h) then s
    else
      let c := s.kvCfg h
      let words (k : Nat) : List Word := ((s.core k).attend.map (·.words)).getD []
      let sheets := (s.flightTab (cores.headD 0) d).map fun a => (a, s.sheet a, appended d (s.sheet a))
      let (sel, bounds) := s.attSelect h c cores words d sheets
      let pages := s.attPages c d sheets sel
      let s := s.each pages fun s p => s.modPft h p fun e => { e with touch := s.lapN }
      if pages.any fun p => (s.pft h p).moving then s
      else
        match s.attendStage h (cores.headD 0) ((s.farAtt h).getD 0) (s.attFar h pages) with
        | (s, .waits) => s.attendHold h
        | (s, .fails) => (s.attendFree h).attendEnd cores 4
        | (s, .here) => (((s.attendFree h).attendAll ⟨h, c, cores.length, sheets⟩ cores words d sel bounds).attendDrop h)

/-- The end of an ATTEND on a core: a record of kind 4 (R458). `replay`: the rank's provisional r differed from the final
one (R455). `late`: a read reply carried a void. -/
def State.attendDone (s : State) (h k : Nat) (replay late : Bool) : State :=
  match (s.core k).attend with
  | none => s
  | some a =>
    if !a.ready then s
    else
      let att := AD.kind a.words == 0
      let s := if replay && att && AD.prov a.words && a.status = 0 then
          let s := ((s.bump (F.HAL_H_CNT_NOMATCH_count h)).bump (F.KV_H_CNT_REPLAY_count h)).bump (F.CORE_CNT_REPLAY_count k)
          (s.flag F.KV_EVT_replay).each a.heads fun s o =>
            s.spPut k (o + 12) (leBytes (Nat.lor (s.spRead k (o + 12) 4) 4) 4)
        else s
      let s := if att && s.rankOf k = some 0 then s.bump (F.KV_H_CNT_ATTEND_count h) else s
      s.modCore k fun c => { c with attend := none }.complete a.op 4 (if a.status = 0 && late then 1 else a.status) a.units

/-- ATTEND_COMPLETE (R274, R458): of a core that has neither halted nor been reset; eight laps after its issue an ATTEND
that ranks are missing from ends with leaf timeout, hence descriptor error. -/
def execAttendComplete (k : CoreId) (replay late : Bool) (s : State) : Res :=
  let i := k.toNat
  match s.coreOwner i, (s.core i).attend with
  | some h, some a =>
    if (s.core i).run = .inReset || (s.core i).run = .halted then .next s
    else
      let s := s.attendTry h
      let s := if !s.attendFull h && decide (a.start + 8 * lapFc ≤ s.now) then s.attendEnd [i] 5 else s
      .next (s.attendDone h i replay late)
  | _, _ => .next s

/-- The end of a drain: an ATTEND or keeper command that has not completed ends with heat stopped (R202, R458). -/
def State.attendStop (s : State) (k : Nat) : State :=
  match (s.core k).attend, s.coreOwner k with
  | some a, some h =>
    (((s.modCore k fun c => { c with attend := some { a with ready := true, status := 3 } }).attendFree h).attendDrop h).attendDone h k
      false false
  | _, _ => s

/-- An ATTEND of the heat holds internal operations in flight: it waits for ranks that have not issued (R457). -/
def State.attendInFlight (s : State) (h : Nat) : Bool :=
  !s.attendFull h && (s.heatCores h).any fun k => match (s.core k).attend with | some a => !a.ready | none => false

end Sys2Proof.Machine
end

