-- ==== Sys2Proof/Machine/Fec.lean ====
section
/-! DEFINITION. The RS(544,514) code of the Baton links: the field of 10-bit symbols, the parity of a codeword, the
packing of the stream and its lanes, and what a receiver makes of a codeword (R465 to R468; the field and the generator
are those of IEEE 802.3 clause 91, log entry 73). -/

namespace Sys2Proof.Machine

/-! ### The field of 2^10 elements -/

/-- The product of two symbols, modulo x^10 + x^3 + 1. -/
def gfMul (a b : Nat) : Nat :=
  (List.range 10).foldr (fun i acc =>
    let d := 2 * acc
    let d := if 1024 ≤ d then d ^^^ 0x409 else d
    if b.testBit i then d ^^^ a else d) 0

/-- A power of a symbol. -/
def gfPow (a : Nat) : Nat → Nat
  | 0 => 1
  | n + 1 => gfMul a (gfPow a n)

/-- The inverse of a symbol that is not zero: its 1,022nd power. -/
def gfInv (a : Nat) : Nat :=
  (List.range 9).foldl (fun (x : Nat × Nat) _ => (gfMul x.1 (gfMul x.2 x.2), gfMul x.2 x.2)) (1, a) |>.1

/-- The sum of two polynomials, lowest coefficient first. -/
def polyAdd : List Nat → List Nat → List Nat
  | [], q => q
  | p, [] => p
  | a :: p, b :: q => (a ^^^ b) :: polyAdd p q

/-- The value of a polynomial, lowest coefficient first. -/
def polyEval (x : Nat) (p : List Nat) : Nat := p.foldr (fun a v => gfMul v x ^^^ a) 0

/-- Check symbols of a codeword, and half of them: the errors that the code corrects. -/
def rsChecks : Nat := 30
def rsT : Nat := 15

/-- The generator: the product of x - 2^j for j below 30, lowest coefficient first. -/
def rsGen : List Nat :=
  (List.range rsChecks).foldl (fun g j => polyAdd (0 :: g) (g.map (gfMul (gfPow 2 j)))) [1]

/-- The 30 parity symbols of a message, both in the order sent. -/
def rsParity (msg : List Nat) : List Nat :=
  let g := rsGen.reverse.drop 1
  msg.foldl (fun r m =>
    let fb := m ^^^ r.headD 0
    List.zipWith (fun x c => x ^^^ gfMul fb c) (r.drop 1 ++ [0]) g) (List.replicate rsChecks 0)

/-! ### The stream (R465, R466) -/

/-- Bits of the Baton stream in a codeword. -/
def cwBits : Nat := 5140

/-- A codeword from the stream's next 5,140 bits, bit 0 first: each symbol takes its bits from the lowest on. -/
def rsWord (v : Nat) : List (BitVec 10) :=
  let msg := (List.range 514).map fun i => bitsOf v (10 * i) 10
  (msg ++ rsParity msg).map (BitVec.ofNat 10)

/-- Symbol i of a codeword is sent on lane i mod 8. -/
def rsLanes (w : List (BitVec 10)) : List (List (BitVec 10)) :=
  (List.range 8).map fun l => (List.range 68).map fun j => w.getD (8 * j + l) 0

/-- The codeword that eight lanes carry. -/
def fromLanes (ls : List (List (BitVec 10))) : List Nat :=
  (List.range 544).map fun i => ((ls.getD (i % 8) []).getD (i / 8) 0).toNat

/-- One flit slot of a port's stream leaves; the slot that completes 5,140 bits sends their codeword. -/
def State.slotOut (s : State) (p : Nat) (f : Flit) : State :=
  let b := s.port p
  let n := b.txN + 256
  let v := b.txV + f.toNat * p2 b.txN
  let s := s.send (.slot p f)
  if n < cwBits then s.modPort p fun b => { b with txN := n, txV := v }
  else (s.modPort p fun b => { b with txN := n - cwBits, txV := v / p2 cwBits }).send (.codeword p (rsLanes (rsWord (v % p2 cwBits))))

/-! ### Decoding (R467, R468) -/

/-- The syndromes of a received word, its first symbol the highest coefficient. -/
def rsSyndromes (w : List Nat) : List Nat :=
  (List.range rsChecks).map fun j => let x := gfPow 2 j; w.foldl (fun v a => gfMul v x ^^^ a) 0

/-- The search for the shortest error locator: present locator, its length, the locator before its last change of length
already shifted, and the discrepancy at that change. -/
structure Locator where
  cur : List Nat
  len : Nat
  old : List Nat
  d0 : Nat
  deriving DecidableEq, Repr

/-- The locator takes the next of the syndromes into account (`n` of them have been). -/
def Locator.step (ss : List Nat) (k : Locator) (n : Nat) : Locator :=
  let d := (k.cur.zipIdx.map fun c => gfMul c.1 (if c.2 ≤ n then ss.getD (n - c.2) 0 else 0)).foldl (· ^^^ ·) 0
  if d = 0 then { k with old := 0 :: k.old }
  else
    let f := gfMul d (gfInv k.d0)
    let cur := polyAdd k.cur (k.old.map (gfMul f))
    if 2 * k.len ≤ n then ⟨cur, n + 1 - k.len, 0 :: k.cur, d⟩ else { k with cur := cur, old := 0 :: k.old }

/-- What a receiver makes of a word: 0 a codeword; 1 one whose errors, at most 15, it corrects; 2 one it cannot correct. The
errors are correctable where the locator has as many roots at the word's positions as its length. -/
def rsOutcome (w : List Nat) : Nat :=
  let ss := rsSyndromes w
  if ss.all (· == 0) then 0
  else
    let k := (List.range rsChecks).foldl (Locator.step ss) ⟨[1], 0, [0, 1], 1⟩
    let roots := ((List.range 544).filter fun i => polyEval (gfPow (gfInv 2) i) k.cur == 0).length
    if k.len ≤ rsT && roots == k.len then 1 else 2

end Sys2Proof.Machine
end

