-- ==== Sys2Proof/Machine/Laps.lean ====
section
/-! DEFINITION. Laps and strides: control blocks, the election, lap-marker lock, link delay, the reference, holdover and
the pacer handover (R31 to R79). -/

namespace Sys2Proof.Machine

/-! ### Control blocks (Table 2-1) -/

namespace CB

def pattern : Nat := 0x4D1BE2A695C7380F

/-- CRC-8 over bits [247:64]. -/
def crc (x : Nat) : Nat := crc8 ((List.range 23).map fun i => bitsOf x (64 + 8 * i) 8)

/-- A block from its bits [247:64] above the pattern. -/
def sealed (x : Nat) : Flit := BitVec.ofNat 256 (x % p2 248 + crc x * p2 248)

def ok (f : Flit) : Bool := bitsOf f.toNat 0 64 == pattern && bitsOf f.toNat 248 8 == crc f.toNat
def lap (f : Flit) : Nat := bitsOf f.toNat 64 48
def lag (f : Flit) : Nat := bitsOf f.toNat 112 12
def ref (f : Flit) : Bool := bitsOf f.toNat 124 1 == 1
def ho (f : Flit) : Bool := bitsOf f.toNat 125 1 == 1
def forced (f : Flit) : Bool := bitsOf f.toNat 126 1 == 1
def pacer (f : Flit) : Nat := bitsOf f.toNat 128 10
def pri (f : Flit) : Nat := bitsOf f.toNat 138 4
def hops (f : Flit) : Nat := bitsOf f.toNat 144 5
def kind (f : Flit) : Nat := bitsOf f.toNat 149 3
def hoAddr (f : Flit) : Nat := bitsOf f.toNat 152 10
def hoLap (f : Flit) : Nat := bitsOf f.toNat 168 48

/-- Set lag as the block leaves, and seal it (R42). -/
def withLag (f : Flit) (lag : Nat) : Flit := sealed (setBits f.toNat 112 12 (min lag 4095))

/-- A block with lag zero. -/
def make (kind lap pacer pri hops : Nat) (ref forced : Bool) (ho : Option (Nat × Nat)) : Flit :=
  sealed (pattern + lap % p2 48 * p2 64 + ref.toNat * p2 124 + ho.isSome.toNat * p2 125 + forced.toNat * p2 126 +
    pacer % 1024 * p2 128 + pri % 16 * p2 138 + hops % 32 * p2 144 + kind % 8 * p2 149 +
    (match ho with | some (a, l) => a % 1024 * p2 152 + l % p2 48 * p2 168 | none => 0))

end CB

/-! ### Lap state -/

def State.lapPort (s : State) (p : Nat) : LapPort := Tab.get LapPort.blank s.laps.ports p
def State.modLap (s : State) (f : LapSt → LapSt) : State := { s with laps := f s.laps }
def State.modLapPort (s : State) (p : Nat) (f : LapPort → LapPort) : State :=
  s.modLap fun l => { l with ports := Tab.put p (f (s.lapPort p)) l.ports }

/-- LAP_STATUS.state: 0 search, 1 electing, 2 pacer, 3 follower, 4 holdover, 5 free-run. -/
def State.lapState (s : State) : Nat := s.get F.LAP_STATUS_state

/-- Set a LAP_EVT bit, with its EVT line (Table 16-9). -/
def State.lapEvt (s : State) (f : Fld) (name : String) : State :=
  (s.flag f).evt 2 ("EVT lap " ++ s.posText ++ " event=" ++ name)

/-- Count a pacer conflict: LAP_CNT_CONFLICT, an event bit and a yellow pennant. -/
def State.lapConflict (s : State) (f : Fld) (name : String) (code : Nat) : State :=
  ((s.bump F.LAP_CNT_CONFLICT_count).lapEvt f name).yellow { code := code }

/-- A lap in 1/16 fc. -/
def lap16 : Nat := lapFc * 16

/-- Delay of a port in 1/16 fc (R51). -/
def State.delayOf (s : State) (p : Nat) : Nat := s.get (F.LAP_DELAY_delay p)

/-- The lap number of the local boundary nearest an instant in 1/16 fc since lap 0. -/
def ownLap (t : Int) : Int := (t + (lap16 / 2 : Nat)) / (lap16 : Nat)

/-- The locked ports with their streams. -/
def State.lockedPorts (s : State) : List (Nat × LapLock) :=
  (List.range 12).filterMap fun p => (s.lapPort p).lock.map fun l => (p, l)

/-- Pair order: lower priority value, then lower address. -/
def pairLt (a b : Nat × Nat) : Bool := a.1 < b.1 || (a.1 == b.1 && a.2 < b.2)

/-- The parent that R48 and R76 give among some locked ports: of those that carry the lowest (priority, address), the
one with the fewest hops, and among them the lowest number. -/
def State.bestOf (_s : State) (ps : List (Nat × LapLock)) : Option (Nat × LapLock) :=
  let best := ps.foldl (fun b p => if pairLt (p.2.pri, p.2.pacer) b then (p.2.pri, p.2.pacer) else b) (16, 1024)
  (ps.filter fun p => (p.2.pri, p.2.pacer) == best).foldl (fun b p =>
    match b with
    | none => some p
    | some q => if p.2.hops < q.2.hops then some p else b) none

/-- The best parent of all locked ports. -/
def State.bestParent (s : State) : Option (Nat × LapLock) := s.bestOf s.lockedPorts

/-- A stream still names the pacer of before the last handover recorded: its marker was on its way (R72, R75; log entry
64). -/
def State.stale (s : State) (l : LapLock) : Bool := s.laps.prev == some l.pacer && s.get F.LAP_PACER_addr != l.pacer

/-- A stream names another pacer than this module knows, and no announcement recorded it (R75). -/
def State.unannounced (s : State) (l : LapLock) : Bool :=
  s.laps.known && s.get F.LAP_PACER_addr != l.pacer && !s.stale l

/-- Take a port as parent, with what its markers say of the pacer; the module stands one hop beyond the sender. -/
def State.setParent (s : State) (p : Nat) (l : LapLock) : State :=
  let s := (s.put F.LAP_STATUS_parent p).put F.LAP_STATUS_hops (l.hops + 1)
  if s.stale l then s
  else
    let s := ((s.put F.LAP_PACER_addr l.pacer).put F.LAP_PACER_pri l.pri).putB F.LAP_PACER_ref l.ref
    (s.putB F.LAP_PACER_forced l.forced).modLap fun x => { x with known := true }

/-- Follow what the parent's stream says; an unannounced pacer is logged and counted (R75). -/
def State.heed (s : State) (p : Nat) (l : LapLock) : State :=
  if s.unannounced l then
    ((s.setParent p l).modLap fun x => { x with prev := none }).lapConflict F.LAP_EVT_change "change" 0x107
  else s.setParent p l

/-- R76: a follower whose locked ports carry different pacer addresses logs and counts it once while that stands; reparent
follows the lower. The two ends of a recorded handover count as one pacer (log entry 64). -/
def State.clashCheck (s : State) : State :=
  let names := s.lockedPorts.map fun q => if s.stale q.2 then s.get F.LAP_PACER_addr else q.2.pacer
  let differ := s.lapState == 3 && names.any fun a => a != names.headD 0
  if differ && !s.laps.clash then
    (s.modLap fun x => { x with clash := true }).lapConflict F.LAP_EVT_conflict "conflict" 0x107
  else s.modLap fun x => { x with clash := differ }

/-- Record a handover announced (R70). -/
def State.announce (s : State) (addr lap : Nat) : State :=
  ((((s.put48 F.LAP_HO_LO_lap_lo F.LAP_HO_HI_lap_hi lap).put F.LAP_HO_HI_addr addr).put F.LAP_HO_HI_valid 1).put
    F.LAP_STATUS_ho_pending 1)

/-- A pending `lap pacer adopt` meets an announcement: it names this module, or another (R70, R71). -/
def State.adoptHeard (s : State) (addr : Nat) : State :=
  match s.laps.adopt with
  | none => s
  | some a =>
    (s.modLap fun l => { l with adopt := none }).replyC a.line []
      (if addr = s.selfAddr then "OK" else "ERR 0331 HANDOVER PENDING")

/-! ### Holdover, free-run and the lap-65 halt (R62 to R67) -/

/-- R64: team operations end with pacer lost, every heat that belongs to a team goes red and halts where it runs or starts,
and the module free-runs. -/
def State.lap65 (s : State) : State :=
  if s.laps.expired then s
  else
    let s := (s.modLap fun l => { l with expired := true }).lapEvt F.LAP_EVT_expired "expired"
    let s := s.each ((List.range 32).filter fun h => s.heatExists h && s.halTeam h) fun s h =>
      (s.pacerLost h).red { code := 0x211, heat := some h, flap := s.lapN }
    s.put F.LAP_STATUS_state 5

/-- R62: no port is locked any more. -/
def State.holdover (s : State) (l0 : Nat) : State :=
  let s := s.modLap fun l => { l with holdL0 := some l0, expired := false }
  let s := ((s.put F.LAP_STATUS_state 4).put F.LAP_STATUS_parent 15).put F.LAP_STATUS_holdover (min 127 (s.lapN - l0))
  (s.lapEvt F.LAP_EVT_lost "lost").yellow { code := 0x105 }

/-- A port loses lock (R47, R48, R62). -/
def State.lapLost (s : State) (p l0 : Nat) : State :=
  let s := (s.modLapPort p fun x => { x with lock := none }).bump F.LAP_CNT_LOST_count
  if s.lapState = 3 && s.lockedPorts.isEmpty then s.holdover l0 else s.clashCheck

/-- A bad or missing marker of a locked port: three in turn lose its lock (R47). `due`: it is the marker that was due, and
the next one is due a lap later; a stray pattern leaves the due marker to come (log entry 66). -/
def State.lapBad (s : State) (p : Nat) (due : Bool) : State :=
  match (s.lapPort p).lock with
  | none => s
  | some l =>
    let s := s.bump F.LAP_CNT_BAD_count
    if 3 ≤ l.bad + 1 then s.lapLost p l.good
    else s.modLapPort p fun x => { x with lock := some (if due then { l with bad := l.bad + 1, lap := l.lap + 1, time := l.time + lap16 }
        else { l with bad := l.bad + 1 }) }

/-- Candidates whose next marker can no longer come, with the longest lag it may carry, by an instant in 1/16 fc: discarded
and counted (R46). -/
def State.candsExpire (s : State) (p t : Nat) : State :=
  let gone (c : MarkCand) : Bool := decide (c.time + lap16 + 32 + 4095 < t)
  let n := ((s.lapPort p).cands.filter gone).length
  if n = 0 then s
  else (s.modLapPort p fun x => { x with cands := x.cands.filter fun c => !gone c }).bump F.LAP_CNT_FALSE_count n

/-- The candidates of every port, by an instant in 1/16 fc. -/
def State.allExpire (s : State) (t : Nat) : State := s.each (List.range 12) fun s p => s.candsExpire p t

/-- MARKER_MISSING (R47): the marker of a locked port has not come by the local boundary plus the port's delay plus
256 fc. -/
def execMarkerMissing (port : PortId) (s : State) : Res :=
  let p := port.val
  match (s.lapPort p).lock with
  | none => .next s
  | some l =>
    let due := ownLap ((l.time : Int) + (lap16 : Nat) - (s.delayOf p : Nat)) * (lap16 : Nat) + (s.delayOf p : Nat) + 4096
    if due ≤ ((s.now * 16 : Nat) : Int) then .next (s.lapBad p true) else .next s

/-- HOLDOVER_EXPIRED (R64): at lap L0 + 65 without lock. -/
def execHoldoverExpired (s : State) : Res :=
  match s.laps.holdL0 with
  | some l0 => if s.lapState = 4 && decide (l0 + 65 ≤ s.lapN) then .next s.lap65 else .next s
  | none => .next s

/-! ### Lap markers (R44 to R49, R53, R67, R75, R76) -/

/-- Whether the module may step: it has not locked since power-up and no heat runs (R49). -/
def State.mayStep (s : State) : Bool :=
  !s.laps.locked1 && (List.range 32).all fun h => !heatLive (s.heatSt h)

/-- A refused lock or relock (R49, R67). -/
def State.lockRefused (s : State) : State :=
  (s.lapEvt F.LAP_EVT_mismatch "mismatch").yellow { code := 0x106 }

/-- The phase error of a locked stream: the local boundary less the pacer's, in 1/16 fc (R53). -/
def State.phaseOf (s : State) (p : Nat) (l : LapLock) : Int :=
  let b : Int := (l.time : Int) - (s.delayOf p : Nat)
  ownLap b * (lap16 : Nat) - b

/-- Record a phase error and its peak. -/
def State.setPhase (s : State) (e : Int) : State :=
  let s := s.put F.LAP_PHASE_err (e % 65536).toNat
  let s := if s.get F.LAP_PHASE_PEAK_peak < e.natAbs then s.put F.LAP_PHASE_PEAK_peak (min e.natAbs 65535) else s
  s.putB F.LAP_STATUS_slewing (e != 0)

/-- Record what a stream announces (R70). -/
def State.heedAnnounce (s : State) (l : LapLock) : State :=
  if l.ho then (s.announce l.hoAddr l.hoLap).adoptHeard l.hoAddr else s

/-- Follow a locked port: state, parent, and the pacer it names. -/
def State.follow (s : State) (p : Nat) (l : LapLock) : State :=
  ((((s.put F.LAP_STATUS_state 3).setPhase (s.phaseOf p l)).heed p l).heedAnnounce l).clashCheck

/-- The boundary that a stream marks bears a number below the module's own count for it (R49, R69). -/
def State.below (s : State) (p : Nat) (l : LapLock) : Bool :=
  decide ((l.lap : Int) < ownLap ((l.time : Int) - (s.delayOf p : Nat)))

/-- A port has locked (R49, R67, R75, R76, R629). Before the first lock since power-up the module steps, unless a heat runs,
which the spec does not foresee: then R67's test applies (log entry 67). -/
def State.lapLocked (s : State) (p : Nat) (l : LapLock) : State :=
  let s := s.modLapPort p fun x => { x with lock := some l, cands := [] }
  let s := s.lapEvt F.LAP_EVT_lock "lock"
  let st := s.lapState
  if st = 2 || s.laps.step then s
  else if st = 3 then s.clashCheck
  else if s.mayStep then
    if s.below p l then (s.modLap fun x => { x with barred := true }).lockRefused
    else if s.laps.barred then s
    else s.modLap fun x => { x with step := true, electing := none }
  else
    let late := match s.laps.holdL0 with
      | some l0 => st == 4 && decide (l0 + 65 ≤ s.lapN)
      | none => false
    let s := if late then s.lap65 else s
    let e := s.phaseOf p l
    if !s.below p l && (l.lap : Int) = ownLap ((l.time : Int) - (s.delayOf p : Nat)) && e.natAbs ≤ 256 then
      let s := s.modLap fun x => { x with holdL0 := none, electing := none, locked1 := true }
      ((s.put F.LAP_STATUS_holdover 0).lapEvt F.LAP_EVT_relocked "relocked").follow p l
    else
      let s := if st = 4 then s.lap65 else s
      (s.put F.LAP_STATUS_state (if st = 0 || st = 1 then st else 5)).lockRefused

/-- The stream's fields in a marker. -/
def lockOf (f : Flit) (t : Nat) : LapLock :=
  ⟨CB.lap f, t, 0, CB.lap f, CB.pacer f, CB.pri f, CB.ref f, CB.forced f, CB.hops f, CB.ho f, CB.hoAddr f, CB.hoLap f⟩

/-- Two instants in 1/16 fc lie within 2 fc (R45). -/
def near (a b : Nat) : Bool := decide (a ≤ b + 32) && decide (b ≤ a + 32)

/-- A good marker of a locked port: the parent's gives the phase, the announcement and the pacer. -/
def State.markerGood (s : State) (p : Nat) (l : LapLock) : State :=
  let s := s.modLapPort p fun x => { x with lock := some l }
  if s.lapState ≠ 3 then s
  else if s.get F.LAP_STATUS_parent ≠ p then s.clashCheck
  else (((s.heed p l).setPhase (s.phaseOf p l)).heedAnnounce l).clashCheck

/-- A marker-shaped block at a port without lock: each candidate whose next marker is due is extended or discarded; a
block that extends none becomes a candidate, the fifth in place of the oldest (R44, R46), which is the one least recently
extended (log entry 65). -/
def State.markerSearch (s : State) (p t : Nat) (valid : Bool) (f : Flit) : State :=
  let cs := (s.lapPort p).cands
  let due (c : MarkCand) : Bool := decide (c.time + lap16 ≤ t + 32)
  let fits (c : MarkCand) : Bool := valid && near t (c.time + lap16) && CB.lap f == c.lap + 1
  let gone := cs.filter fun c => due c && !fits c
  let s := if gone.isEmpty then s else s.bump F.LAP_CNT_FALSE_count gone.length
  let keep := cs.filter fun c => !due c
  match cs.find? fits with
  | some c =>
    if c.count + 1 = 4 then s.lapLocked p (lockOf f t)
    else s.modLapPort p fun x => { x with cands := keep ++ [⟨CB.lap f, t, c.count + 1⟩] }
  | none =>
    let new := if valid then keep ++ [⟨CB.lap f, t, 1⟩] else keep
    s.modLapPort p fun x => { x with cands := if 4 < new.length then new.drop 1 else new }

/-- LAP_MARKER_RECEIVED (R39, R44 to R47): a block of the pattern arrives at a position of the present lap, in 1/16 fc.
A port that is not up hears none, and a valid block of another kind is no marker. At a locked port a block is the due marker
where it comes at its instant, or bears its lap number; any other is a stray pattern (log entry 66). -/
def execLapMarkerReceived (port : PortId) (pos : Pos) (sub : BitVec 4) (blk : Flit) (s : State) : Res :=
  let p := port.val
  let valid := CB.ok blk && CB.kind blk == 0
  if !s.portUp p || (CB.ok blk && CB.kind blk != 0) then .next s
  else
    let s := if valid then s.bump F.LAP_CNT_RX_count else s
    if !s.laps.s17 then .next s
    else
      let t := (s.lapN * lapFc + pos.toNat) * 16 + sub.toNat - CB.lag blk
      match (s.lapPort p).lock with
      | none => .next (s.markerSearch p t valid blk)
      | some l =>
        let onTime := near t (l.time + lap16)
        let named := valid && CB.lap blk == l.lap + 1
        if onTime && named then .next (s.markerGood p (lockOf blk t))
        else .next (s.lapBad p (onTime || named))

/-! ### What a lap boundary does to the time base (R36, R41, R43, R48, R49, R53, R61, R63, R72, R74) -/

/-- The marker this module sends for its present lap, if it sends one. -/
def State.marker (s : State) : Option Flit :=
  let ho := if s.on F.LAP_HO_HI_valid then
      some (s.get F.LAP_HO_HI_addr, s.get48 F.LAP_HO_LO_lap_lo F.LAP_HO_HI_lap_hi) else none
  if s.lapState = 2 then
    some (CB.make 0 s.lapN s.selfAddr (s.get F.LAP_PACER_pri) 0 (s.on F.LAP_STATUS_ref_used) (s.on F.LAP_PACER_forced) ho)
  else if s.lapState = 3 then
    match (s.lapPort (s.get F.LAP_STATUS_parent)).lock with
    | some l => some (CB.make 0 s.lapN l.pacer l.pri (l.hops + 1) l.ref l.forced ho)
    | none => none
  else none

/-- Ports on which control blocks leave. -/
def State.upPorts (s : State) : List Nat := (List.range 12).filter fun p => s.portUp p

/-- R41: the lap marker on every port that is up but the parent. -/
def State.sendMarkers (s : State) : State :=
  match s.marker with
  | none => s
  | some f => s.each (s.upPorts.filter fun p => s.lapState == 2 || p != s.get F.LAP_STATUS_parent) fun s p => s.ctlBlock p f

/-- A bid on every port that is up, while the election runs; none while no candidate is known (log entry 37). -/
def State.sendBids (s : State) : State :=
  match s.laps.electing, s.laps.best with
  | some (_ + 1), some (pri, addr) =>
    s.each s.upPorts fun s p => s.ctlBlock p (CB.make 1 (max s.laps.highest s.lapN) addr pri 0 false false none)
  | _, _ => s

/-- An instant in fc since lap 0 after a step of the local time by `d` fc. -/
def shiftFc (d : Int) (t : Nat) : Nat := ((t : Int) + d).toNat

/-- Shift every instant that the module holds, after a step of the local time by `d` fc. -/
def State.rebase (s : State) (d : Int) : State :=
  let at16 (t : Nat) : Nat := ((t : Int) + 16 * d).toNat
  let laps := { s.laps with
    ports := s.laps.ports.map fun p => (p.1, { p.2 with
      cands := p.2.cands.map fun c => { c with time := at16 c.time }
      lock := p.2.lock.map fun k => { k with time := at16 k.time }
      probed := p.2.probed.map (shiftFc d) })
    adopt := s.laps.adopt.map fun a => { a with deadline := shiftFc d a.deadline } }
  let btn := s.btn.map fun p => (p.1, { p.2 with
    ctlQ := p.2.ctlQ.map fun c => (at16 c.1, c.2)
    bulkQ := p.2.bulkQ.map fun f => { f with at_ := shiftFc d f.at_ }
    rxBuf := p.2.rxBuf.map fun f => { f with at_ := shiftFc d f.at_ } })
  let mesh := { s.mesh with
    flights := s.mesh.flights.map fun f => { f with at_ := shiftFc d f.at_ }
    relays := s.mesh.relays.map fun f => { f with at_ := shiftFc d f.at_ }
    ctrl := s.mesh.ctrl.map fun c => (c.1, c.2.map fun w => { w with since := shiftFc d w.since })
    asm := s.mesh.asm.map fun a => (a.1, { a.2 with at_ := shiftFc d a.2.at_ })
    acted := s.mesh.acted.map fun a => (a.1, shiftFc d a.2) }
  let mem := { s.mem with
    replies := s.mem.replies.map fun r => (r.1, r.2.map fun x => { x with due := shiftFc d x.due })
    posted := [] }
  { s with laps := laps, btn := btn, mesh := mesh, mem := mem }

/-- Set the position, in fc since lap 0. -/
def State.setNow (s : State) (t : Nat) : State :=
  { s with lap := BitVec.ofNat 48 (t / lapFc), pos := BitVec.ofNat 18 (t % lapFc) }

/-- The new lap begins: the count rises by one, or by a raise to the count that an elected pacer takes (R36), or the
position steps to what the markers of a locked port imply at this instant (R49, R69), which need not be a boundary. The
pacer keeps its role (R32). -/
def State.advanceLap (s : State) : State :=
  let next := s.lapN + 1
  let ps := s.lockedPorts.filter fun q => !s.below q.1 q.2
  match s.laps.step, s.bestOf ps with
  | true, some (p, l) =>
    let s := s.modLap fun x => { x with step := false, locked1 := true, barred := false, electing := none, raise_ := none }
    let b : Int := (l.time : Int) - (s.delayOf p : Nat)
    let t := (((l.lap * lap16 : Nat) : Int) + (next * lap16 : Nat) - b).toNat / 16
    let s := (s.setNow t).rebase ((t : Int) - (next * lapFc : Nat))
    match (s.lapPort p).lock with
    | some l => if s.lapState = 2 then s else s.follow p l
    | none => s
  | _, _ =>
    let n := match s.laps.raise_ with
      | some r => max r next
      | none => next
    (s.setNow (n * lapFc)).modLap fun x => { x with step := false, raise_ := none }

/-- Slew: the phase error falls by at most 1 fc (R49). -/
def State.slew (s : State) : State :=
  let e := s.get F.LAP_PHASE_err
  let v : Int := if e < 32768 then e else (e : Int) - 65536
  let d : Int := if v > 16 then 16 else if v < -16 then -16 else v
  if s.lapState = 3 then
    (s.put F.LAP_PHASE_err ((v - d) % 65536).toNat).putB F.LAP_STATUS_slewing (v - d != 0)
  else s

/-- This module becomes the pacer, with what LAP_STATUS and LAP_PACER then read. -/
def State.becomePacer (s : State) (pri : Nat) (forced : Bool) : State :=
  let ref := s.on F.LAP_STATUS_ref_ok
  let s := (((s.put F.LAP_STATUS_state 2).put F.LAP_STATUS_parent 15).put F.LAP_STATUS_hops 0).put F.LAP_STATUS_holdover 0
  let s := ((s.put F.LAP_PACER_addr s.selfAddr).put F.LAP_PACER_pri pri).putB F.LAP_PACER_forced forced
  let s := (s.putB F.LAP_STATUS_ref_used ref).putB F.LAP_PACER_ref ref
  s.modLap fun l => { l with holdL0 := none, locked1 := true, known := true, clash := false }

/-- A handover announced for this lap takes effect (R72). An old pacer without a locked port is a follower whose ports have
all lost lock: it holds over from the last lap it marked itself (log entry 68). -/
def State.handover (s : State) : State :=
  if s.on F.LAP_HO_HI_valid && s.get48 F.LAP_HO_LO_lap_lo F.LAP_HO_HI_lap_hi = s.lapN then
    let a := s.get F.LAP_HO_HI_addr
    let s := (s.put F.LAP_HO_HI_valid 0).put F.LAP_STATUS_ho_pending 0
    let old := s.get F.LAP_PACER_addr
    let s := (s.put F.LAP_PACER_addr a).modLap fun l => { l with prev := some old, known := true }
    let s :=
      if a = s.selfAddr then s.becomePacer (s.get F.LAP_CFG_pri) false
      else if s.lapState = 2 then
        let s := (s.put F.LAP_STATUS_ref_used 0).modLap fun l => { l with locked1 := true }
        match s.bestParent with
        | some (p, l) => s.follow p l
        | none => s.holdover (s.lapN - 1)
      else s
    s.lapEvt F.LAP_EVT_handover "handover"
  else s

/-- A forced adoption begins to originate markers (R74). -/
def State.forceDue (s : State) : State :=
  if s.laps.forceAt = some s.lapN then
    (s.modLap fun l => { l with forceAt := none, prev := none }).becomePacer (s.get F.LAP_CFG_pri) true
  else s

/-- A follower's parent at a boundary: changed when it lost lock or another port carries fewer hops (R48). -/
def State.reparent (s : State) : State :=
  if s.lapState ≠ 3 then s
  else
    match (s.lapPort (s.get F.LAP_STATUS_parent)).lock, s.bestParent with
    | some l, some (p, m) => if m.hops < l.hops || m.pacer != l.pacer then s.setParent p m else s
    | none, some (p, m) => s.setParent p m
    | _, none => s

/-- LAP_OUT's pulse (R61). -/
def State.pulse (s : State) : State :=
  if s.on F.LAP_CTL_out_en && s.lapN % p2 (s.get F.LAP_CTL_out_div) == 0 then s.send (.lapOut s.lapN) else s

/-- What leaves at a lap boundary: markers, bids and LAP_OUT's pulse. A step that lands inside a lap passes no boundary. -/
def State.atBoundary (s : State) : State := if s.pos = 0 then s.sendMarkers.sendBids.pulse else s

/-- The time base at a lap boundary. -/
def State.lapBase (s : State) : State :=
  let s := s.allExpire ((s.lapN + 1) * lap16)
  let s := (((s.advanceLap.slew).handover.forceDue).reparent).clashCheck
  let s := match s.laps.holdL0 with
    | some l0 => if s.lapState = 4 then s.put F.LAP_STATUS_holdover (min 127 (s.lapN - l0)) else s
    | none => s
  let s := s.modLap fun l => { l with electing := l.electing.map (· - 1) }
  s.atBoundary

/-! ### The election (R33 to R38) -/

/-- S-17 begins: the module searches for markers and bids (R629). -/
def State.electionBegin (s : State) : State :=
  let role := s.get F.LAP_CFG_role
  let own := if role = 2 then some (0, s.selfAddr) else if role = 1 then some (s.get F.LAP_CFG_pri, s.selfAddr) else none
  (s.modLap fun l => { l with electing := some 32, best := own, own := own, highest := s.lapN, s17 := true }).put
    F.LAP_STATUS_state 1

/-- The election window is open: not all of its 32 local laps have passed (R34). -/
def State.windowOpen (s : State) : Bool := match s.laps.electing with
  | some (_ + 1) => true
  | _ => false

/-- BID_RECEIVED (R33): nothing outside the election window. Every valid bid raises the highest lap count seen, which R36
takes: R33's words, which the model takes for R36's `accepted bid` too (log entry 69). -/
def execBidReceived (port : PortId) (blk : Flit) (s : State) : Res :=
  let p := port.val
  if !s.windowOpen || !s.portUp p || !CB.ok blk || CB.kind blk ≠ 1 then .next s
  else
    let c := (CB.pri blk, CB.pacer blk)
    let s := s.modLap fun l => { l with highest := max l.highest (CB.lap blk) }
    let twice := (s.lapPort p).bid == some (c.1, c.2, s.lapN - 1) && s.lapN != 0
    let s := s.modLapPort p fun x => { x with bid := some (c.1, c.2, s.lapN) }
    .next (if twice then
        s.modLap fun l => { l with best := match l.best with | some b => some (if pairLt c b then c else b) | none => some c }
      else s)

/-- The window of 32 local laps has ended (R34 to R38): the best bid names the pacer; without one, or without a port that is
up, the module free-runs. A module that bid priority 0 and lost to another of priority 0 logs and counts it (R35). -/
def State.electionEnd (s : State) : State :=
  if s.laps.electing ≠ some 0 then s
  else
    let s := s.modLap fun l => { l with electing := none }
    match s.laps.best, s.upPorts.isEmpty with
    | some (pri, addr), false =>
      if addr = s.selfAddr then
        (s.becomePacer pri false).modLap fun l => { l with raise_ := some (max l.highest s.lapN + 1) }
      else
        let s := ((s.put F.LAP_STATUS_state 0).put F.LAP_PACER_addr addr).put F.LAP_PACER_pri pri
        let s := s.modLap fun l => { l with known := true }
        if pri = 0 && (s.laps.own.map (·.1)) == some 0 then s.lapConflict F.LAP_EVT_conflict "conflict" 0x102 else s
    | _, _ => ((s.put F.LAP_STATUS_state 5).put F.STA_DEGR_free_run 1).yellow { code := 0x103 }

/-- ELECTION_WINDOW_END (R34). -/
def execElectionWindowEnd (s : State) : Res := .next s.electionEnd

/-! ### Link delay (R51, R52) -/

/-- Ports that send probes: up, or training. -/
def State.probePorts (s : State) : List Nat :=
  (List.range 12).filter fun p => s.portUp p || s.get (F.BTN_P_STATUS_state p) == 3

/-- A port's next probe is due: at stride 1024, one a lap; while it trains, one a stride (R52, R501). -/
def State.probeDue (s : State) (p : Nat) : Bool :=
  let last := (s.lapPort p).probed
  if s.portUp p then s.stride == 1024 && (last.map (· / lapFc)) != some s.lapN
  else (s.port p).step == 6 && (last.map (· / 128)) != some (s.now / 128)

/-- One probe leaves on a port. -/
def State.probe (s : State) (p : Nat) : State :=
  (s.modLapPort p fun x => { x with probed := some s.now }).ctlBlock p (CB.make 2 0 0 0 0 false false none)

/-- DELAY_PROBE_SEND (R52): one probe on each trained port, at stride 1024 of a lap. -/
def execDelayProbeSend (s : State) : Res :=
  .next (s.each (s.probePorts.filter s.probeDue) State.probe)

/-- DELAY_PROBE_RECEIVED (R51): the echo's nominal send time is the probe's arrival, at a position of the present lap in
1/16 fc, so that the lag written as it leaves holds its wait. -/
def execDelayProbeReceived (port : PortId) (pos : Pos) (sub : BitVec 4) (blk : Flit) (s : State) : Res :=
  if !s.probePorts.contains port.val || !CB.ok blk || CB.kind blk ≠ 2 then .next s
  else .next (s.ctlBlockAt port.val ((s.lapN * lapFc + pos.toNat) * 16 + sub.toNat) (CB.make 3 0 0 0 0 false false none))

/-- Insert into a rising list. -/
def insertNat (x : Nat) : List Nat → List Nat
  | [] => [x]
  | y :: t => if x ≤ y then x :: y :: t else y :: insertNat x t

/-- The median of samples; of an even count the mean of the middle two, rounded down (log entry 38). -/
def median (l : List Nat) : Nat :=
  let v := l.foldr insertNat []
  let n := v.length
  if n % 2 = 1 then v.getD (n / 2) 0 else (v.getD (n / 2 - 1) 0 + v.getD (n / 2) 0) / 2

/-- PROBE_ECHO_RECEIVED (R51, R498): half of the round trip less lag joins the last 16 samples, whose median is the
delay once there are 16. -/
def State.echoIn (s : State) (p rtt : Nat) (blk : Flit) : State :=
  let sm := (rtt - CB.lag blk) / 2
  let s := s.modLapPort p fun x => { x with samples := (sm :: x.samples).take 16 }
  let v := (s.lapPort p).samples
  let s := s.modPort p fun b => { b with probes := b.probes + 1 }
  if v.length < 16 then s else (s.put (F.LAP_DELAY_delay p) (min (median v) (p2 20 - 1))).put (F.LAP_DELAY_valid p) 1

/-- PROBE_ECHO_RECEIVED (R51). -/
def execProbeEchoReceived (port : PortId) (rtt : BitVec 24) (blk : Flit) (s : State) : Res :=
  if !s.probePorts.contains port.val || !CB.ok blk || CB.kind blk ≠ 3 then .next s
  else .next (s.echoIn port.val rtt.toNat blk)

/-! ### The reference (R58 to R60) -/

/-- LAP_IN is qualified only while LAP_CFG.ref_en is one (R58): where it is cleared, the qualification ends, and the
pacer runs from its oscillator without an event (log entry 70). -/
def State.refCheck (s : State) : State :=
  if s.on F.LAP_CFG_ref_en || !s.on F.LAP_STATUS_ref_ok then s
  else
    let s := (s.put F.LAP_STATUS_ref_ok 0).put F.LAP_STATUS_ref_used 0
    if s.lapState = 2 then s.put F.LAP_PACER_ref 0 else s

/-- LAP_IN_QUALIFIED (R58, R59). -/
def execLapInQualified (s : State) : Res :=
  if !s.on F.LAP_CFG_ref_en || s.on F.LAP_STATUS_ref_ok then .next s
  else
    let back := s.laps.refLost
    let s := (s.put F.LAP_STATUS_ref_ok 1).modLap fun l => { l with refLost := false }
    if s.lapState ≠ 2 then .next s
    else
      let s := (s.put F.LAP_STATUS_ref_used 1).put F.LAP_PACER_ref 1
      .next (if back then s.lapEvt F.LAP_EVT_ref_back "ref_back" else s)

/-- LAP_IN_LOST (R59): the pacer changes to its oscillator. -/
def execLapInLost (s : State) : Res :=
  if !s.on F.LAP_STATUS_ref_ok then .next s
  else
    let s := (s.put F.LAP_STATUS_ref_ok 0).modLap fun l => { l with refLost := true }
    if s.lapState ≠ 2 then .next s
    else .next ((((s.put F.LAP_STATUS_ref_used 0).put F.LAP_PACER_ref 0).lapEvt F.LAP_EVT_ref_lost "ref_lost").yellow
      { code := 0x104 })

/-! ### Pacer handover (R70, R71) -/

/-- The payload of an adopt request (Table 11-4). -/
def adoptFlits (addr pri lap : Nat) : List Flit :=
  [3, BitVec.ofNat 256 (addr % 1024 + pri % 16 * p2 10 + lap % p2 48 * p2 14)]

/-- An adopt request reaches the module: the pacer announces it, a locked follower passes it on (R71). -/
def State.adoptIn (s : State) (body : List Flit) : State :=
  let x := (body.getD 1 0).toNat
  let lap := bitsOf x 14 48
  if s.lapState = 2 then
    if !s.on F.LAP_HO_HI_valid && decide (s.lapN + 2 ≤ lap) then s.announce (x % 1024) lap else s
  else if s.lapState = 3 then s.express (s.get F.LAP_STATUS_parent) 2 body
  else s

/-- ADOPT_ANNOUNCE_TIMEOUT (R71): four laps after the command. -/
def execAdoptAnnounceTimeout (s : State) : Res :=
  match s.laps.adopt with
  | some a =>
    if a.deadline ≤ s.now then
      .next ((s.modLap fun l => { l with adopt := none }).replyC a.line [] "ERR 0333 NO ANNOUNCEMENT")
    else .next s
  | none => .next s

/-- The effect of an admitted `lap pacer adopt` (R70, R71, R74, Table 2-4): the error, or the state; without force the
reply waits for the announcement. Table 2-4 has no row for two cases: force=1 while the module searches or elects is
refused as while locked, and a module that is no locked follower sends no request, so that its line ends with 0333 (log
entry 71). -/
def State.adopt (s : State) (l : Line) (lap : Nat) (force : Bool) : Except String State :=
  let st := s.lapState
  if lap < s.lapN + (if force then 2 else 32) then .error "ERR 0240 LAP TOO EARLY"
  else if s.get F.LAP_CFG_role = 0 then .error "ERR 0330 NOT ELIGIBLE"
  else if s.on F.LAP_HO_HI_valid || s.laps.adopt.isSome || s.laps.forceAt.isSome then .error "ERR 0331 HANDOVER PENDING"
  else if force && (st = 3 || st = 0 || st = 1) then .error "ERR 0332 PACER PRESENT"
  else if st = 2 then .error "ERR 0334 ALREADY PACER"
  else if force then .ok (s.modLap fun x => { x with forceAt := some lap })
  else
    let s := s.modLap fun x => { x with adopt := some ⟨l, lap, s.now + 4 * lapFc⟩ }
    .ok (if st = 3 then s.express (s.get F.LAP_STATUS_parent) 2 (adoptFlits s.selfAddr (s.get F.LAP_CFG_pri) lap) else s)

/-- The effect of an admitted `lap realign` (R69, R721): the step is taken at the next boundary. The pacer steps phase
and lap count and stays the pacer (R32; log entry 72). -/
def State.realign (s : State) : Except String State :=
  if (List.range 32).any fun h => 1 < s.heatSt h then .error "ERR 0312 HEAT RUNNING"
  else
    match s.bestParent with
    | none => .error "ERR 0404 MODULE UNREACHABLE"
    | some (p, l) =>
      if s.below p l then .error "ERR 0240 LAP TOO EARLY"
      else .ok (s.modLap fun x => { x with step := true, holdL0 := none, locked1 := true })

end Sys2Proof.Machine
end

