-- ==== Sys2Proof/Machine/Console.lean ====
section
/-! DEFINITION. What every console command shares: the states that admit it, the forms of its values, the checks of
Table 16-6 from step 2 on, the claim, and its answer (R673, R681, R684 to R686, R707 to R710). -/

namespace Sys2Proof.Machine

/-! ### Values (Table 16-4, R10, R673) -/

inductive Val where
  | num (n : Nat)
  | int (i : Int)
  | pos (lap stride : Nat) (fc : Option Nat)
  | list (l : List Nat)
  | str (s : String)
  deriving DecidableEq, Repr

/-- The form and range of an argument. -/
inductive Form where
  /-- decimal or hexadecimal, from `lo` to `hi`, a multiple of `step` -/
  | num (lo hi step : Nat)
  /-- decimal only -/
  | dec (lo hi : Nat)
  | sgn (lo hi : Int)
  | lap
  | pos
  /-- a list of members up to `hi`, or, where allowed, `all` (R709): members 0 to `hi` -/
  | list (lo hi : Nat) (all : Bool)
  | word (ws : List String)
  | name
  | str
  deriving DecidableEq, Repr

def charDigit (c : Char) : Option Nat :=
  if '0' ≤ c && c ≤ '9' then some (c.toNat - 48) else none

def charHex (c : Char) : Option Nat :=
  if '0' ≤ c && c ≤ '9' then some (c.toNat - 48)
  else if 'a' ≤ c && c ≤ 'f' then some (c.toNat - 87)
  else if 'A' ≤ c && c ≤ 'F' then some (c.toNat - 55)
  else none

/-- Digits in base `b`, every character one of them, at least one. -/
def digits (b : Nat) (f : Char → Option Nat) : List Char → Option Nat
  | [] => none
  | c :: cs => cs.foldl (fun a d => match a, f d with | some a, some d => some (a * b + d) | _, _ => none) (f c)

def decimal (cs : List Char) : Option Nat := digits 10 charDigit cs

/-- A decimal or hexadecimal number. -/
def number (cs : List Char) : Option Nat :=
  match cs with
  | '0' :: 'x' :: t => digits 16 charHex (t.filter (· != '_'))
  | '0' :: 'X' :: t => digits 16 charHex (t.filter (· != '_'))
  | _ => decimal cs

/-- Cut a list at every `sep`. -/
def splitAt (sep : Char) : List Char → List (List Char)
  | [] => [[]]
  | c :: cs =>
    if c = sep then [] :: splitAt sep cs
    else
      match splitAt sep cs with
      | [] => [[c]]
      | x :: xs => (c :: x) :: xs

/-- One member of a list: a number, or a range. -/
def listPart (cs : List Char) : Option (Nat × Nat) :=
  match (splitAt '-' cs).map decimal with
  | [some a] => some (a, a)
  | [some a, some b] => if a ≤ b then some (a, b) else none
  | _ => none

/-- The ranges of a list; none where a member is malformed or repeated, or there are more than 64 (log entry 39). -/
def listParts (cs : List Char) : Option (List (Nat × Nat)) :=
  let parts := (splitAt ',' cs).map listPart
  if 64 < parts.length || parts.any (·.isNone) then none
  else
    let ps := parts.filterMap id
    let clash : Bool := (ps.zipIdx).any fun x => (ps.drop (x.2 + 1)).any fun y => x.1.1 ≤ y.2 && y.1 ≤ x.1.2
    if clash then none else some ps

/-- A position of R10. -/
def position (cs : List Char) : Option (Nat × Nat × Option Nat) :=
  match splitAt ':' cs with
  | [l, r] =>
    match splitAt '+' r with
    | [st] => if st.length ≤ 4 then (match decimal l, decimal st with | some a, some b => some (a, b, none) | _, _ => none) else none
    | [st, fc] =>
      if st.length ≤ 4 && fc.length ≤ 3 then
        (match decimal l, decimal st, decimal fc with | some a, some b, some c => some (a, b, some c) | _, _, _ => none)
      else none
    | _ => none
  | _ => none

/-- The text of a value: the inside of a quoted string, with its escapes; none where it is malformed (log entry 39). -/
def unquote : List Char → Option (List Char)
  | [] => none
  | ['"'] => some []
  | '"' :: _ => none
  | '\\' :: '"' :: t => (unquote t).map ('"' :: ·)
  | '\\' :: '\\' :: t => (unquote t).map ('\\' :: ·)
  | c :: t => (unquote t).map (c :: ·)

def isNameChar (c : Char) : Bool := c.isAlphanum || c == '-' || c == '_' || c == '.'

def lower (s : String) : String := String.ofList (s.toList.map Char.toLower)
def upper (s : String) : String := String.ofList (s.toList.map Char.toUpper)

def outOfRange : String := "0203 VALUE OUT OF RANGE"
def badNumber : String := "0204 BAD NUMBER"

/-- A value of a form, or the code and text of its error. -/
def Form.parse (f : Form) (v : String) : Except String Val :=
  let cs := v.toList
  match f with
  | .num lo hi step =>
    match number cs with
    | none => .error badNumber
    | some n => if lo ≤ n && n ≤ hi && n % step == 0 then .ok (.num n) else .error outOfRange
  | .dec lo hi =>
    match decimal cs with
    | none => .error badNumber
    | some n => if lo ≤ n && n ≤ hi then .ok (.num n) else .error outOfRange
  | .sgn lo hi =>
    let i : Option Int := match cs with
      | '-' :: t => (decimal t).map fun n => -(n : Int)
      | _ => (number cs).map fun n => (n : Int)
    match i with
    | none => .error badNumber
    | some i => if lo ≤ i && i ≤ hi then .ok (.int i) else .error outOfRange
  | .lap =>
    match decimal cs with
    | none => .error badNumber
    | some n => if n < p2 48 then .ok (.num n) else .error outOfRange
  | .pos =>
    match position cs with
    | none => .error "0205 BAD POSITION"
    | some (l, st, fc) => if l < p2 48 && st ≤ 2047 && fc.getD 0 ≤ 127 then .ok (.pos l st fc) else .error outOfRange
  | .list lo hi all =>
    if all && lower v = "all" then .ok (.list ((List.range (hi + 1)).filter (lo ≤ ·)))
    else
      match listParts cs with
      | none => .error "0207 BAD LIST"
      | some ps =>
        if ps.any fun p => p.1 < lo || hi < p.2 then .error outOfRange
        else .ok (.list ((ps.map fun p => (List.range (p.2 - p.1 + 1)).map (· + p.1)).flatten))
  | .word ws => if ws.contains (lower v) then .ok (.str (lower v)) else .error outOfRange
  | .name => if !cs.isEmpty && cs.all isNameChar then .ok (.str v) else .error "0105 BAD TOKEN"
  | .str =>
    match cs with
    | '"' :: t =>
      match unquote t with
      | some u => if u.length ≤ 256 then .ok (.str (String.ofList u)) else .error "0105 BAD TOKEN"
      | none => .error "0105 BAD TOKEN"
    | _ => if cs.contains '"' then .error "0105 BAD TOKEN" else .ok (.str v)

/-! ### Arguments -/

/-- Parsed arguments: key, value, column. -/
abbrev Args := List (String × Val × Nat)

def Args.find (a : Args) (k : String) : Option Val := (List.find? (fun x => x.1 == k) a).map (·.2.1)
def Args.has (a : Args) (k : String) : Bool := (a.find k).isSome
def Args.nat? (a : Args) (k : String) : Option Nat := match a.find k with | some (.num n) => some n | _ => none
def Args.nat (a : Args) (k : String) (d : Nat := 0) : Nat := (a.nat? k).getD d
def Args.int? (a : Args) (k : String) : Option Int := match a.find k with | some (.int i) => some i | _ => none
def Args.list? (a : Args) (k : String) : Option (List Nat) := match a.find k with | some (.list l) => some l | _ => none
def Args.list (a : Args) (k : String) : List Nat := (a.list? k).getD []
def Args.str? (a : Args) (k : String) : Option String := match a.find k with | some (.str x) => some x | _ => none
def Args.str (a : Args) (k : String) : String := (a.str? k).getD ""
def Args.pos (a : Args) (k : String) : Nat × Nat × Option Nat := match a.find k with | some (.pos l st f) => (l, st, f) | _ => (0, 0, none)
def Args.col (a : Args) (k : String) : Nat := ((List.find? (fun x => x.1 == k) a).map (·.2.2)).getD 1

/-- An error with its column (R682). -/
def errCol (e : String) (col : Nat) : String := "ERR " ++ e ++ " col=" ++ toString col

/-- The arguments of a line, left to right, or its error (R673, Table 16-6 step 4). -/
def parseArgs (keys : List (String × Form)) (seen : Args) (n : Nat) : List Arg → Except String Args
  | [] => .ok seen
  | a :: rest =>
    if n = 0 then .error (errCol "0107 TOO MANY ARGUMENTS" a.col)
    else if a.key = "" || a.val = "" then .error (errCol "0105 BAD TOKEN" a.col)
    else
      let k := lower a.key
      if seen.has k then .error (errCol "0106 DUPLICATE KEY" a.col)
      else
        match List.find? (fun x => x.1 == k) keys with
        | none => .error (errCol "0201 UNKNOWN KEY" a.col)
        | some (_, f) =>
          match f.parse a.val with
          | .error e => .error (errCol e a.col)
          | .ok v => parseArgs keys (seen ++ [(k, v, a.col)]) (n - 1) rest

/-! ### Admission and the claim -/

/-- The console states of R707. -/
inductive CMode where
  | boot | hold | ready | black
  deriving DecidableEq, Repr

/-- The module's console state: S-19 is step 19 ended. -/
def State.cmode (s : State) : CMode :=
  if s.black then .black
  else if s.boot.holdAt.isSome then .hold
  else if s.boot.step < 19 then .boot
  else .ready

/-- The error of a verb that the state does not admit (Table 16-6 step 2). -/
def State.notAdmitted (s : State) : String :=
  match s.cmode with
  | .boot => "ERR 0301 BUSY BOOTING S-" ++ padDec 2 s.boot.step
  | .hold => "ERR 0305 IN HOLD"
  | _ => "ERR 0603 BLACK PENNANT"

/-- What a command is: class C, the states that admit it, its keys, the required ones, and the states in which any
session may issue it. -/
structure Cmd where
  classC : Bool
  modes : List CMode
  keys : List (String × Form) := []
  req : List String := []
  anyIn : List CMode := []
  deriving DecidableEq, Repr

/-- What a command's own part comes to: an error of its own, an error at a key, data lines with the state, or a state in
which the line still waits for its answer. -/
inductive Ans where
  | err (e : String)
  | errAt (e : String) (key : String)
  | ok (datas : List String) (s : State)
  | wait (s : State)

/-- The claim's error for a session, if it may not execute class C lines (R685, R686). -/
def State.claimErr (s : State) (i : Nat) : Option String :=
  match s.con.claim with
  | none => some "ERR 0304 NOT CLAIMED"
  | some j => if j = i then none else some ("ERR 0302 CLAIMED BY SESSION " ++ toString j)

def State.modSession (s : State) (i : Nat) (f : Session → Session) : State :=
  match s.session i with
  | none => s
  | some x => { s with con := { s.con with sess := Tab.put i (f x) s.con.sess } }

/-- A kept reply that a generated class C line repeats (R679). -/
def State.keptFor (s : State) (l : Line) : Option Kept :=
  match l.gen, s.session l.sess.val with
  | some (tag, crc), some x => x.kept.find? fun k => k.tag == tag && k.crc == crc && decide (s.boot.ms ≤ k.ms + 10000)
  | _, _ => none

/-- Send a line to the module that is to execute it (R700). -/
def State.routeLine (s : State) (l : Line) (addr : Nat) (bytes : List Byte) : State :=
  match s.tunnelPort addr with
  | none => s.reply l [] "ERR 0404 MODULE UNREACHABLE"
  | some _ =>
    let s := s.tunnelSend addr l.sess.val bytes
    { s with con := { s.con with routed := s.con.routed ++ [⟨l, addr, [], [], false, s.boot.ms⟩] } }

/-- The module that a line names, if it is another one. -/
def State.elsewhere (s : State) (l : Line) : Option (Nat × List Byte) :=
  match l.route with
  | some (a, bs) => if a.toNat = s.selfAddr then none else some (a.toNat, bs)
  | none => none

/-- Execute a console line: admission, arguments, the claim, then its own part; one final line (R681, R684). -/
def State.command (s : State) (l : Line) (c : Cmd) (body : Args → State → Ans) : State :=
  if (s.session l.sess.val).isNone then s
  else
    let s := s.modSession l.sess.val fun x => { x with line := some l }
    let fin (s : State) (d : List String) (t : String) : State :=
      if c.classC && (s.elsewhere l).isNone then s.replyC l d t else s.reply l d t
    match (if c.classC && (s.elsewhere l).isNone then s.keptFor l else none) with
    | some k => s.reply l [] k.final
    | none =>
      if !c.modes.contains s.cmode then fin s [] s.notAdmitted
      else
        match parseArgs c.keys [] 16 l.args with
        | .error e => fin s [] e
        | .ok a =>
          match c.req.find? fun k => !a.has k with
          | some _ => fin s [] (errCol "0202 MISSING KEY" l.endCol)
          | none =>
            match s.elsewhere l with
            | some (addr, bs) => s.routeLine l addr bs
            | none =>
            match (if c.classC && !c.anyIn.contains s.cmode then s.claimErr l.sess.val else none) with
            | some e => fin s [] e
            | none =>
              match body a s with
              | .err e => fin s [] ("ERR " ++ e)
              | .errAt e k => fin s [] (errCol e (a.col k))
              | .ok d s => fin s d "OK"
              | .wait s => s

/-! ### Text -/

def commaSep (l : List Nat) : String := String.intercalate "," (l.map toString)

/-- A list of heats, or `-`. -/
def listText (l : List Nat) : String := if l.isEmpty then "-" else commaSep l

def kvp (k : String) (v : Nat) : String := k ++ "=" ++ toString v
def join (l : List String) : String := String.intercalate " " l

/-- A number of sixteenths with its decimals (three at least), without the trailing zeros beyond them. -/
def sixteenths (v : Int) : String :=
  let a := v.natAbs
  let f := (padDec 4 (a % 16 * 625)).toList
  let f := if f.getLast? = some '0' then f.take 3 else f
  (if v < 0 then "-" else "") ++ toString (a / 16) ++ "." ++ String.ofList f

def allModes : List CMode := [.boot, .hold, .ready, .black]

end Sys2Proof.Machine
end

