-- ==== Sys2Proof/Machine/Reset.lean ====
section
/-! DEFINITION. Reset of a core (R132, R277 to R279, R306, R324). -/

namespace Sys2Proof.Machine

/-! ### Core reset (R277, R278, R306, R324) -/

/-- Reset core `k`, whose recall flag stays until its heat next starts (R233): its registers, tags, groups, queues and
identifiers clear; instruction memory and scratchpad stay; the NUM_ registers take their reset values and the generators
are seeded; a Halyard leaf is marked reset (R132) and resumable of its heat clears. -/
def State.coreReset (s : State) (k : Nat) : State :=
  let c := s.core k
  let s := s.setCore k { Core.blank k with imem := c.imem, recallFlag := c.recallFlag }
  let s := s.each (List.range 13) fun s i => s.wr ⟨(R.NUM_CFG k).off + 4 * i, 0⟩ (if i = 0 then 0xCF else 0)
  let s := s.seedGens k
  match s.coreOwner k with
  | none => s
  | some h =>
    let s := s.put (F.HEAT_H_STATE_resumable h) 0
    if heatLive (s.heatSt h) && (s.rankOf k).isSome then
      let r := (s.rankOf k).getD 0
      ((s.modHal h fun x =>
        { x with rankReset := true, ops := x.ops.map fun o => { o with recs := Tab.del r o.recs } }).flag
          F.HAL_EVT_rank_reset).halRankReset h
    else s

/-- CORE_RESET (R277, R279): no effect on a core in reset, fenced, or in a free heat. -/
def State.coreCtl (s : State) (k : Nat) : State :=
  if s.fenced k || (s.core k).run = .inReset || (s.coreOwner k).isNone then s else s.coreReset k

/-- CORE_RESET (R277, R279). -/
def execCoreReset (k : CoreId) (s : State) : Res := .next (s.coreCtl k.toNat)

end Sys2Proof.Machine
end

