-- ==== Sys2Proof/Machine/Marshal.lean ====
section
/-! DEFINITION. The Marshal: reports and monitors, the audit, the lock, safe stops, injections and its console commands
(R552 to R596, R722, R723). -/

namespace Sys2Proof.Machine

/-! ### Fault classes (Table 13-3) -/

/-- The pennant and look-back, in fc, of a fault class. -/
def faultClass (code : Nat) : Option (Pen × Nat) :=
  match code with
  | 0x201 | 0x202 | 0x203 | 0x205 | 0x206 | 0x207 | 0x208 | 0x209 | 0x20A | 0x20B | 0x20C => some (.red, 128)
  | 0x204 => some (.red, lapFc + 32768)
  | 0x20D | 0x20F | 0x210 => some (.red, 0)
  | 0x20E => some (.red, 256)
  | 0x301 => some (.black, 6)
  | 0x302 => some (.black, 12)
  | 0x303 => some (.black, 29)
  | 0x304 | 0x305 => some (.black, 8192)
  | 0x306 => some (.black, 1320)
  | 0x307 | 0x308 | 0x30A => some (.black, 0)
  | 0x309 => some (.black, 1200)
  | _ => none

/-- The heat that a report's site belongs to: a core or router, a slice, a controller, a heat, a region. -/
def State.siteHeat (s : State) (code site : Nat) : Option Nat :=
  match code with
  | 0x206 => s.coreOwner (portRouter (site % 256))
  | 0x207 => s.coreOwner (reserveSite (site % 8))
  | 0x20D => if site < 32 then some site else none
  | 0x20E | 0x210 => s.coreOwner (portRouter (site % 256))
  | _ => if site < 2048 then s.coreOwner site else none

/-- Classify a report and decide its pennant (R556, R557, R567). -/
def State.report (s : State) (code site detail : Nat) : State :=
  match faultClass code with
  | some (.red, back) =>
    s.red { code := code, heat := s.siteHeat code site, site := site, detail := detail, flap := s.lapBack back }
  | some (.black, back) => s.blackPen { code := code, site := site, detail := detail, flap := s.lapBack back }
  | _ => s

/-! ### Residue checks (R568, R569) -/

/-- 2^k mod 3: 1 for even k, 2 for odd k. -/
def pow2Res (k : Nat) : Nat := if k % 2 = 0 then 1 else 2

/-- The multiplier's check of a product against the significands of its operands. -/
def productOk (sa sb p : Nat) : Bool := (sa % 3) * (sb % 3) % 3 == p % 3

/-- The least exponent present. -/
def leastExp (xs : List ChkVal) : Int :=
  match xs with
  | [] => 0
  | x :: r => r.foldl (fun e y => min e y.exp) x.exp

/-- r(x), with values in units of 2^e0. -/
def chkRes (e0 : Int) (x : ChkVal) : Nat :=
  let r := x.mant % 3 * pow2Res (x.exp - e0).toNat % 3
  if x.neg then (3 - r) % 3 else r

def resSum (e0 : Int) (xs : List ChkVal) : Nat := (xs.map (chkRes e0)).sum % 3

/-- The check tree: the residues of the inputs against those of the result and of the round-offs of every rounding node. -/
def treeOk (inputs : List ChkVal) (result : ChkVal) (offs : List ChkVal) : Bool :=
  let e0 := leastExp (inputs ++ result :: offs)
  resSum e0 inputs == (chkRes e0 result + resSum e0 offs) % 3

/-- Whether a checker of class `code` reports what it sees: a multiplier or the check tree only on a mismatch, and only for
the classes whose mechanism it is (Table 13-3). -/
def seesFault (code : Nat) (ev : Evidence) : Bool :=
  match ev with
  | .product sa sb p => (code == 0x201 || code == 0x202) && !productOk sa sb p
  | .tree i r d => (code == 0x201 || code == 0x202) && !treeOk i r d
  | .found => true

/-- Whether a checker of a class and site still reports: an injection of kind 8 disables a region's residue checkers. -/
def State.checks (s : State) (code site : Nat) : Bool :=
  !((code == 0x201 || code == 0x202 || code == 0x203) && s.mar.mute.contains (regionOf (site % 2048)))

/-- CHECKER_REPORT (R556): the classes that a checker finds; traps, the audit, the lap-65 halt, team stops, SAFE_STOP_N,
the monitors and their test have commands of their own. A checker that sees no fault reports none. -/
def execCheckerReport (code : BitVec 12) (site detail : BitVec 16) (ev : Evidence) (s : State) : Res :=
  let c := code.toNat
  if ((decide (0x201 ≤ c) && decide (c ≤ 0x20D)) || (decide (0x301 ≤ c) && decide (c ≤ 0x303))) && seesFault c ev &&
      s.checks c site.toNat then
    let s := if c = 0x20B then s.flag F.MSH_EVT_uncorrectable else s
    let (ended, s) := match s.siteHeat c site.toNat with
      | some h => if c = 0x20D then s.halParity h else (false, s)
      | none => (false, s)
    .next (if ended then s else s.report c site.toNat detail.toNat)
  else .next s

/-- MONITOR_EXCURSION (R572, Table 13-4). -/
def execMonitorExcursion (m : Monitor) (s : State) : Res :=
  .next (match m with
    | .regionClock r => s.report 0x20E r.toNat 0
    | .fabricLoss => s.blackPen { code := 0x304, flap := s.lapBack 24 }
    | .fabricFreq => s.report 0x304 0 0
    | .reference => s.report 0x305 0 0
    | .rail n => s.report 0x306 n.toNat 0
    | .mainInput => s.report 0x306 0 0
    | .inputCurrent => s.report 0x307 0 0
    | .inputPower => s.yellow { code := 0x115 }
    | .dieWarn => s.yellow { code := 0x114 }
    | .dieCritical => s.report 0x308 0 0
    | .hbmCritical => s.report 0x308 1 0
    | .marshalSupply => s.report 0x309 0 0
    | .marshalOscillator => s.report 0x309 1 0)

/-- MONITOR_SELF_TEST (R575): a monitor that does not trip causes 0x30A. -/
def execMonitorSelfTest (trips : Bool) (s : State) : Res :=
  .next (if trips then s else s.report 0x30A 0 0)

/-! ### The heartbeat (R555) -/

/-- STARTER_HEARTBEAT. -/
def execStarterHeartbeat (s : State) : Res :=
  .next ({ s with mar := { s.mar with beatMs := s.boot.ms } }.put F.MAR_STATUS_starter_ok 1)

/-- HEARTBEAT_TIMEOUT: 10 ms without a heartbeat, and not within 2.5 s of an announced restart. -/
def execHeartbeatTimeout (s : State) : Res :=
  if s.mar.beatMs + 10 ≤ s.boot.ms && s.on F.MAR_STATUS_starter_ok then
    let s := s.put F.MAR_STATUS_starter_ok 0
    .next (if s.boot.ms ≤ s.mar.quietTo then s else s.yellow { code := 0x116 })
  else .next s

/-! ### Signatures (R571) -/

/-- SIGNATURE_COLLECTION: a mismatch of the latched signatures reports 0x204 for the core. -/
def execSignatureCollection (s : State) : Res :=
  .next (s.each (s.cores.filter fun c => c.2.sigLatched != c.2.sigShadowLatched) fun s c =>
    (s.report 0x204 c.1 0).modCore c.1 fun x => { x with sigShadowLatched := x.sigLatched })

/-! ### The audit (R573, R574) -/

/-- Every core site of a region. -/
def regionCores (r : Nat) : List Nat := (List.range 2048).filter fun k => regionOf k == r

/-- A region's checker did not report. -/
def State.regionOut (s : State) (r : Nat) : State :=
  let s := s.each ((regionCores r).filter fun k => !s.fenced k && (Tab.find s.cores k).isSome) State.coreReset
  let s := (s.put (F.MAR_OOS_oos (r / 32)) (Nat.lor (s.get (F.MAR_OOS_oos (r / 32))) (p2 (r % 32)))).flag F.MAR_EVT_audit_fail
  s.report 0x210 r 0

/-- Whether a region is out of service. -/
def State.isOut (s : State) (r : Nat) : Bool := bitsOf (s.get (F.MAR_OOS_oos (r / 32))) (r % 32) 1 == 1

/-- A restore's audit (R574, R723). -/
def State.restoreAudit (s : State) (restored : Bool) : State :=
  match s.mar.restore with
  | none => s
  | some (l, r) =>
    let s := { s with mar := { s.mar with restore := none } }
    let line := "region=" ++ toString r ++ " restored=" ++ toString restored.toNat
    let s := if restored then
        let o := s.get (F.MAR_OOS_oos (r / 32))
        s.put (F.MAR_OOS_oos (r / 32)) (Nat.lor o (p2 (r % 32)) - p2 (r % 32))
      else s.regionOut r
    s.okC l [line]

/-- LATENT_FAULT_AUDIT: regions 4 × (L mod 64) + i, those with bit i of `silent` set not reporting, nor those whose
checkers an injection disabled; `restored`: the outcome of a restore's audit that waits. -/
def execLatentFaultAudit (silent : BitVec 4) (restored : Bool) (s : State) : Res :=
  if s.get F.MAR_STATUS_state ≠ 3 then .next s
  else
    let n := s.lapN % 64
    let s := s.restoreAudit restored
    let s := s.put F.MAR_STATUS_audit n
    let bad := (List.range 4).filter fun i => silent.getLsbD i || s.mar.mute.contains (4 * n + i)
    let s := s.each bad fun s i => s.regionOut (4 * n + i)
    .next { s with mar := { s.mar with mute := s.mar.mute.filter fun r => r / 4 != n } }

/-! ### The red line (R577 to R580) -/

/-- SAFE_STOP_N (R578). -/
def execSafeStopN (s : State) : Res :=
  if s.on F.MAR_STATUS_safe_stop then .next s
  else
    let teams := s.teamBits s.heatExists
    let s := s.put F.MAR_STATUS_safe_stop 1
    let s := s.each ((List.range 32).filter s.heatExists) fun s h => s.red { code := 0x213, heat := some h, flap := s.lapN }
    .next (if s.on F.MAR_CFG_ss_team then s.teamStop teams s.lapN else s)

/-- SAFE_STOP_N_RELEASED (R578). -/
def execSafeStopNReleased (s : State) : Res := .next (s.put F.MAR_STATUS_safe_stop 0)

/-- A safety frame that a port accepted (R579, R580): once per origin and number in a lap, and never in black. -/
def State.teamStopIn (s : State) (port : Nat) (f : Flit) : State :=
  let x := f.toNat
  let key := (bitsOf x 4 10, bitsOf x 14 8)
  if bitsOf x 0 4 ≠ 0 || s.black || s.mar.stops.contains key then s
  else
    let s := { s with mar := { s.mar with stops := key :: s.mar.stops } }.flag F.MAR_EVT_team_stop
    let named (h : Nat) : Bool :=
      s.heatExists h && s.getA (F.TEAM_H_CFG_en h) == 1 && bitsOf x (22 + s.getA (F.TEAM_H_CFG_id h)) 1 == 1
    let s := s.each ((List.range 32).filter named) fun s h =>
      s.red { code := 0x212, heat := some h, flap := bitsOf x 86 48 }
    s.each ((List.range 12).filter fun p => p != port && s.portUp p) fun s p => s.express p 1 [f]

/-! ### Refused writes, the lock, service mode (R20, R585 to R588) -/

/-- A write that R20, R21, R219 or R323 refuses is counted; R20 logs 0x101 as well (R587). -/
def State.refuseWrite (s : State) (r20 : Bool) (off : Nat) : State :=
  let s := (s.bump F.MAR_CNT_LOCKWR_count).flag F.MAR_EVT_lockwr
  if r20 then s.yellow { code := 0x101, site := off % 65536, detail := off / 65536 } else s

def State.locked (s : State) : Bool := s.on F.MAR_STATUS_lock

/-- Set the lock, or consume MAR_LOCK. -/
def State.setLock (s : State) (on_ : Bool) : State :=
  let s := { s with mar := { s.mar with lockUsed := true } }
  if on_ then (s.put F.MAR_LOCK_lock 1).put F.MAR_STATUS_lock 1 else s

/-- MAR_LOCK_WRITE (R585): later writes are refused under R20. -/
def execMarLockWrite (_p : Path) (v : Word) (s : State) : Res :=
  .next (if s.mar.lockUsed then s.refuseWrite true R.MAR_LOCK.off else s.setLock (v.getLsbD 0))

def State.setService (s : State) (on_ : Bool) : State := (s.putB F.MAR_SVC_on on_).putB F.MAR_STATUS_service on_

/-- MAR_SVC_WRITE (R588). -/
def execMarSvcWrite (_p : Path) (v : Word) (s : State) : Res :=
  .next (if s.locked then s.refuseWrite true R.MAR_SVC.off else s.setService (v.getLsbD 0))

/-! ### Injections (R589 to R591, Table 13-9) -/

/-- The site of an injection lies in the heat: a core of its own for kinds 0 to 4 and 6, a router for 5, a region for 7
to 9. -/
def State.injSite (s : State) (kind site h : Nat) : Bool :=
  if kind ≤ 6 then
    decide (site < 2048) && s.coreOwner site == some h && (kind == 5 || !s.fenced site)
  else decide (site < 256) && s.coreOwner (portRouter site) == some h

/-- R589, service mode apart. -/
def State.injOk (s : State) (kind site h : Nat) : Bool :=
  if kind ≤ 9 then
    s.heatSt h == 3 && s.getA (F.HEAT_H_CFG_rel_en h) == 0 && s.getA (F.HAL_H_CFG_team h) == 0 && s.injSite kind site h
  else decide (kind ≤ 12) && (List.range 32).all fun h => decide (s.heatSt h ≤ 1)

/-- Arm an injection of a kind at MAR_INJ_SITE, where the Marshal accepts it. -/
def State.injArm (s : State) (kind : Nat) (arm : Bool) : State :=
  let s := if s.on F.MAR_INJ_CTL_arm || 13 ≤ kind then s else s.put F.MAR_INJ_CTL_kind kind
  let k := s.get F.MAR_INJ_CTL_kind
  if arm && s.injOk k (s.get F.MAR_INJ_SITE_site) (s.get F.MAR_INJ_SITE_heat) then
    ((s.put F.MAR_INJ_CTL_arm 1).put F.MAR_INJ_CTL_done 0).put F.MAR_INJ_CTL_cancelled 0
  else s

/-- INJECTION_ARM (R589): a write to MAR_INJ_CTL; outside service mode it is discarded. -/
def execInjectionArm (_p : Path) (v : Word) (s : State) : Res :=
  .next (if s.on F.MAR_SVC_on then s.injArm (v.toNat % 16) (v.getLsbD 4) else s)

/-- What an injection does (Table 13-9; log entry 48). -/
def State.injAct (s : State) (kind site h : Nat) : State :=
  let mark (code : Nat) (heat : Option Nat) (s : State) : State :=
    { s with mar := { s.mar with inj := s.mar.inj ++ [(code, heat)] } }
  match kind with
  | 0 | 1 | 2 => (mark 0x201 (some h) s).report 0x201 site kind
  | 3 => (mark 0x205 (some h) s).setMark (spBase site / 8) 2
  | 4 => s.setMark (spBase site / 8) 1
  | 5 => ((mark 0x20B (some h) s).flag F.MSH_EVT_uncorrectable).report 0x20B site 0
  | 6 => (mark 0x204 (some h) s).modCore site fun c => { c with sigShadow := c.sigShadow ^^^ 1 }
  | 7 => (mark 0x20D (some h) s).modHal h fun x => { x with flip := true }
  | 8 => { mark 0x210 (some h) s with mar := { (mark 0x210 (some h) s).mar with mute := site :: s.mar.mute } }
  | 9 => (mark 0x20E (some h) s).report 0x20E site 0
  | 10 => (mark 0x306 none s).report 0x306 site 0
  | 11 => (mark 0x303 none s).report 0x303 site 0
  | 12 => (mark 0x301 none s).report 0x301 site 0
  | _ => s

/-- INJECTION_ACTS (R590, R591): at fc 0 of the position, or later where it was armed late. -/
def execInjectionActs (s : State) : Res :=
  let lap := s.get F.MAR_INJ_LAP_lap_lo + s.get F.MAR_INJ_POS_lap_hi * p2 32
  if s.on F.MAR_INJ_CTL_arm && lap * lapFc + 128 * s.get F.MAR_INJ_POS_stride ≤ s.now then
    let kind := s.get F.MAR_INJ_CTL_kind
    let site := s.get F.MAR_INJ_SITE_site
    let h := s.get F.MAR_INJ_SITE_heat
    let s := s.put F.MAR_INJ_CTL_arm 0
    if s.on F.MAR_SVC_on && s.injOk kind site h then
      .next (((s.put F.MAR_INJ_CTL_done 1).flag F.MAR_EVT_injected).injAct kind site h)
    else
      .next ((s.put F.MAR_INJ_CTL_cancelled 1).yellow
        { code := 0x117, heat := if kind ≤ 9 then some h else none, site := site })
  else .next s

/-! ### Console (R722, R723) -/

def marStateName (n : Nat) : String := List.getD ["reset", "selftest", "ready", "armed", "updating", "safe"] n "reset"

/-- MAR_SHOW's module line. -/
def State.marLine (s : State) : String :=
  join ["state=" ++ marStateName (s.get F.MAR_STATUS_state), kvp "lock" (s.get F.MAR_STATUS_lock),
    kvp "service" (s.get F.MAR_STATUS_service), kvp "fault_n" (s.get F.MAR_STATUS_fault_n),
    kvp "safe_stop" (s.get F.MAR_STATUS_safe_stop), kvp "yellow" (s.get F.MAR_CNT_YELLOW_count),
    kvp "red" (s.get F.MAR_CNT_RED_count), kvp "black" (s.get F.MAR_CNT_BLACK_count),
    kvp "lockwr" (s.get F.MAR_CNT_LOCKWR_count), kvp "audit" (s.get F.MAR_STATUS_audit)]

/-- The log, newest first. -/
def State.logNewest (s : State) : List LogEntry :=
  let next := s.get F.MAR_LOG_HEAD_next
  (List.range 1024).filterMap fun i => Tab.find s.mar.log ((next + 1023 - i) % 1024)

/-- The line of a heat's window, with its newest red or black entry. -/
def State.marHeatLine (s : State) (h : Nat) : String :=
  let win := if s.on (F.MAR_H_WIN_HI_valid h) then
    toString (s.get48 (F.MAR_H_WIN_LO_lap_lo h) (F.MAR_H_WIN_HI_lap_hi h)) else "-"
  let fail := if s.on (F.MAR_H_FAIL_HI_valid h) then toString (s.failLap h) else "-"
  let last := match s.logNewest.find? fun e => e.heat == some h && e.pen != .yellow with
    | some e => ["last=0x" ++ hexN 3 e.code ++ "@" ++ posFcStr e.lap (e.fc / 128) (e.fc % 128), kvp "site" e.site]
    | none => ["last=-"]
  join (["state=" ++ marStateName (s.get F.MAR_STATUS_state), kvp "lock" (s.get F.MAR_STATUS_lock),
    kvp "service" (s.get F.MAR_STATUS_service), kvp "heat" h, "win=" ++ win, "fail=" ++ fail,
    kvp "red" (s.get (F.MAR_H_FAIL_HI_red h)), kvp "taint" (s.get (F.MAR_H_FAIL_HI_taint h))] ++ last)

/-- MARSHAL_SHOW. -/
def execMarshalShow (l : Line) (s : State) : Res :=
  .next (s.command l { classC := false, modes := [.hold, .ready, .black], keys := [("heat", .num 0 31 1)] } fun a s =>
    .ok [match a.nat? "heat" with | some h => s.marHeatLine h | none => s.marLine] s)

/-- MARSHAL_SERVICE (R588). -/
def execMarshalService (l : Line) (s : State) : Res :=
  .next (s.command l { classC := true, modes := [.ready], keys := [("on", .num 0 1 1)], req := ["on"] } fun a s =>
    if s.locked then .err "0317 LOCKED" else .ok [] (s.setService (a.nat "on" == 1)))

/-- MARSHAL_INJECT (R589, R723). -/
def execMarshalInject (l : Line) (s : State) : Res :=
  let keys := [("kind", Form.num 0 12 1), ("site", .num 0 65535 1), ("heat", .num 0 31 1), ("at", .pos)]
  .next (s.command l { classC := true, modes := [.ready], keys := keys, req := ["kind", "site", "heat", "at"] } fun a s =>
    let (lap, stride, fc) := a.pos "at"
    let kind := a.nat "kind"
    let site := a.nat "site"
    let h := a.nat "heat"
    if !s.on F.MAR_SVC_on then .err "0610 SERVICE MODE REQUIRED"
    else if lap ≤ s.lapN then .err "0240 LAP TOO EARLY"
    else if fc.isSome then .errAt "0205 BAD POSITION" "at"
    else if !s.injOk kind site h then .err "0611 INJECTION TARGET INVALID"
    else
      let s := (s.put F.MAR_INJ_SITE_site site).put F.MAR_INJ_SITE_heat h
      let s := ((s.put F.MAR_INJ_LAP_lap_lo (lap % p2 32)).put F.MAR_INJ_POS_lap_hi (lap / p2 32)).put F.MAR_INJ_POS_stride stride
      .ok [] ((s.put F.MAR_INJ_CTL_arm 0).injArm kind true))

/-- MARSHAL_RESTORE (R574, R723). -/
def execMarshalRestore (l : Line) (s : State) : Res :=
  .next (s.command l { classC := true, modes := [.ready], keys := [("region", .num 0 255 1)], req := ["region"] } fun a s =>
    let r := a.nat "region"
    if s.isOut r then .wait { s with mar := { s.mar with restore := some (l, r) } }
    else .ok ["region=" ++ toString r ++ " restored=1"] s)

end Sys2Proof.Machine
end

