-- ==== Sys2Proof/Machine/Crypto.lean ====
section
/-! DEFINITION. The digest and the signature that R280, R281 and R524 name: SHA-384, and ECDSA over P-384 with SHA-384. -/

namespace Sys2Proof.Machine

/-! ### SHA-384 -/

namespace Sha

def k0 : List Nat :=
  [
    0x428A2F98D728AE22, 0x7137449123EF65CD, 0xB5C0FBCFEC4D3B2F, 0xE9B5DBA58189DBBC,
    0x3956C25BF348B538, 0x59F111F1B605D019, 0x923F82A4AF194F9B, 0xAB1C5ED5DA6D8118,
    0xD807AA98A3030242, 0x12835B0145706FBE, 0x243185BE4EE4B28C, 0x550C7DC3D5FFB4E2,
    0x72BE5D74F27B896F, 0x80DEB1FE3B1696B1, 0x9BDC06A725C71235, 0xC19BF174CF692694,
    0xE49B69C19EF14AD2, 0xEFBE4786384F25E3, 0x0FC19DC68B8CD5B5, 0x240CA1CC77AC9C65,
    0x2DE92C6F592B0275, 0x4A7484AA6EA6E483, 0x5CB0A9DCBD41FBD4, 0x76F988DA831153B5,
    0x983E5152EE66DFAB, 0xA831C66D2DB43210, 0xB00327C898FB213F, 0xBF597FC7BEEF0EE4,
    0xC6E00BF33DA88FC2, 0xD5A79147930AA725, 0x06CA6351E003826F, 0x142929670A0E6E70,
    0x27B70A8546D22FFC, 0x2E1B21385C26C926, 0x4D2C6DFC5AC42AED, 0x53380D139D95B3DF,
    0x650A73548BAF63DE, 0x766A0ABB3C77B2A8, 0x81C2C92E47EDAEE6, 0x92722C851482353B]

def k1 : List Nat :=
  [
    0xA2BFE8A14CF10364, 0xA81A664BBC423001, 0xC24B8B70D0F89791, 0xC76C51A30654BE30,
    0xD192E819D6EF5218, 0xD69906245565A910, 0xF40E35855771202A, 0x106AA07032BBD1B8,
    0x19A4C116B8D2D0C8, 0x1E376C085141AB53, 0x2748774CDF8EEB99, 0x34B0BCB5E19B48A8,
    0x391C0CB3C5C95A63, 0x4ED8AA4AE3418ACB, 0x5B9CCA4F7763E373, 0x682E6FF3D6B2B8A3,
    0x748F82EE5DEFB2FC, 0x78A5636F43172F60, 0x84C87814A1F0AB72, 0x8CC702081A6439EC,
    0x90BEFFFA23631E28, 0xA4506CEBDE82BDE9, 0xBEF9A3F7B2C67915, 0xC67178F2E372532B,
    0xCA273ECEEA26619C, 0xD186B8C721C0C207, 0xEADA7DD6CDE0EB1E, 0xF57D4F7FEE6ED178,
    0x06F067AA72176FBA, 0x0A637DC5A2C898A6, 0x113F9804BEF90DAE, 0x1B710B35131C471B,
    0x28DB77F523047D84, 0x32CAAB7B40C72493, 0x3C9EBE0A15C9BEBC, 0x431D67C49C100D4C,
    0x4CC5D4BECB3E42B6, 0x597F299CFC657E2A, 0x5FCB6FAB3AD6FAEC, 0x6C44198C4A475817]

/-- The 80 round constants: fractions of the cube roots of the first 80 primes. -/
def k : List Nat := k0 ++ k1

/-- The initial value: fractions of the square roots of the ninth to sixteenth primes. -/
def init : List Nat :=
  [
    0xCBBB9D5DC1059ED8, 0x629A292A367CD507, 0x9159015A3070DD17, 0x152FECD8F70E5939,
    0x67332667FFC00B31, 0x8EB44A8768581511, 0xDB0C2E0D64F98FA7, 0x47B5481DBEFA4FA4]

def ror (x n : Nat) : Nat := x / 2 ^ n + x % 2 ^ n * 2 ^ (64 - n)
def add (a b : Nat) : Nat := (a + b) % 2 ^ 64
def not (a : Nat) : Nat := 2 ^ 64 - 1 - a

/-- Sixteen words of a block, newest last, extended by `n` words of the message schedule. -/
def schedule : Nat → List Nat → List Nat
  | 0, w => w
  | n + 1, w =>
    let i := w.length
    let a := w.getD (i - 15) 0
    let b := w.getD (i - 2) 0
    let s0 := (ror a 1) ^^^ (ror a 8) ^^^ (a / 2 ^ 7)
    let s1 := (ror b 19) ^^^ (ror b 61) ^^^ (b / 2 ^ 6)
    schedule n (w ++ [add (add s1 (w.getD (i - 7) 0)) (add s0 (w.getD (i - 16) 0))])

/-- One round on the eight working variables. -/
def round (v : List Nat) (kw : Nat) : List Nat :=
  match v with
  | [a, b, c, d, e, f, g, h] =>
    let t1 := add (add h ((ror e 14) ^^^ (ror e 18) ^^^ (ror e 41))) (add ((e &&& f) ^^^ (not e &&& g)) kw)
    let t2 := add ((ror a 28) ^^^ (ror a 34) ^^^ (ror a 39)) ((a &&& b) ^^^ (a &&& c) ^^^ (b &&& c))
    [add t1 t2, a, b, c, add d t1, e, f, g]
  | _ => v

def block (h : List Nat) (ws : List Nat) : List Nat :=
  let w := schedule 64 ws
  List.zipWith add h ((List.zipWith add k w).foldl round h)

/-- A big-endian number of a list of bytes. -/
def be (l : List Byte) : Nat := l.foldl (fun a b => a * 256 + b.toNat) 0

/-- The bytes of a number, big-endian, `n` of them. -/
def beBytes (n v : Nat) : List Byte := (List.range n).map fun i => BitVec.ofNat 8 (v / 256 ^ (n - 1 - i))

/-- Words of eight bytes, `n` of them. -/
def words : Nat → List Byte → List Nat
  | 0, _ => []
  | n + 1, l => be (l.take 8) :: words n (l.drop 8)

def blocks : Nat → List Byte → List Nat → List Nat
  | 0, _, h => h
  | n + 1, l, h => blocks n (l.drop 128) (block h (words 16 (l.take 128)))

end Sha

/-- SHA-384 of a byte string (FIPS 180-4): 48 bytes. -/
def sha384 (m : List Byte) : List Byte :=
  let pad := (239 - m.length % 128) % 128
  let all := m ++ [0x80] ++ List.replicate pad 0 ++ Sha.beBytes 16 (m.length * 8)
  ((Sha.blocks (all.length / 128) all Sha.init).take 6).flatMap (Sha.beBytes 8)

/-! ### ECDSA over P-384 -/

namespace P384

def p : Nat := 2 ^ 384 - 2 ^ 128 - 2 ^ 96 + 2 ^ 32 - 1
def n : Nat := 0xFFFFFFFFFFFFFFFFFFFFFFFFFFFFFFFFFFFFFFFFFFFFFFFFC7634D81F4372DDF581A0DB248B0A77AECEC196ACCC52973
def b : Nat := 0xB3312FA7E23EE7E4988E056BE3F82D19181D9C6EFE8141120314088F5013875AC656398D8A2ED19D2A85C8EDD3EC2AEF
def gx : Nat := 0xAA87CA22BE8B05378EB1C71EF320AD746E1D3B628BA79B9859F741E082542A385502F25DBF55296C3A545E3872760AB7
def gy : Nat := 0x3617DE4A96262C6F5D9E98BF9292DC29F8F41DBD289A147CE9DA3113B5F0B8C00A60B1CE1D7E819D7A431D7C90EA0E5F

/-- A power modulo `m`, bit by bit of an exponent of `f` bits. -/
def pow (m : Nat) : Nat → Nat → Nat → Nat
  | 0, _, _ => 1
  | f + 1, x, e => (if e % 2 = 1 then x else 1) * pow m f (x * x % m) (e / 2) % m

/-- The inverse modulo a prime. -/
def inv (m x : Nat) : Nat := pow m 384 x (m - 2)

/-- A point in affine coordinates; none is the point at infinity. -/
abbrev Pt := Option (Nat × Nat)

def sub (x y : Nat) : Nat := (x + p - y) % p

def addPt : Pt → Pt → Pt
  | none, q => q
  | q, none => q
  | some (x1, y1), some (x2, y2) =>
    if x1 = x2 && (y1 + y2) % p = 0 then none
    else
      let l := if x1 = x2 then (3 * x1 * x1 + p - 3) * inv p (2 * y1 % p) % p
        else sub y2 y1 * inv p (sub x2 x1) % p
      let x3 := sub (l * l % p) ((x1 + x2) % p)
      some (x3, sub (l * sub x1 x3 % p) y1)

/-- A multiple of a point, bit by bit of a factor of `f` bits. -/
def mulPt : Nat → Nat → Pt → Pt
  | 0, _, _ => none
  | f + 1, e, q => addPt (if e % 2 = 1 then q else none) (mulPt f (e / 2) (addPt q q))

def onCurve (x y : Nat) : Bool :=
  decide (x < p) && decide (y < p) && (y * y % p == (x * x * x + (p - 3) * x + b) % p)

end P384

/-- ECDSA over P-384 with SHA-384 (FIPS 186-5): public key in SEC 1 uncompressed form, message, r and s of 48 bytes each,
big-endian (R280; log entry 5). -/
def ecdsaOk (key m sig : List Byte) : Bool :=
  let x := Sha.be ((key.drop 1).take 48)
  let y := Sha.be ((key.drop 49).take 48)
  let r := Sha.be (sig.take 48)
  let t := Sha.be ((sig.drop 48).take 48)
  if key.head? != some 4 || key.length != 97 || sig.length != 96 || !P384.onCurve x y || r == 0 || t == 0 ||
      decide (P384.n ≤ r) || decide (P384.n ≤ t) then false
  else
    let w := P384.inv P384.n t
    let u1 := Sha.be (sha384 m) * w % P384.n
    let u2 := r * w % P384.n
    match P384.addPt (P384.mulPt 384 u1 (some (P384.gx, P384.gy))) (P384.mulPt 384 u2 (some (x, y))) with
    | none => false
    | some (rx, _) => rx % P384.n == r

end Sys2Proof.Machine
end

