-- ==== Sys2Proof/Machine/Team.lean ====
section
/-! DEFINITION. Teams and their collective tables: what a commit derives, the checks of a table, the team check of a start
(R510 to R525). -/

namespace Sys2Proof.Machine

/-! ### The team block (R510 to R514) -/

/-- One axis of a team block: offset, extent, root and this module's coordinates, and the system's size. -/
structure TeamAxis where
  o : Nat
  e : Nat
  root : Nat
  here : Nat
  size : Nat
  deriving DecidableEq, Repr

/-- The three axes of TEAM_H_BLOCK and TEAM_H_ROOT values. -/
def State.teamAxes (s : State) (block root : Nat) : List TeamAxis :=
  [⟨bitsOf block 0 4, bitsOf block 4 4 + 1, bitsOf root 0 4, s.get F.BTN_TOPO_x, s.get F.BTN_TOPO_xd_m1 + 1⟩,
   ⟨bitsOf block 8 3, bitsOf block 11 3 + 1, bitsOf root 4 3, s.get F.BTN_TOPO_y, s.get F.BTN_TOPO_yd_m1 + 1⟩,
   ⟨bitsOf block 14 3, bitsOf block 17 3 + 1, bitsOf root 7 3, s.get F.BTN_TOPO_z, s.get F.BTN_TOPO_zd_m1 + 1⟩]

/-- This module's team coordinate on an axis. -/
def TeamAxis.at_ (a : TeamAxis) : Nat := (a.here + a.size - a.o % a.size) % a.size

/-- Steps toward the root the positive and the negative way. -/
def TeamAxis.ways (a : TeamAxis) (i : Nat) : Nat × Nat := ((a.root + a.e - i % a.e) % a.e, (i + a.e - a.root % a.e) % a.e)

/-- Whether a step from coordinate `i` toward the root goes the positive way. -/
def TeamAxis.plus (a : TeamAxis) (i : Nat) : Bool :=
  if a.e = a.size then let (f, b) := a.ways i; decide (f ≤ b) else decide (i < a.root)

/-- Distance of coordinate `i` from the root (R514). -/
def TeamAxis.dist (a : TeamAxis) (i : Nat) : Nat :=
  if a.e = a.size then let (f, b) := a.ways i; min f b else max a.root i - min a.root i

def TeamAxis.depth (a : TeamAxis) : Nat := ((List.range a.e).map a.dist).foldl max 0

/-- A coordinate's neighbour on an axis, where the block holds one. -/
def TeamAxis.step (a : TeamAxis) (i : Nat) (plus : Bool) : Option Nat :=
  if a.e = 1 then none
  else if a.e = a.size then some (if plus then (i + 1) % a.e else (i + a.e - 1) % a.e)
  else if plus then (if i + 1 < a.e then some (i + 1) else none)
  else (if i = 0 then none else some (i - 1))

/-- The axis and way of the parent of a member: the first axis on which it differs from the root. -/
def parentOf (axes : List TeamAxis) (at_ : List Nat) : Option (Nat × Bool) :=
  ((axes.zip at_).zipIdx.find? fun x => x.1.2 != x.1.1.root).map fun x => (x.2, x.1.1.plus x.1.2)

/-- The port of a direction: the lower of its pair, or the higher where the lower is not up. -/
def State.dirPort (s : State) (axis : Nat) (plus : Bool) : Nat :=
  let lo := 4 * axis + (if plus then 0 else 2)
  if s.portUp lo then lo else lo + 1

/-- The module lies in its team block. -/
def inBlock (axes : List TeamAxis) : Bool := axes.all fun a => decide (a.at_ < a.e)

/-- HAL_H_TREE of a member (R513, R514): parent port, children, depth. -/
def State.teamTree (s : State) (axes : List TeamAxis) : Nat × Nat × Nat :=
  let here := axes.map TeamAxis.at_
  let parent := match parentOf axes here with
    | some (ax, plus) => s.dirPort ax plus
    | none => 15
  let child (ax : Nat) (plus : Bool) : Nat :=
    match axes[ax]? with
    | some a =>
      match a.step a.at_ plus with
      | some j => if parentOf axes (here.set ax j) == some (ax, !plus) then p2 (s.dirPort ax plus) else 0
      | none => 0
    | none => 0
  let kids := ((List.range 3).map fun ax => child ax true + child ax false).sum
  (parent, kids, (axes.map TeamAxis.depth).sum)

/-- Member index (R511). -/
def memberOf (axes : List TeamAxis) : Nat :=
  match axes with
  | [x, y, z] => x.at_ + x.e * y.at_ + x.e * y.e * z.at_
  | _ => 0

/-! ### The collective table (R518 to R522) -/

/-- The words of a heat's collective table: descriptors, buffers, auxiliary words. -/
structure TeamTable where
  cd : List (List Nat)
  buf : List (List Nat)
  aux : List Nat
  deriving DecidableEq, Repr

/-- A heat's table read from a register file: its active or its staged copies. -/
def teamTable (rd : Reg → Nat) (h : Nat) : TeamTable :=
  { cd := (List.range 64).map fun c => (List.range 16).map fun w => rd (R.TEAM_H_CD h c w)
    buf := (List.range 64).map fun n => (List.range 4).map fun w => rd (R.TEAM_H_BUF h n w)
    aux := (List.range 1024).map fun a => rd (R.TEAM_H_AUX h a) }

/-- One axis of a group spec: offset, extent, step, span (R515). -/
structure GroupAxis where
  go : Nat
  ge : Nat
  gs : Nat
  span : Bool
  deriving DecidableEq, Repr

namespace CD
def w (d : List Nat) (i : Nat) : Nat := d.getD i 0
def kind (d : List Nat) : Nat := bitsOf (w d 0) 0 4
def op (d : List Nat) : Nat := bitsOf (w d 0) 4 2
def circ (d : List Nat) : Nat := bitsOf (w d 0) 6 2
def type (d : List Nat) : Nat := bitsOf (w d 0) 8 2
def wire (d : List Nat) : Nat := bitsOf (w d 0) 10 2
def bg (d : List Nat) : Bool := bitsOf (w d 0) 12 1 == 1
def axes (d : List Nat) : List GroupAxis :=
  [⟨bitsOf (w d 1) 0 4, bitsOf (w d 1) 4 4 + 1, bitsOf (w d 1) 8 4 + 1, bitsOf (w d 1) 12 1 == 1⟩,
   ⟨bitsOf (w d 1) 16 3, bitsOf (w d 1) 19 3 + 1, bitsOf (w d 1) 22 3 + 1, bitsOf (w d 1) 25 1 == 1⟩,
   ⟨bitsOf (w d 2) 0 3, bitsOf (w d 2) 3 3 + 1, bitsOf (w d 2) 6 3 + 1, bitsOf (w d 2) 9 1 == 1⟩]
def k (d : List Nat) : Nat := bitsOf (w d 2) 16 11
def src (d : List Nat) : Nat := bitsOf (w d 3) 0 6
def dst (d : List Nat) : Nat := bitsOf (w d 3) 8 6
def flag (d : List Nat) : Nat := bitsOf (w d 3) 16 6
def bytes (d : List Nat) : Nat := w d 4
def aux (d : List Nat) : Nat := bitsOf (w d 5) 0 10
def nmax (d : List Nat) : Nat := bitsOf (w d 5) 16 16
def chunk (d : List Nat) : Nat := bitsOf (w d 6) 0 16
def nrelay (d : List Nat) : Nat := bitsOf (w d 6) 16 11
def phases (d : List Nat) : Nat := bitsOf (w d 7) 0 16
/-- Group size (R516). -/
def size (d : List Nat) : Nat := (axes d).foldl (fun n a => n * (if a.span then a.ge else 1)) 1
/-- Reserved bits of Table 12-1. -/
def clean (d : List Nat) : Bool :=
  ([(0, 13, 19), (1, 13, 3), (1, 26, 6), (2, 10, 6), (2, 27, 5), (3, 6, 2), (3, 14, 2), (3, 22, 10), (5, 10, 6),
    (6, 27, 5), (7, 16, 16)].all fun r => bitsOf (w d r.1) r.2.1 r.2.2 == 0) && (d.drop 8).all (· == 0)
end CD

namespace BufW
def base (b : List Nat) : Nat := b.getD 0 0 + b.getD 1 0 % 65536 * p2 32
def len (b : List Nat) : Nat := b.getD 2 0
def valid (b : List Nat) : Bool := bitsOf (b.getD 3 0) 0 1 == 1
def uniform (b : List Nat) : Bool := bitsOf (b.getD 3 0) 1 1 == 1
def paged (b : List Nat) : Bool := bitsOf (b.getD 3 0) 2 1 == 1
end BufW

/-- Two different buffers share a byte: contiguous ones of one addressing form, by their ranges (log entry 44). -/
def buffersMeet (a b : List Nat) : Bool :=
  BufW.uniform a == BufW.uniform b && !BufW.paged a && !BufW.paged b &&
    decide (BufW.base a < BufW.base b + 32 * BufW.len b) && decide (BufW.base b < BufW.base a + 32 * BufW.len a)

/-- The spec of a descriptor fits the largest team block (R515, R516). -/
def specFits (d : List Nat) : Bool :=
  (((CD.axes d).zip [16, 8, 8]).all fun x => decide (x.1.go + (x.1.ge - 1) * x.1.gs < x.2)) &&
    decide (2 ≤ CD.size d) && decide (CD.size d ≤ 1024)

/-- The fields of a kind hold no reserved encoding (Table 12-1). -/
def kindOk (d : List Nat) : Bool :=
  let k := CD.kind d
  decide (k ≤ 3) && CD.type d != 3 && CD.wire d != 3 &&
    (if k = 2 then CD.op d != 3 && CD.circ d != 0 else CD.op d == 0 && CD.circ d == 0) &&
    (k != 0 || CD.k d != 0) && (k != 3 || CD.nmax d != 0) &&
    (!CD.bg d || (decide (1 ≤ CD.chunk d) && decide (CD.chunk d ≤ 2048) && decide (1 ≤ CD.nrelay d))) &&
    CD.phases d == (if k = 2 && CD.circ d = 3 then 2 else 1)

/-- The first `n` numbers in some order. -/
def permOk (l : List Nat) (n : Nat) : Bool := l.length == n && (List.range n).all fun j => l.contains j

/-- One descriptor passes Table 12-3. A length in 32-byte units is always whole elements. -/
def TeamTable.descOk (t : TeamTable) (d : List Nat) : Bool :=
  let buf (n : Nat) : List Nat := t.buf.getD n []
  let src := buf (CD.src d)
  let dst := buf (CD.dst d)
  let flag := buf (CD.flag d)
  let n := CD.size d
  let k := CD.kind d
  let chunks := (BufW.len dst + CD.chunk d - 1) / CD.chunk d
  kindOk d && CD.clean d && specFits d && BufW.valid src && BufW.valid dst && BufW.valid flag &&
    (if CD.src d = CD.dst d then k == 2 else !buffersMeet src dst) &&
    (k == 3 || (BufW.len src == CD.bytes d && BufW.len dst == CD.bytes d)) &&
    (k != 2 || CD.bytes d % n == 0) &&
    (k != 1 || (decide (CD.aux d + n ≤ 1024) && permOk ((t.aux.drop (CD.aux d)).take n) n)) &&
    (k != 3 || decide (CD.aux d + n ≤ 1024)) &&
    (!CD.bg d || decide (4 * chunks ≤ 32 * BufW.len flag))

/-- Descriptors of the table that are not empty entries. -/
def TeamTable.used (t : TeamTable) : List (List Nat) := t.cd.filter fun d => CD.kind d != 15

/-- The table passes Table 12-3. -/
def TeamTable.ok (t : TeamTable) : Bool := t.used.all t.descOk

/-- TEAM_H_DIGEST (R524): the first 8 bytes of the digest of the descriptor and auxiliary words. -/
def TeamTable.digest (t : TeamTable) : Nat :=
  leNat ((sha384 ((t.cd.flatten ++ t.aux).flatMap fun w => leBytes w 4)).take 8)

/-! ### Local checks of a start (Table 12-4) -/

/-- This member's position in its group, where it takes part (R515, R516). -/
def positionIn (d : List Nat) (here : List Nat) : Option Nat :=
  let js := ((CD.axes d).zip here).map fun x =>
    if x.1.go ≤ x.2 && (x.2 - x.1.go) % x.1.gs = 0 && (x.2 - x.1.go) / x.1.gs < x.1.ge then
      some ((x.2 - x.1.go) / x.1.gs, if x.1.span then x.1.ge else 1, x.1.span) else none
  match js with
  | [some x, some y, some z] =>
    let j (a : Nat × Nat × Bool) : Nat := if a.2.2 then a.1 else 0
    some (j x + x.2.1 * (j y + y.2.1 * j z))
  | _ => none

/-- An EXCHANGE's buffers are shorter than Table 12-7 requires for this member. -/
def TeamTable.short (t : TeamTable) (here : List Nat) (d : List Nat) : Bool :=
  match CD.kind d, positionIn d here with
  | 3, some j =>
    let n := CD.size d
    let esz := 32 * CD.bytes d
    let src := ((4 + 2 * CD.nmax d) + 31) / 32 * 32 + CD.nmax d * esz
    let dst := (8 * n + 31) / 32 * 32 + n * t.aux.getD (CD.aux d + j) 0 * esz
    decide (32 * BufW.len (t.buf.getD (CD.src d) []) < src) || decide (32 * BufW.len (t.buf.getD (CD.dst d) []) < dst)
  | _, _ => false

/-- A heat's team setup fails a local check: `ERR 0345`. The ports in question are both pairs of every spanning axis, and
the tree's own (DEDUCED, log entry 44). -/
def State.teamSetupBad (s : State) (h : Nat) : Bool :=
  let axes := s.teamAxes (s.rdA (R.TEAM_H_BLOCK h)) (s.rdA (R.TEAM_H_ROOT h))
  let t := teamTable s.rdA h
  let spans (ax : Nat) : Bool := t.used.any fun d => match (CD.axes d)[ax]? with
    | some a => a.span && decide (2 ≤ a.ge)
    | none => false
  let tree (p : Nat) : Bool := s.halParent h == p || bitsOf (s.getA (F.HAL_H_TREE_children h)) p 1 == 1
  let ports := (List.range 12).filter fun p => spans (p / 4) || tree p
  !inBlock axes || (ports.any fun p => !s.ownsPort h p || !s.portUp p) ||
    t.used.any (t.short (axes.map TeamAxis.at_)) || (ports.any fun p => s.on (F.BTN_P_STATUS_long p)) || !t.ok

/-! ### The team check (R523 to R525; log entry 34) -/

/-- The configuration word: blat, the rank count, the team block and root. -/
def State.teamConfig (s : State) (h : Nat) : Nat :=
  s.get F.BTN_CFG_blat + s.getA (F.HAL_H_RANKS_count_m1 h) * p2 11 + s.rdA (R.TEAM_H_BLOCK h) % p2 20 * p2 22 +
    s.rdA (R.TEAM_H_ROOT h) % p2 10 * p2 42

/-- The digest word. -/
def State.teamDigest (s : State) (h : Nat) : Nat := s.rd (R.TEAM_H_DIGEST_LO h) + s.rd (R.TEAM_H_DIGEST_HI h) * p2 32

/-- Order of I64 values. -/
def i64Key (x : Nat) : Nat := (x + p2 63) % p2 64
def i64Max (a b : Nat) : Nat := if i64Key a < i64Key b then b else a
def i64Min (a b : Nat) : Nat := if i64Key b < i64Key a then b else a

/-- The number that marks a team check's frames. -/
def teamCheckOp : Nat := 0xFFFF

/-- A report's frame toward the parent; a verdict's toward the children. -/
def State.reportFrame (s : State) (h : Nat) (r : TeamReport) : List Flit :=
  [halFlit0 s.selfAddr h teamCheckOp 0 2 0 0 2, BitVec.ofNat 256 r.lap,
   BitVec.ofNat 256 (r.hi0 + r.lo0 * p2 64 + r.hi1 * p2 128 + r.lo1 * p2 192)]
def State.verdictFrame (s : State) (h lap status : Nat) : List Flit :=
  [halFlit0 s.selfAddr h teamCheckOp 1 2 status 0 1, BitVec.ofNat 256 lap]

/-- A team start ends in an error: the heat is stopped again (R525). -/
def State.startFails (s : State) (h check : Nat) (err : String) : State :=
  let l := (s.heat h).start
  let s := (s.put (F.TEAM_H_STATUS_check h) check).put F.TEAM_STATUS_checked
    (Nat.lor (s.get F.TEAM_STATUS_checked) (p2 h) - p2 h)
  let s := s.flag F.TEAM_EVT_check_fail
  let s := (s.modHeat h fun r => { r with start := none }).setHeatSt h 1
  match l with
  | some (_, _, some l) => s.replyC l [] ("ERR " ++ err)
  | _ => s

/-- The team check of start lap `lap` has ended: 0 passed, else the members differ. -/
def State.teamVerdict (s : State) (h lap status : Nat) : State :=
  match (s.heat h).start with
  | some (at_, res, some l) =>
    if at_ ≠ lap then s
    else if status = 0 then
      let s := (s.put (F.TEAM_H_STATUS_check h) 1).put F.TEAM_STATUS_checked (Nat.lor (s.get F.TEAM_STATUS_checked) (p2 h))
      (s.modHeat h fun r => { r with start := some (at_, res, none) }).okC l []
    else (s.flag F.TEAM_EVT_mismatch).startFails h 2 "0343 TEAM TABLE MISMATCH"
  | _ => s

/-- When every child has reported for this start's lap, the report goes to the parent; the root lowers its verdict. -/
def State.teamCheckTry (s : State) (h : Nat) : State :=
  match (s.heat h).start with
  | some (lap, _, some _) =>
    let all := Tab.get [] s.team.reports h
    let mine := all.filter fun r => r.lap == lap
    if (s.kids h).all fun p => mine.any fun r => r.port == p then
      let d := s.teamDigest h
      let c := s.teamConfig h
      let sum := mine.foldl (fun a r =>
        ⟨15, lap, i64Max a.hi0 r.hi0, i64Min a.lo0 r.lo0, i64Max a.hi1 r.hi1, i64Min a.lo1 r.lo1⟩) ⟨15, lap, d, d, c, c⟩
      let s := { s with team := { reports := Tab.put h (all.filter fun r => r.lap != lap) s.team.reports } }
      if s.halParent h = 15 then
        let st := if sum.hi0 = sum.lo0 && sum.hi1 = sum.lo1 then 0 else 5
        (s.sendFrames (s.kids h) [s.verdictFrame h lap st]).teamVerdict h lap st
      else s.sendFrames [s.halParent h] [s.reportFrame h sum]
    else s
  | _ => s

/-- A frame of a team check at a member. -/
def State.teamCheckFrame (s : State) (h port : Nat) (fs : List Flit) : State :=
  match fs with
  | f :: l :: body =>
    let lap := l.toNat % p2 48
    if bitsOf f.toNat 31 1 = 1 then (s.sendFrames (s.kids h) [fs]).teamVerdict h lap (bitsOf f.toNat 36 4)
    else
      let x := (body.headD 0).toNat
      let r : TeamReport := ⟨port, lap, bitsOf x 0 64, bitsOf x 64 64, bitsOf x 128 64, bitsOf x 192 64⟩
      let s := { s with team := { reports := Tab.put h (Tab.get [] s.team.reports h ++ [r]) s.team.reports } }
      s.teamCheckTry h
  | _ => s

/-- TEAM_CHECK_DEADLINE (R525): an unfinished team check fails at the boundary of lap L − 1. -/
def execTeamCheckDeadline (h : HeatId) (s : State) : Res :=
  let h := h.toNat
  match (s.heat h).start with
  | some (lap, _, some _) =>
    if s.heatSt h = 2 && s.halTeam h && decide (lap ≤ s.lapN + 1) then
      let s := { s with team := { reports := Tab.put h [] s.team.reports } }
      .next ((s.flag F.TEAM_EVT_incomplete).startFails h 3 "0344 TEAM INCOMPLETE")
    else .next s
  | _ => .next s

/-- A Halyard frame at a port: a team check's frame of a team heat, or one of its operations. -/
def State.halyardIn (s : State) (port : Nat) (fs : List Flit) : State :=
  match fs with
  | f :: _ =>
    let h := bitsOf f.toNat 10 5
    if s.halTeam h && bitsOf f.toNat 15 16 = teamCheckOp && bitsOf f.toNat 32 4 ≠ 0xF then s.teamCheckFrame h port fs
    else s.halFrame port fs
  | [] => s

end Sys2Proof.Machine
end

