-- ==== Sys2Proof/Machine/Baton.lean ====
section
/-! DEFINITION. The Baton links: frames, alignment, nesting, retry, training and bulk transport (R462 to R509). -/

namespace Sys2Proof.Machine

/-! ### Frame headers (Table 11-2) -/

namespace BH

def marker : Nat := 0x71E80C5BD392A64E

/-- CRC-8 over bits [247:64]. -/
def crc (x : Nat) : Nat := crc8 ((List.range 23).map fun i => bitsOf x (64 + 8 * i) 8)

def isMark (f : Flit) : Bool := bitsOf f.toNat 0 64 == marker
def ok (f : Flit) : Bool := isMark f && bitsOf f.toNat 248 8 == crc f.toNat
def side (f : Flit) (i : Nat) : Nat := bitsOf f.toNat (64 + 6 * i) 6
def pcrc (f : Flit) : Nat := bitsOf f.toNat 160 16
def rel (f : Flit) : Nat := bitsOf f.toNat 176 16
def cls (f : Flit) : Nat := bitsOf f.toNat 192 2
def kind (f : Flit) : Nat := bitsOf f.toNat 194 2
def len (f : Flit) : Nat := bitsOf f.toNat 196 4 + 1
def seq (f : Flit) : Nat := bitsOf f.toNat 200 12
def ackB (f : Flit) : Nat := bitsOf f.toNat 212 12
def ackX (f : Flit) : Nat := bitsOf f.toNat 224 12
def nakB (f : Flit) : Bool := bitsOf f.toNat 236 1 == 1
def nakX (f : Flit) : Bool := bitsOf f.toNat 237 1 == 1
def ins (f : Flit) : Nat := bitsOf f.toNat 238 6
def nr (f : Flit) : Bool := bitsOf f.toNat 244 1 == 1
def tr (f : Flit) : Nat := bitsOf f.toNat 245 2

/-- A class or kind that is reserved (R482). -/
def reserved (f : Flit) : Bool := decide (2 ≤ cls f) || (cls f == 0 && decide (2 ≤ kind f))

end BH

/-- One step of the CRC-16 with polynomial 0x1021. -/
def crc16Byte (crc b : Nat) : Nat :=
  (List.range 8).foldl (fun c _ => if 32768 ≤ c then ((c * 2) % 65536) ^^^ 0x1021 else c * 2) (crc ^^^ (b * 256))

/-- Bytes of a flit, byte 0 first (R466). -/
def flitBytes (f : Flit) : List Nat := (List.range 32).map fun i => bitsOf f.toNat (8 * i) 8

/-- CRC-16 over payload flits, initial value 0xFFFF (Table 11-2; log entry 49). -/
def payCrc (fs : List Flit) : Nat := (fs.flatMap flitBytes).foldl crc16Byte 0xFFFF

/-! ### The scrambler (R474) -/

/-- The key of one flit from the scrambler's state, bit 0 first, and the state after it. -/
def scramKey : Nat → Nat → Nat → Nat → Nat × Nat
  | 0, _, k, st => (k, st)
  | n + 1, i, k, st =>
    let o := (st / p2 30 + st / p2 27) % 2
    scramKey n (i + 1) (k + o * p2 i) ((st * 2 + o) % p2 31)

/-- Scramble, or descramble, the payload of a frame. -/
def scramble : Nat → List Flit → List Flit
  | _, [] => []
  | st, f :: fs =>
    let (k, st) := scramKey 256 0 0 st
    (f ^^^ BitVec.ofNat 256 k) :: scramble st fs

/-- The scrambler's first state. -/
def scramInit (cls tr seq : Nat) : Nat := 0x40000000 + cls * p2 28 + tr % 4 * p2 26 + seq * p2 12 + 0x5A3

/-! ### Ports (R501 to R507, R775) -/

/-- The size of a port's axis. -/
def State.axisSize (s : State) (p : Nat) : Nat :=
  match p / 4 with
  | 0 => s.get F.BTN_TOPO_xd_m1 + 1
  | 1 => s.get F.BTN_TOPO_yd_m1 + 1
  | _ => s.get F.BTN_TOPO_zd_m1 + 1

/-- Enabled, on an axis of a size above 1, and in service. -/
def State.portEnabled (s : State) (p : Nat) : Bool :=
  s.on (F.BTN_P_CTL_en p) && decide (1 < s.axisSize p) && bitsOf (s.get F.STA_OOSX_ports) p 1 == 0

def State.portSt (s : State) (p : Nat) : Nat := s.get (F.BTN_P_STATUS_state p)
def State.setPort (s : State) (p st : Nat) : State := s.put (F.BTN_P_STATUS_state p) st

/-- An `EVT baton` line (Table 16-9). -/
def State.evtBaton (s : State) (p : Nat) (what : String) : State :=
  s.evt 2 ("EVT baton " ++ s.posText ++ " port=" ++ toString p ++ " state=" ++ what)

/-- The address of a port's expected neighbour (R506). -/
def State.neighbourAddr (s : State) (p : Nat) : Nat :=
  let xd := s.get F.BTN_TOPO_xd_m1 + 1
  let yd := s.get F.BTN_TOPO_yd_m1 + 1
  let n := s.axisSize p
  let go (c : Nat) : Nat := if p % 4 < 2 then (c + 1) % n else (c + n - 1) % n
  let x := s.get F.BTN_TOPO_x
  let y := s.get F.BTN_TOPO_y
  let z := s.get F.BTN_TOPO_z
  match p / 4 with
  | 0 => go x + xd * y + xd * yd * z
  | 1 => x + xd * go y + xd * yd * z
  | _ => x + xd * y + xd * yd * go z

/-- The port of the neighbour that a port is cabled to (R506). -/
def peerPort (p : Nat) : Nat := if p % 4 < 2 then p + 2 else p - 2

/-- Training begins: step 1 of R501, the estimate of R52 anew. -/
def State.trainStart (s : State) (p : Nat) : State :=
  let s := s.setPort p 3
  let s := (s.put (F.BTN_P_STATUS_local_nr p) 1).put (F.BTN_P_PEER_valid p) 0
  let s := (s.put (F.BTN_P_STATUS_cw_lock p) 0).put (F.BTN_P_STATUS_fr_lock p) 0
  let s := s.modLapPort p fun x => { x with samples := [] }
  s.modPort p fun b => { b with step := 1, since := s.boot.ms, probes := 0, cwOff := 0, cwGood := 0, cwBad := 0 }

/-- A port goes down (R503): its replay and receive buffers are discarded and the cause recorded; with auto, or after a
retrain, it trains again. A port that is disabled, idle, quiet or down already stays as it is. -/
def State.portDown (s : State) (p cause : Nat) : State :=
  if s.portSt p < 3 || (s.portSt p = 7 && cause ≠ 7) then s
  else
    let s := ((s.setPort p 7).put (F.BTN_P_STATUS_cause p) cause).flag F.BTN_EVT_down
    let s := ((s.put (F.BTN_P_STATUS_cw_lock p) 0).put (F.BTN_P_STATUS_fr_lock p) 0).put (F.BTN_P_STATUS_peer_nr p) 1
    let s := s.put (F.BTN_P_STATUS_local_nr p) 1
    let s := s.modPort p fun b => { b with
      replayB := [], replayX := [], againB := [], againX := [], curB := [], curX := [], rxBuf := [], cands := [], cwGood := 0, cwBad := 0, ueLap := 0, hdrBad := 0, xEnd := 0, dropB := false }
    let s := s.tunnelClose
    let s := (s.evtBaton p ("down cause=" ++ toString cause)).yellow { code := 0x110, site := p, detail := cause }
    if (s.on (F.BTN_P_CTL_auto p) || cause = 7) && s.portEnabled p then s.trainStart p else s

/-- A port whose training has ended: up, or waiting for its peer (R502). -/
def State.portReady (s : State) (p : Nat) : State :=
  if s.on (F.BTN_P_STATUS_peer_nr p) then s.setPort p 4
  else if s.portUp p then s
  else ((s.setPort p 5).flag F.BTN_EVT_up).evtBaton p "up"

/-- The peer shows or clears nr (R500, R502). -/
def State.peerNr (s : State) (p : Nat) (nr : Bool) : State :=
  let s := s.putB (F.BTN_P_STATUS_peer_nr p) nr
  if s.portSt p = 4 || s.portSt p = 5 then s.portReady p else s

/-- A link-management frame of this port's identity (Table 11-4). -/
def State.identityFlits (s : State) (p : Nat) : List Flit :=
  [0, BitVec.ofNat 256 (s.selfAddr + p * p2 10 + s.get F.BTN_TOPO_xd_m1 * p2 14 + s.get F.BTN_TOPO_yd_m1 * p2 18 +
    s.get F.BTN_TOPO_zd_m1 * p2 21 + s.get F.BTN_CFG_blat * p2 24)]

/-- The delay check (R498) and the end of training. -/
def State.trainEnd (s : State) (p : Nat) : State :=
  let long := decide (s.get F.BTN_CFG_blat * 16 < s.get (F.LAP_DELAY_delay p) + 80 * 16)
  let s := s.putB (F.BTN_P_STATUS_long p) long
  let s := if long then ((s.flag F.BTN_EVT_long).evtBaton p "long").yellow { code := 0x112, site := p } else s
  let s := s.put (F.BTN_P_STATUS_local_nr p) 0
  let s := s.put (F.BTN_P_STATUS_train p) (min 4095 (s.boot.ms - (s.port p).since))
  (s.modPort p fun b => { b with step := 0 }).portReady p

/-- The steps of R501 that are ready, at most `n` of them: 1 adaptation, 2 codeword lock, 3 frame lock, 4 the first
identity frame, 5 identities accepted both ways, 6 sixteen probes, 7 the check against blat. -/
def State.trainSteps (s : State) (p : Nat) : Nat → State
  | 0 => s
  | n + 1 =>
    let b := s.port p
    let to_ (s : State) (k : Nat) : State := s.modPort p fun b => { b with step := k }
    let identity (s : State) : State := s.express p 2 (s.identityFlits p)
    match b.step with
    | 1 => State.trainSteps (to_ s 2) p n
    | 2 => if s.on (F.BTN_P_STATUS_cw_lock p) then State.trainSteps (to_ s 3) p n else s
    | 3 => if s.on (F.BTN_P_STATUS_fr_lock p) then State.trainSteps (to_ s 4) p n else s
    | 4 => to_ (identity s) 5
    | 5 =>
      if s.on (F.BTN_P_PEER_valid p) && b.replayX.isEmpty && (Tab.get [] b.exQ 2).isEmpty then
        State.trainSteps (to_ s 6) p n
      else if (Tab.get [] b.exQ 2).isEmpty then identity s
      else s
    | 6 => if 16 ≤ b.probes then s.trainEnd p else s
    | _ => s

/-- PORT_TRAINING (R501): a training port takes every step that is ready, and sends its identity again. -/
def execPortTraining (port : PortId) (s : State) : Res :=
  .next (if s.portSt port.val = 3 && !(s.port port.val).held then s.trainSteps port.val 7 else s)

/-- TRAINING_TIMEOUT (R501): 100 ms after S-16 began, 200 ms under alternative A (Table 15-5), the port is reported to
it as not trained and trains on. -/
def execTrainingTimeout (port : PortId) (s : State) : Res :=
  let limit := if s.get (F.STA_STEP_alt 16) = 1 then 200 else 100
  .next (if s.portSt port.val = 3 && s.boot.step = 16 && decide (s.boot.t0 + s.boot.stepMs + limit ≤ s.boot.ms) then
      { s with boot := { s.boot with untrained := port.val :: s.boot.untrained } }
    else s)

/-- TRANSCEIVER_INSERTED (R776, R777): powered 100 ms after its presence is sensed; above 12 W it stays in low-power
mode. -/
def execTransceiverInserted (port : PortId) (long_ : Bool) (s : State) : Res :=
  let p := port.val
  if !s.portEnabled p || s.boot.step < 16 then .next s
  else
    let s := s.modPort p fun b => { b with held := long_ }
    .next (if s.on (F.BTN_P_CTL_auto p) && s.portSt p ≠ 5 then s.trainStart p else s)

/-- LOSS_OF_SIGNAL (R503, R777). -/
def execLossOfSignal (port : PortId) (s : State) : Res := .next (s.portDown port.val 1)

/-- FRAME_LOCK_TIMEOUT (R503): frame lock not regained within 1 ms, 1,200,000 fc. -/
def execFrameLockTimeout (port : PortId) (s : State) : Res :=
  .next (if s.on (F.BTN_P_STATUS_fr_lock port.val) || s.portSt port.val = 3 || s.now < (s.port port.val).frLost + 1200000 then s
    else s.portDown port.val 3)

/-- Write BTN_P_CTL: the enables, then a retrain (R503, Table 11-8). A port newly enabled trains as after an insertion
(R777), one newly disabled leaves every other state. -/
def State.portCtl (s : State) (p v : Nat) : State :=
  let was := s.portEnabled p
  let s := (s.put (F.BTN_P_CTL_en p) (bitsOf v 0 1)).put (F.BTN_P_CTL_auto p) (bitsOf v 2 1)
  let is := s.portEnabled p
  let s :=
    if was && !is then s.setPort p 0
    else if !was && is then
      if s.boot.step < 7 then s.setPort p 1
      else if s.boot.step < 16 || !s.on (F.BTN_P_CTL_auto p) then s.setPort p 2
      else s.trainStart p
    else s
  if bitsOf v 1 1 = 1 && is then s.portDown p 7 else s

/-- BTN_P_CTL_RETRAIN (R503): a write of BTN_P_CTL. -/
def execBtnPCtlRetrain (_p : Path) (port : PortId) (v : Word) (s : State) : Res := .next (s.portCtl port.val v.toNat)

/-! ### Codeword lock (R467, R468, R503) -/

/-- CODEWORD_RECEIVED: the symbols that the eight lanes bring at the offset tried. -/
def execCodewordReceived (port : PortId) (lanes : List (List (BitVec 10))) (s : State) : Res :=
  let p := port.val
  let outcome := rsOutcome (fromLanes lanes)
  let bad := outcome == 2
  if s.portSt p < 3 || s.portSt p = 7 then .next s
  else if !s.on (F.BTN_P_STATUS_cw_lock p) then
    if bad then .next (s.modPort p fun b => { b with cwOff := (b.cwOff + 1) % 544, cwGood := 0 })
    else
      let s := s.modPort p fun b => { b with cwGood := b.cwGood + 1, cwBad := 0 }
      .next (if 4 ≤ (s.port p).cwGood then s.put (F.BTN_P_STATUS_cw_lock p) 1 else s)
  else if !bad then
    let s := if outcome = 1 then s.bump (F.BTN_P_CNT_CE_count p) else s
    .next (s.modPort p fun b => { b with cwBad := 0 })
  else
    let s := (s.bump (F.BTN_P_CNT_UE_count p)).modPort p fun b => { b with cwBad := b.cwBad + 1, ueLap := b.ueLap + 1 }
    .next (if 8 ≤ (s.port p).cwBad then s.portDown p 2
      else if s.get F.BTN_CFG_ue_down < (s.port p).ueLap then s.portDown p 5
      else s)

/-! ### Retry (R483 to R487) -/

/-- Sequence number `a` lies before `b`, modulo 4,096 within 2,048. -/
def seqBefore (a b : Nat) : Bool := a != b && decide ((b + 4096 - a) % 4096 ≤ 2048)

/-- Send a class's outstanding frames again, or take the port down where one has been sent again 16 times. -/
def State.resend (s : State) (p : Nat) (x : Bool) : State :=
  let b := s.port p
  let frames := if x then b.replayX else b.replayB
  if frames.any fun f => decide (16 ≤ f.tries) then (s.flag F.BTN_EVT_retry_limit).portDown p 4
  else
    let fs := frames.map fun f => { f with tries := f.tries + 1 }
    let s := s.bump (F.BTN_P_CNT_RETRY_count p) fs.length
    let now := s.now
    s.modPort p fun b => if x then { b with replayX := fs, againX := fs, waitX := now } else { b with replayB := fs, againB := fs, waitB := now }

/-- ACK_TIMEOUT (R486): the ack of a class with frames outstanding has not advanced for 2 µs, 2,400 fc. -/
def execAckTimeout (port : PortId) (express : Bool) (s : State) : Res :=
  let b := s.port port.val
  let idle := if express then b.replayX.isEmpty || decide (s.now < b.waitX + 2400) else b.replayB.isEmpty || decide (s.now < b.waitB + 2400)
  .next (if idle then s else s.resend port.val express)

/-- The acknowledgements, naks and nr of a header (R485, R486, R502). -/
def State.ackIn (s : State) (p : Nat) (h : Flit) : State :=
  let old := s.port p
  let now := s.now
  let s := s.modPort p fun b => { b with
    replayB := b.replayB.filter fun f => !seqBefore f.seq (BH.ackB h)
    replayX := b.replayX.filter fun f => !seqBefore f.seq (BH.ackX h)
    waitB := if b.replayB.any fun f => seqBefore f.seq (BH.ackB h) then now else b.waitB
    waitX := if b.replayX.any fun f => seqBefore f.seq (BH.ackX h) then now else b.waitX
    againB := b.againB.filter fun f => !seqBefore f.seq (BH.ackB h)
    againX := b.againX.filter fun f => !seqBefore f.seq (BH.ackX h)
    peerNakB := BH.nakB h
    peerNakX := BH.nakX h }
  let s := s.peerNr p (BH.nr h)
  let s := if BH.nakB h && !old.peerNakB then s.resend p false else s
  if BH.nakX h && !old.peerNakX then s.resend p true else s

/-! ### Frame alignment and nesting (R475 to R482) -/

/-- Frame lock is lost: the frames in progress are dropped and both naks set (R477, R478). -/
def State.frameLost (s : State) (p : Nat) : State :=
  let s := ((s.put (F.BTN_P_STATUS_fr_lock p) 0).bump (F.BTN_P_CNT_LOCK_count p)).flag F.BTN_EVT_lock_lost
  let now := s.now
  s.modPort p fun b => { b with nakB := true, nakX := true, cands := [], hdrBad := 0, xEnd := 0, dropB := true, frLost := now }

/-- The search out of lock (R475, R476). -/
def State.frameSearch (s : State) (p slot : Nat) (h : Flit) : State :=
  let cs := (s.port p).cands
  let gone := cs.filter fun c => decide (c.slot + 80 < slot)
  let keep := cs.filter fun c => !decide (c.slot + 80 < slot)
  let s := if gone.isEmpty then s else s.bump (F.BTN_P_CNT_HDR_count p) gone.length
  let s := s.modPort p fun b => { b with cands := keep }
  let now := s.now
  if !BH.ok h || BH.cls h ≠ 0 then s
  else
    match keep.find? fun c => slot == c.slot + 17 + BH.ins h with
    | some c =>
      if 4 ≤ c.chain + 1 then
        let s := s.put (F.BTN_P_STATUS_fr_lock p) 1
        (s.modPort p fun b => { b with cands := [], lastHdr := slot, hdrBad := 0, rxIns := 0, rxNest := 0, xEnd := 0, dropB := false }).ackIn p h
      else
        s.modPort p fun b => { b with cands := keep.map fun d => if d.slot = c.slot then ⟨slot, c.chain + 1, now⟩ else d }
    | none =>
      let new := keep ++ [⟨slot, 1, now⟩]
      s.modPort p fun b => { b with cands := if 4 < new.length then new.drop 1 else new }

/-- Candidates whose next bulk header has not come in 80 slots, 30 fc: discarded and counted at fc `t` (R476). -/
def State.framesExpire (s : State) (t : Nat) : State :=
  s.each (List.range 12) fun s p =>
    let gone (c : FrameCand) : Bool := decide (c.at_ + 30 < t)
    let n := ((s.port p).cands.filter gone).length
    if n = 0 then s
    else (s.modPort p fun b => { b with cands := b.cands.filter fun c => !gone c }).bump (F.BTN_P_CNT_HDR_count p) n

/-- A bad or missing bulk header, `n` in turn (R477): its frame is dropped, and the next header is looked for from slot
`ref` on, where a header stands that is not accepted. -/
def State.headerBad (s : State) (p n ref : Nat) : State :=
  let s := s.modPort p fun b => { b with hdrBad := b.hdrBad + n, lastHdr := ref, rxIns := 0, rxNest := 0, xEnd := 0, dropB := true, nakB := true }
  if 3 ≤ (s.port p).hdrBad then s.frameLost p else s

/-- A bulk header in lock, at its slot: accepted where its ins agrees with the slots since the last one. -/
def State.bulkHeader (s : State) (p slot : Nat) (h : Flit) : State :=
  let last := (s.port p).lastHdr
  if slot = last + 17 + BH.ins h then
    let bad := BH.reserved h
    let s := s.modPort p fun b => { b with lastHdr := slot, hdrBad := 0, rxIns := 0, rxNest := 0, xEnd := 0, dropB := bad, nakB := b.nakB || bad }
    s.ackIn p h
  else s.headerBad p (1 + (slot - last - 1) / 80) slot

/-- FRAME_HEADER_RECEIVED: a slot of the decoded stream holds the marker; `blocks` control blocks have stood in the
stream since the last bulk header. -/
def execFrameHeaderReceived (port : PortId) (slot : BitVec 48) (blocks : BitVec 6) (hdr : Flit) (s : State) : Res :=
  let p := port.val
  let t := slot.toNat
  let b := s.port p
  if !s.on (F.BTN_P_STATUS_cw_lock p) || !BH.isMark hdr then .next s
  else if !s.on (F.BTN_P_STATUS_fr_lock p) then .next (s.frameSearch p t hdr)
  else
    let due := b.lastHdr + 17 + b.rxIns + blocks.toNat
    if !BH.ok hdr then .next (if t = due then s.headerBad p 1 t else s)
    else if t < b.xEnd then
      -- R480: the express frame is dropped; parsing goes on after this slot
      let s := (s.bump (F.BTN_P_CNT_NEST_count p)).flag F.BTN_EVT_nest
      .next (s.modPort p fun b => { b with nakX := true, rxIns := b.rxIns - (b.xEnd - (t + 1)), xEnd := t + 1 })
    else if BH.cls hdr = 0 then
      if t < due then
        -- R481: the suspended bulk frame is dropped; the header is taken as the next one
        let s := (s.bump (F.BTN_P_CNT_NEST_count p)).flag F.BTN_EVT_nest
        .next ((s.modPort p fun b => { b with nakB := true, dropB := true }).bulkHeader p t hdr)
      else .next (s.bulkHeader p t hdr)
    else if BH.cls hdr = 1 then
      let inside := decide (t < due)
      let long_ := inside && decide (3 ≤ b.rxNest)
      let s := s.modPort p fun b => { b with
        rxIns := b.rxIns + 1 + BH.len hdr
        xEnd := t + 1 + BH.len hdr
        rxNest := if inside then b.rxNest + 1 else b.rxNest
        dropB := b.dropB || long_
        nakB := b.nakB || long_ }
      .next (s.ackIn p hdr)
    else .next s

/-! ### Accepting frames (R478, R483, R484, R500) -/

/-- The payload of a frame of a class that the port accepts, descrambled, with the numbers, naks and counts it moves. -/
def State.frameIn (s : State) (p : Nat) (x : Bool) (f : XFrame) : Option (List Flit) × State :=
  let cls := x.toNat
  let b := s.port p
  if !s.on (F.BTN_P_STATUS_cw_lock p) || !s.on (F.BTN_P_STATUS_fr_lock p) then (none, s)
  else
    let seq := BH.seq f.hdr
    let body := scramble (scramInit cls (BH.tr f.hdr) seq) f.body
    let want := if x then b.expX else b.expB
    let good := BH.ok f.hdr && BH.cls f.hdr == cls && !BH.reserved f.hdr && f.body.length == BH.len f.hdr &&
      (x || (f.body.length == 16 && !b.dropB)) && f.cwOk && BH.pcrc f.hdr == payCrc body
    if good && seq == want then
      (some body, s.modPort p fun b => if x then { b with expX := (seq + 1) % 4096, nakX := false }
        else { b with expB := (seq + 1) % 4096, nakB := false })
    else if good && seqBefore seq want then (none, s.bump (F.BTN_P_CNT_DUP_count p))
    else (none, s.modPort p fun b => if x then { b with nakX := true } else { b with nakB := true })

/-- An express frame of a kind that the port accepts; while the port shows nr, all but link management is discarded and
counted (R500). -/
def State.expressIn (s : State) (p kind : Nat) (f : XFrame) (k : State → List Flit → State) : State :=
  if s.portSt p < 3 || 6 ≤ s.portSt p || BH.kind f.hdr ≠ kind then s
  else
    match s.frameIn p true f with
    | (some body, s) =>
      if kind ≠ 2 && s.on (F.BTN_P_STATUS_local_nr p) then s.bump (F.BTN_P_CNT_NRDROP_count p) else k s body
    | (none, s) => s

/-- The message of a link-management frame. -/
def linkMessage (fs : List Flit) : Nat := bitsOf (fs.headD 0).toNat 0 4

/-- HALYARD_FRAME (R491). -/
def execHalyardFrame (port : PortId) (x : XFrame) (s : State) : Res :=
  .next (s.expressIn port.val 0 x fun s fs => s.halyardIn port.val fs)

/-- TEAM_STOP_FRAME (R579, R580). -/
def execTeamStopFrame (port : PortId) (x : XFrame) (s : State) : Res :=
  .next (s.expressIn port.val 1 x fun s fs => s.teamStopIn port.val (fs.headD 0))

/-- The identity check (R507). -/
def State.identityIn (s : State) (p : Nat) (v : Nat) : State :=
  let s := ((s.put (F.BTN_P_PEER_addr p) (bitsOf v 0 10)).put (F.BTN_P_PEER_port p) (bitsOf v 10 4)).put (F.BTN_P_PEER_valid p) 1
  let ok := bitsOf v 14 4 == s.get F.BTN_TOPO_xd_m1 && bitsOf v 18 3 == s.get F.BTN_TOPO_yd_m1 &&
    bitsOf v 21 3 == s.get F.BTN_TOPO_zd_m1 && bitsOf v 0 10 == s.neighbourAddr p && bitsOf v 10 4 == peerPort p
  if ok then s
  else
    (((s.setPort p 6).flag F.BTN_EVT_miswired).evtBaton p "miswired").yellow { code := 0x111, site := p, detail := bitsOf v 0 10 }

/-- IDENTITY_FRAME (R501, R507): checked while the port trains. -/
def execIdentityFrame (port : PortId) (x : XFrame) (s : State) : Res :=
  .next (s.expressIn port.val 2 x fun s fs =>
    if linkMessage fs = 0 && s.portSt port.val = 3 then s.identityIn port.val (fs.getD 1 0).toNat else s)

/-- GOING_DOWN_FRAME (R503). -/
def execGoingDownFrame (port : PortId) (x : XFrame) (s : State) : Res :=
  .next (s.expressIn port.val 2 x fun s fs => if linkMessage fs = 1 then s.portDown port.val 6 else s)

/-- RETRAIN_REQUEST (Table 11-4): accepted; the spec states no effect of it (log entry 50). -/
def execRetrainRequest (port : PortId) (x : XFrame) (s : State) : Res :=
  .next (s.expressIn port.val 2 x fun s _ => s)

/-- ADOPT_REQUEST_RECEIVED (R71). -/
def execAdoptRequestReceived (port : PortId) (x : XFrame) (s : State) : Res :=
  .next (s.expressIn port.val 2 x fun s fs => if linkMessage fs = 3 then s.adoptIn fs else s)

/-! ### Bulk transport (R493 to R498) -/

/-- Attach lanes of the port's router that a fc of a stride takes from the port: entries 5 to 8 of its mesh outputs. -/
def State.inLanes (s : State) (p fc : Nat) : List Nat :=
  let r := batonSite p
  (List.range 4).filter fun l => (meshOuts r).any fun o => s.slotEntry r o fc == 5 + l

/-- The first `n` positions, in fc since lap 0, of mirrored entries at or after `t`, looked for over `k` fc. -/
def entriesFrom (lanes : Nat → Nat) : Nat → Nat → Nat → List Nat
  | 0, _, _ => []
  | _, 0, _ => []
  | k + 1, n, t =>
    let c := min n (lanes (t % 128))
    List.replicate c t ++ entriesFrom lanes k (n - c) (t + 1)

/-- Positions of the entries of port `p` that release `n` flits of a frame sent from position `t0` on (R495). -/
def State.releaseAt (s : State) (p n t0 : Nat) : List Nat :=
  let row := (List.range 128).map fun fc => (s.inLanes p fc).length
  entriesFrom (fun fc => row.getD fc 0) 2304 n (t0 + s.get F.BTN_CFG_blat)

/-- BULK_FRAME_RECEIVED (R483, R495, R496, R500): an idle frame is not checked; the flits of a data frame take the
mirrored entries, and those whose entry has passed are discarded and counted. -/
def execBulkFrameReceived (port : PortId) (x : XFrame) (s : State) : Res :=
  let p := port.val
  if s.portSt p < 3 || 6 ≤ s.portSt p || BH.kind x.hdr = 0 then .next s
  else
    match s.frameIn p false x with
    | (none, s) => .next s
    | (some body, s) =>
      let flits := (body.zipIdx.filter fun f => BH.side x.hdr f.2 % 4 != 0)
      if s.on (F.BTN_P_STATUS_local_nr p) then .next (s.bump (F.BTN_P_CNT_NRDROP_count p) flits.length)
      else
        let sent := s.now - (s.now + 65536 - BH.rel x.hdr) % 65536
        let at_ := s.releaseAt p flits.length sent
        let due := (flits.zip at_).filter fun f => decide (s.now ≤ f.2)
        let s := s.bump (F.BTN_P_CNT_LATE_count p) (flits.length - due.length)
        let room := 4096 - (s.port p).rxBuf.length
        .next (s.modPort p fun b => { b with
          rxBuf := b.rxBuf ++ (due.take room).map fun f => ⟨BH.side x.hdr f.1.2, f.1.1, f.2⟩ })

/-- A mesh flit that the attachment router hands to a port's transmitter (R493, R497, R498, R500). -/
def State.toLink (s : State) (p side : Nat) (f : Flit) : State :=
  if s.on (F.BTN_P_STATUS_peer_nr p) || s.on (F.BTN_P_STATUS_local_nr p) then s.bump (F.BTN_P_CNT_NRDROP_count p)
  else if !s.portUp p || s.on (F.BTN_P_STATUS_long p) then s
  else if 512 ≤ (s.port p).bulkQ.length then
    ((s.bump (F.BTN_P_CNT_TXOVF_count p)).flag F.BTN_EVT_txovf).yellow { code := 0x113, site := p }
  else s.modPort p fun b => { b with bulkQ := b.bulkQ ++ [⟨side, f, s.now⟩] }

/-- The flits that leave a port's attach lanes at the present position, in lane order; a lane whose flit has not arrived
sends a void with reason late, and a flit whose entry passed unused leaves in no other (R496). -/
def State.fromLink (s : State) (p : Nat) (lanes : List Nat) : List (Nat × LinkFlit) × State :=
  let now := s.now
  let s := s.modPort p fun b => { b with rxBuf := b.rxBuf.filter fun f => decide (now ≤ f.at_) }
  lanes.foldl (fun a l =>
    let s := a.2
    match (s.port p).rxBuf with
    | f :: rest =>
      if f.at_ = s.now then (a.1 ++ [(l, f)], s.modPort p fun b => { b with rxBuf := rest })
      else (a.1 ++ [(l, ⟨2, 0, s.now⟩)], s)
    | [] => (a.1 ++ [(l, ⟨2, 0, s.now⟩)], s)) ([], s)

/-! ### The transmitter (R469 to R474, R485, R489) -/

/-- The header of a frame as it leaves. -/
def State.txHeader (s : State) (p : Nat) (f : TxFrame) (ins : Nat) : Flit :=
  let b := s.port p
  let x := BH.marker + f.side % p2 96 * p2 64 + payCrc f.flits * p2 160 + f.rel % 65536 * p2 176 + f.cls * p2 192 +
    f.kind * p2 194 + (f.flits.length - 1) * p2 196 + f.seq * p2 200 + b.expB * p2 212 + b.expX * p2 224 +
    b.nakB.toNat * p2 236 + b.nakX.toNat * p2 237 + ins * p2 238 + s.get (F.BTN_P_STATUS_local_nr p) * p2 244 +
    f.tries % 4 * p2 245
  BitVec.ofNat 256 (x + BH.crc x * p2 248)

/-- The Marshal may send a safety frame on a port: none has gone there in the last 100 ns, 120 fc (R490). -/
def State.safetyDue (s : State) (p : Nat) : Bool :=
  match (s.port p).safeAt with
  | some t => decide (t + 120 ≤ s.now)
  | none => true

/-- The kinds of express frame a port may send, in priority: safety, Halyard, link management, tunnel; link management
alone while it or its peer is not ready (R489, R500). -/
def State.txKinds (s : State) (p : Nat) : List Nat :=
  if s.portSt p = 5 then (if s.safetyDue p then [1, 0, 2, 3] else [0, 2, 3]) else if s.portSt p = 3 || s.portSt p = 4 then [2] else []

/-- The express frame that leaves next, with the port that has given it up. -/
def State.nextExpress (s : State) (p : Nat) : Option (TxFrame × BtnPort) :=
  let b := s.port p
  match b.againX with
  | f :: rest => if (s.txKinds p).contains f.kind || (f.kind = 1 && s.portSt p = 5) then some (f, { b with againX := rest }) else none
  | [] =>
    if 64 ≤ b.replayX.length then none
    else
      match (s.txKinds p).find? fun k => !(Tab.get [] b.exQ k).isEmpty with
      | none => none
      | some k =>
        match Tab.get [] b.exQ k with
        | [] => none
        | fs :: rest =>
          let f : TxFrame := ⟨1, k, 0, 0, b.seqX, 0, fs.take 16⟩
          let safe := if k = 1 then some s.now else b.safeAt
          let wait := if b.replayX.isEmpty then s.now else b.waitX
          some (f, { b with waitX := wait, exQ := Tab.put k rest b.exQ, seqX := (b.seqX + 1) % 4096, replayX := b.replayX ++ [f], safeAt := safe })

/-- The bulk frame that leaves next: a frame sent again, new data, or idle. -/
def State.nextBulk (s : State) (p : Nat) : TxFrame × BtnPort :=
  let b := s.port p
  let idle : TxFrame := ⟨0, 0, 0, 0, b.seqB, 0, List.replicate 16 0⟩
  match (if s.portSt p = 5 then b.againB else []) with
  | f :: rest => (f, { b with againB := rest })
  | [] =>
    match b.bulkQ with
    | [] => (idle, b)
    | q0 :: _ =>
      if s.portSt p ≠ 5 || 256 ≤ b.replayB.length then (idle, b)
      else
        let take := b.bulkQ.take 16
        let side := (take.zipIdx.map fun f => f.1.side % 64 * p2 (6 * f.2)).sum
        let f : TxFrame := ⟨0, 1, side, q0.at_ % 65536, b.seqB, 0, take.map (·.data) ++ List.replicate (16 - take.length) 0⟩
        let wait := if b.replayB.isEmpty then s.now else b.waitB
        (f, { b with waitB := wait, bulkQ := b.bulkQ.drop 16, seqB := (b.seqB + 1) % 4096, replayB := b.replayB ++ [f] })

/-- A payload slot of the bulk frame in progress, or the next bulk header. -/
def State.bulkSlot (s : State) (p : Nat) (scr : TxFrame → List Flit) : State :=
  let b := s.port p
  match b.curB with
  | f :: rest => (s.modPort p fun b => { b with curB := rest, slots := b.slots + 1 }).slotOut p f
  | [] =>
    let (f, b') := s.nextBulk p
    let h := s.txHeader p f (min 63 (b.slots - 16))
    (s.modPort p fun _ => { b' with curB := scr f, slots := 0, nest := 0 }).slotOut p h

/-- BATON_FLIT_SLOT: one slot of a port's stream. An express frame in progress is never preempted; then a control block,
an express frame, the bulk frame in progress, and a new bulk header, at most 80 slots after the last one. `sub`: the
sixteenths of the present fc that have passed at the slot's boundary, which a control block's lag counts (R42). -/
def execBatonFlitSlot (port : PortId) (sub : BitVec 4) (s : State) : Res :=
  let p := port.val
  let b := s.port p
  let st := s.portSt p
  let t16 := 16 * s.now + sub.toNat
  let scr (f : TxFrame) : List Flit := scramble (scramInit f.cls f.tries f.seq) f.flits
  -- slots that may still be inserted before the next bulk header must leave
  let room := 63 - (b.slots - (16 - b.curB.length))
  if st = 0 || st = 1 || st = 7 then .next s
  else
    match b.curX with
    | f :: rest => .next ((s.modPort p fun b => { b with curX := rest, slots := b.slots + 1 }).slotOut p f)
    | [] =>
      match (if 1 ≤ room && decide (3 ≤ st) && decide (st ≤ 5) && b.ctlQ.head?.any (fun q => decide (q.1 ≤ t16)) then b.ctlQ else []) with
      | (t, f) :: rest =>
        .next ((s.modPort p fun b => { b with ctlQ := rest, slots := b.slots + 1 }).slotOut p (CB.withLag f (t16 - t)))
      | [] =>
        match s.nextExpress p with
        | some (f, b') =>
          if f.flits.length + 1 ≤ room && (b.curB.isEmpty || decide (b.nest < 3)) then
            let h := s.txHeader p f 0
            .next ((s.modPort p fun _ => { b' with curX := scr f, slots := b.slots + 1, nest := if b.curB.isEmpty then b.nest else b.nest + 1 }).slotOut p h)
          else .next (s.bulkSlot p scr)
        | none => .next (s.bulkSlot p scr)

end Sys2Proof.Machine
end

