-- ==== Sys2Proof/Machine/Release.lean ====
section
/-! DEFINITION. The release queue and its engine: doorbells, check windows, and the drain to host memory (R603 to R623). -/

namespace Sys2Proof.Machine

/-! ### The queue (R603, Tables 14-4 and 14-5) -/

/-- The host attachment whose engine serves a heat's queue: its lowest-numbered one, where it releases at all. -/
def State.relAtt (s : State) (h : Nat) : Option Nat :=
  if s.getA (F.HEAT_H_CFG_rel_en h) = 1 then s.farAtt h else none

def State.relN (s : State) (h : Nat) : Nat := p2 (s.getA (F.HEAT_H_REL_CFG_qsize h) + 8)
def State.relM (s : State) (h : Nat) : Nat := p2 (s.getA (F.HEAT_H_REL_CFG_rsize h) + 8)
def State.relQ (s : State) (h : Nat) : Nat :=
  s.getA (F.HEAT_H_REL_QBASE_LO_base_lo h) * 4096 + s.getA (F.HEAT_H_REL_QBASE_HI_base_hi h) * p2 32
def State.relHost (s : State) (h : Nat) : Nat :=
  s.getA (F.HEAT_H_REL_HBASE_LO_base_lo h) * 4096 + s.getA (F.HEAT_H_REL_HBASE_HI_base_hi h) * p2 32

/-- Uniform offset of the entry with an index. -/
def State.relEntryAt (s : State) (h i : Nat) : Nat := s.relQ h + 64 + 64 * (i % s.relN h)

/-- The words of an entry, as one number. -/
def State.relEntry (s : State) (h i : Nat) : Nat := leNat (s.uGet (s.heatSlices h) (s.relEntryAt h i) 64)

namespace RE
def src (x : Nat) : Nat := bitsOf x 0 48
def units (x : Nat) : Nat := bitsOf x 48 16
def hoff (x : Nat) : Nat := bitsOf x 64 48
def tag (x : Nat) : Nat := bitsOf x 128 32
def chk (x : Nat) : Bool := bitsOf x 160 1 == 1
def sheet (x : Nat) : Nat := bitsOf x 192 48
def upto (x : Nat) : Nat := bitsOf x 256 48
/-- The reserved bits are zero. -/
def clean (x : Nat) : Bool :=
  [(112, 16), (161, 31), (240, 16), (304, 16), (376, 136)].all fun r => bitsOf x r.1 r.2 == 0
end RE

/-- Write the engine's words of an entry: stamp, state, status. -/
def State.relMark (s : State) (h i stamp state status : Nat) : State :=
  s.uPut (s.heatSlices h) (s.relEntryAt h i + 40) (leBytes (stamp % p2 48 + state * p2 48 + status * p2 52) 8)

/-- HEAT_H_REL_REL: the first entry that is still held, else the producer index. -/
def State.relRel (s : State) (h : Nat) : Nat :=
  match (s.relH h).ents.find? fun e => e.state == 1 && e.status == 0 with
  | some e => e.idx
  | none => s.get (F.HEAT_H_REL_PROD_prod h)

/-- Write the queue header. -/
def State.relHeader (s : State) (h : Nat) : State :=
  let w := s.get (F.HEAT_H_REL_DONE_done h) + s.get (F.HEAT_H_REL_PROD_prod h) * p2 32 + s.relRel h * p2 64
  s.uPut (s.heatSlices h) (s.relQ h) (leBytes w 12)

/-- The oldest entry can be recorded: it is released or discarded. -/
def State.relDue (s : State) (h : Nat) : Bool :=
  match (s.relH h).ents with
  | e :: _ => e.state == 2 || e.status != 0
  | [] => false

/-- HEAT_H_REL_STATUS as it reads: idle, draining or lost, and whether it drains by control messages (R619). -/
def State.relStatus (s : State) (h : Nat) : Nat :=
  let st := s.get (F.HEAT_H_REL_STATUS_state h)
  let due := s.relDue h
  (if st = 3 then 3 else due.toNat) + s.get (F.HEAT_H_REL_STATUS_hring_full h) * 4 +
    (due && !heatLive (s.heatSt h)).toNat * 8

/-! ### Entering the queue (R604 to R607) -/

/-- The status that refuses an entry: 4 invalid, 5 not committed, 6 an error in the entry itself, 0 none. -/
def State.relBad (s : State) (h i : Nat) : Nat :=
  let x := s.relEntry h i
  let n := 32 * RE.units x
  let past := s.getA (F.HEAT_H_REL_HSIZE_pages h) * 4096
  if n != 0 && (!s.belongs h false (RE.src x) n || decide (RE.hoff x < 32 * s.relM h) || decide (past < RE.hoff x + n)) then 4
  else if !RE.clean x then 4
  else if RE.chk x then
    let sh := s.sheet (RE.sheet x)
    if s.belongs h false (RE.sheet x) 28 && sh.plen == 0 && decide (RE.upto x < sh.len) then 0 else 5
  else 0

/-- Accept one entry (R606, R607). -/
def State.relAccept (s : State) (h i : Nat) : State :=
  let (s, cls) := s.uFind (s.heatSlices h) (s.relEntryAt h i) 64
  let bad := if cls ≠ 0 then 6 else s.relBad h i
  let s := s.relMark h i s.lapN 1 0
  let s := s.modRel h fun r => { r with ents := r.ents ++ [⟨i, s.lapN, 1, bad, 0⟩] }
  let s := s.put (F.HEAT_H_REL_PROD_prod h) ((i + 1) % p2 17)
  if bad = 0 then s
  else (s.bump (F.HEAT_H_REL_CNT_DISC_count h)).yellow { code := 0x118, heat := some h, detail := i }

/-- A doorbell reaches a host attachment (R605 to R607). -/
def State.relBell (s : State) (a src v : Nat) : State :=
  match s.coreOwner (hostSite a) with
  | none => s
  | some h =>
    let prod := s.get (F.HEAT_H_REL_PROD_prod h)
    let new := v % p2 17
    let n := (new + p2 17 - prod) % p2 17
    let room := s.relN h - (prod + p2 17 - s.get (F.HEAT_H_REL_DONE_done h)) % p2 17
    let ok := s.relAtt h == some a && s.coreOwner src == some h &&
      s.rankOf src == some (s.getA (F.HEAT_H_REL_CFG_rank h)) && heatLive (s.heatSt h) &&
      decide (1 ≤ n) && decide (n ≤ room)
    if ok then (s.each (List.range n) fun s j => s.relAccept h ((prod + j) % p2 17)).relHeader h
    else (s.bump (F.HEAT_H_REL_CNT_REF_count h)).yellow { code := 0x118, heat := some h, site := src, detail := new }

/-- RELEASE_DOORBELL (R605, R606): a control flit from core `src` for dport 2 of a host attachment. -/
def execReleaseDoorbell (att : Fin 2) (src : CoreId) (v : Word) (s : State) : Res :=
  .next (s.relBell att.val src.toNat v.toNat)

/-! ### Check windows (R558, R609, R613) -/

/-- The window of lap `l` fails: a red or black pennant since the heat's start, or a taint held at or below the lap. -/
def State.windowFails (s : State) (h l : Nat) : Bool :=
  s.on (F.MAR_H_FAIL_HI_red h) || (Tab.get [] s.mar.taints h).any fun t => decide (t ≤ l)

/-- W(h, l) closes. -/
def State.closeWindow (s : State) (h l : Nat) : State :=
  if s.windowFails h l then
    let red := s.on (F.MAR_H_FAIL_HI_red h)
    s.discardHeld h (if red then 1 else 2) (s.failLap h) fun e => e.stamp == l
  else
    let s := (s.put48 (F.MAR_H_WIN_LO_lap_lo h) (F.MAR_H_WIN_HI_lap_hi h) l).put (F.MAR_H_WIN_HI_valid h) 1
    let go := (s.relH h).ents.filter fun e => e.state == 1 && e.status == 0 && decide (e.stamp ≤ l)
    if go.isEmpty then s
    else
      let s := s.each go fun s e => s.relMark h e.idx e.stamp 2 0
      let s := s.modRel h fun r =>
        { r with ents := r.ents.map fun e =>
            if e.state == 1 && e.status == 0 && decide (e.stamp ≤ l) then { e with state := 2 } else e }
      (s.bump (F.HEAT_H_REL_CNT_REL_count h) go.length).relHeader h

/-! ### Draining (R614 to R617) -/

/-- A release record (Table 14-6). -/
def relRecord (k status h units stamp cause tag m : Nat) : List Byte :=
  leBytes (k + status * p2 32 + h * p2 36 + units * p2 48 + stamp % p2 48 * p2 64 + cause % p2 48 * p2 128 +
    tag * p2 192 + ((k / m + 1) % 2) * p2 224) 32

/-- Move an entry's data in posted writes; an uncorrectable granule ends it with status 6, the units before it written
(log entry 46). -/
def State.relData (s : State) (a h src hoff : Nat) : Nat → State × Nat
  | 0 => (s, 0)
  | n + 1 =>
    let bad := s.errClass src 32
    let s := s.findErr src 32
    if bad ≠ 0 then (s, 6)
    else (s.send (.hostWrite a (s.relHost h + hoff) (s.readMem src 32) false false)).relData a h (src + 32) (hoff + 32) n

/-- Drain the oldest entry and write its record. Nothing moves while the queue is lost, the entry is held, or the record
ring is full. -/
def State.relDrain (s : State) (h : Nat) : State :=
  match s.relAtt h, (s.relH h).ents with
  | some a, e :: rest =>
    if s.get (F.HEAT_H_REL_STATUS_state h) = 3 || !s.relDue h then s
    else
      let k := (s.relH h).recs
      let m := s.relM h
      if m ≤ (k + p2 17 - s.get (F.HEAT_H_REL_HCONS_hcons h)) % p2 17 then s.put (F.HEAT_H_REL_STATUS_hring_full h) 1
      else
        let s := s.put (F.HEAT_H_REL_STATUS_hring_full h) 0
        let x := s.relEntry h e.idx
        let s := s.modRel h fun r => { ents := rest, recs := (r.recs + 1) % p2 32 }
        let (s, st) := if e.status = 0 then s.relData a h (RE.src x) (RE.hoff x) (RE.units x) else (s, e.status)
        let s := s.send (.hostWrite a (s.relHost h + 32 * (k % m))
          (relRecord k st h (RE.units x) e.stamp e.cause (RE.tag x) m) false false)
        let s := (s.relMark h e.idx e.stamp 3 st).put (F.HEAT_H_REL_DONE_done h) ((e.idx + 1) % p2 17)
        s.relHeader h
  | _, _ => s

/-- RELEASE_DRAIN (R615). -/
def execReleaseDrain (h : HeatId) (s : State) : Res := .next (s.relDrain h.toNat)

/-- HCONS_WRITE (R617, R618): the host advances the index of its next record; the engine waits no longer where that makes
room. -/
def execHconsWrite (_p : Path) (h : HeatId) (v : Word) (s : State) : Res :=
  let h := h.toNat
  let s := s.put (F.HEAT_H_REL_HCONS_hcons h) (v.toNat % p2 17)
  let full := decide (s.relM h ≤ ((s.relH h).recs + p2 17 - s.get (F.HEAT_H_REL_HCONS_hcons h)) % p2 17)
  .next (if full then s else s.put (F.HEAT_H_REL_STATUS_hring_full h) 0)

/-- Zero the queue indices, the record ring position and the counters (R622). -/
def State.relZero (s : State) (h : Nat) : State :=
  let s := s.modRel h fun _ => RelSt.blank
  let s := s.each [R.HEAT_H_REL_PROD h, R.HEAT_H_REL_REL h, R.HEAT_H_REL_DONE h, R.HEAT_H_REL_CNT_REL h,
    R.HEAT_H_REL_CNT_DISC h, R.HEAT_H_REL_CNT_REF h] fun s r => s.wr r 0
  s.put (F.HEAT_H_REL_STATUS_hring_full h) 0

/-- Drain every entry that can be recorded. -/
def State.relDrainAll (s : State) (h : Nat) : State :=
  s.each (s.relH h).ents fun s _ => s.relDrain h

end Sys2Proof.Machine
end

