-- ==== Sys2Proof/Machine/Heats.lean ====
section
/-! DEFINITION. The heat cycle: commit, start, recall, reset, and the heat commands (R184, R197a to R218, R712 to R716). -/

namespace Sys2Proof.Machine

/-! ### The commit snapshot (R84, R205, R512) -/

/-- Whether an offset is a WS register of heat `h` itself. -/
def wsHeatOff (h off : Nat) : Bool :=
  ([R.HAL_H_CFG h, R.HAL_H_RANKS h, R.HAL_H_BASE h, R.HAL_H_TREE h, R.MSH_H_CFG h, R.HEAT_H_CFG h, R.HEAT_H_REL_CFG h,
    R.HEAT_H_REL_QBASE_LO h, R.HEAT_H_REL_QBASE_HI h, R.HEAT_H_REL_HBASE_LO h, R.HEAT_H_REL_HBASE_HI h,
    R.HEAT_H_REL_HSIZE h, R.KV_H_CFG h, R.KV_H_PFT_LO h, R.KV_H_PFT_HI h, R.KV_H_NPAGE h, R.KV_H_DIG_LO h,
    R.KV_H_DIG_HI h, R.KV_H_T1_BASE h, R.KV_H_T1_N h, R.KV_H_T2_BASE h, R.KV_H_T2_N h, R.KV_H_T3_BASE h,
    R.KV_H_T3_N h, R.KV_H_WATER h, R.KV_H_COOL h, R.KV_H_KSTREAM h, R.TEAM_H_CFG h, R.TEAM_H_BLOCK h, R.TEAM_H_ROOT h,
    R.TEAM_H_REC_LO h, R.TEAM_H_REC_HI h].any fun r => r.off == off) ||
  [((R.TEAM_H_BUF h 0 0).off, 1024), ((R.TEAM_H_CD h 0 0).off, 4096), ((R.TEAM_H_AUX h 0).off, 4096)].any fun r =>
    decide (r.1 ≤ off) && decide (off < r.1 + r.2)

/-- The core of a WS register of a core, and whether the offset is one. -/
def wsCoreOff (off : Nat) : Option Nat :=
  if 0x11000 ≤ off && off < 0x13000 then some ((off - 0x11000) / 4)
  else if 0x41000 ≤ off && off < 0x49000 && off % 16 = 0 then some ((off - 0x41000) / 16)
  else if 0x100000 ≤ off && off < 0x120000 && (off % 64 = 0x10 || off % 64 = 0x14) then some ((off - 0x100000) / 64)
  else none

/-- The WS registers that a commit of heat `h` with geometry `g` makes active. -/
def wsOf (h g off : Nat) : Bool :=
  wsHeatOff h off || (match wsCoreOff off with | some k => geomHas g (blockOf k) | none => false)

/-- A register, and a field, of a snapshot. -/
def Snapshot.rd (x : Snapshot) (r : Reg) : Nat := (Tab.get (BitVec.ofNat 32 r.rst) x.regs r.off).toNat
def Snapshot.get (x : Snapshot) (f : Fld) : Nat := bitsOf (x.rd f.reg) f.lo f.n
def Snapshot.put (x : Snapshot) (f : Fld) (v : Nat) : Snapshot :=
  { x with regs := Tab.put f.reg.off (BitVec.ofNat 32 (setBits (x.rd f.reg) f.lo f.n v)) x.regs }

/-- R512: the team's settings in the snapshot. -/
def State.deriveTeam (s : State) (h : Nat) (x : Snapshot) : Snapshot :=
  let en := x.get (F.TEAM_H_CFG_en h)
  let x := x.put (F.HAL_H_CFG_team h) en
  if en = 0 then x
  else
    let axes := s.teamAxes (x.rd (R.TEAM_H_BLOCK h)) (x.rd (R.TEAM_H_ROOT h))
    let (parent, kids, depth) := s.teamTree axes
    let x := x.put (F.HAL_H_BASE_base h) (memberOf axes * (x.get (F.HAL_H_RANKS_count_m1 h) + 1))
    ((x.put (F.HAL_H_TREE_parent_port h) parent).put (F.HAL_H_TREE_children h) kids).put (F.HAL_H_TREE_depth h) depth

/-- The snapshot of a heat's staged settings and pending geometry (R205). -/
def State.snapshot (s : State) (h : Nat) (l : Line) : Snapshot :=
  let g := s.rd (R.HEAT_H_GEOM h)
  let inside (k : Nat) : Bool := geomHas g (blockOf k)
  s.deriveTeam h
    { line := l, geom := BitVec.ofNat 32 g, regs := s.regs.filter fun e => wsOf h g e.1,
      slots := s.mesh.slotS.filter fun e => inside (e.1 / 1664), smap := s.mesh.smapS.filter fun e => inside (e.1 / 256),
      rmap := s.mesh.rmapS.filter fun e => inside (targetRouter (e.1 / 512))
      image := (s.heat h).image.filter fun im => !im.active }

/-! ### Commit checks (R206, Table 5-5, R645, Table 14-10) -/

/-- Two rectangles share a block. -/
def geomMeet (a b : Nat) : Bool := !geomNone a && !geomNone b && (List.range 64).any fun x => geomHas a x && geomHas b x

/-- The valid entries of the rank table: sites and ranks (R84). -/
def Snapshot.ranks (x : Snapshot) : List (Nat × Nat) :=
  (geomCores x.geom.toNat).filterMap fun k =>
    if x.get (F.HAL_RANK_valid k) = 1 then some (k, x.get (F.HAL_RANK_rank k)) else none

/-- R85. -/
def State.ranksBad (s : State) (h : Nat) (x : Snapshot) : Bool :=
  let rs := x.ranks
  let n := x.get (F.HAL_H_RANKS_count_m1 h) + 1
  rs.any (fun r => s.fenced r.1) || rs.length != n || (List.range n).any fun i => !rs.any fun r => r.2 == i

/-- A unit that the geometry owns is out of service (R645). -/
def State.ownsOut (s : State) (g : Nat) : Bool :=
  let has (k : Nat) : Bool := geomHas g (blockOf k)
  ((List.range 256).any fun n => has (portRouter n) && bitsOf (s.get (F.STA_OOSS_oos (n / 32))) (n % 32) 1 == 1) ||
    ((List.range 8).any fun r => has (reserveSite r) && bitsOf (s.get F.STA_OOSX_ctrl) r 1 == 1) ||
    (List.range 12).any fun p => has (batonSite p) && bitsOf (s.get F.STA_OOSX_ports) p 1 == 1

/-- Check 5: a release without a host attachment, or a tree port that the heat does not own. -/
def attachBad (h g : Nat) (x : Snapshot) : Bool :=
  let has (k : Nat) : Bool := geomHas g (blockOf k)
  let parent := x.get (F.HAL_H_TREE_parent_port h)
  let kids := x.get (F.HAL_H_TREE_children h)
  (x.get (F.HEAT_H_CFG_rel_en h) == 1 && !has (hostSite 0) && !has (hostSite 1)) ||
    (List.range 12).any fun p => (parent == p || bitsOf kids p 1 == 1) && !has (batonSite p)

/-- The release settings, whose change resets the queue. -/
def relSettings (h : Nat) : List Reg :=
  [R.HEAT_H_REL_CFG h, R.HEAT_H_REL_QBASE_LO h, R.HEAT_H_REL_QBASE_HI h, R.HEAT_H_REL_HBASE_LO h,
   R.HEAT_H_REL_HBASE_HI h, R.HEAT_H_REL_HSIZE h]

def State.relChanges (s : State) (h : Nat) (x : Snapshot) : Bool := (relSettings h).any fun r => x.rd r != s.rdA r

/-- The first commit check that fails, with MSH_STATUS as the slot check leaves it. -/
def State.commitCheck (s : State) (h : Nat) (x : Snapshot) : State × Option String :=
  let g := x.geom.toNat
  let others := (List.range 32).filter fun i => i != h
  let claims (i : Nat) : Bool :=
    (s.heatExists i && (geomMeet g (s.geomA i) || geomMeet g (s.rd (R.HEAT_H_GEOM i)))) ||
      (match (s.heat i).snap with | some y => geomMeet g y.geom.toNat | none => false)
  let rel : Option String :=
    if s.relChanges h x && s.get (F.HEAT_H_REL_DONE_done h) != s.get (F.HEAT_H_REL_PROD_prod h) then
      some "0346 RELEASE QUEUE NOT EMPTY" else none
  if geomNone g then (s, rel)
  else if !geomValid g then (s, some "0244 HEAT GEOMETRY INVALID")
  else if s.ownsOut g then (s, some "0424 RESOURCE OUT OF SERVICE")
  else if others.any claims then (s, some "0245 HEATS OVERLAP")
  else if s.ranksBad h x then (s, some "0242 RANK TABLE INVALID")
  else
    let f := s.slotCheck g (x.get (F.MSH_H_CFG_uniform h) == 1) x.slots x.rmap
    let s := s.slotReport f
    if f.isSome then (s, some "0243 SLOT TABLE INVALID")
    else if attachBad h g x then (s, some "0246 ATTACHMENT OUTSIDE HEAT")
    else if !s.atFloor g (10 * x.get (F.MSH_H_CFG_floor h)) then (s, some "0341 BELOW SCHEDULE FLOOR")
    else (s, rel)

/-- Abandon a commit that is checking (Table 5-6). -/
def State.abandonCommit (s : State) (h : Nat) : State :=
  match (s.heat h).snap with
  | none => s
  | some x =>
    ((s.modHeat h fun r => { r with snap := none }).flag F.HEAT_EVT_commit_fail).replyC x.line [] "ERR 0339 COMMIT ABORTED"

def heatKey : String × Form := ("id", .num 0 31 1)

/-- HEAT_COMMIT (R205, R206, R208). -/
def execHeatCommit (l : Line) (s : State) : Res :=
  .next (s.command l { classC := true, modes := [.ready], keys := [heatKey], req := ["id"] } fun a s =>
    let h := a.nat "id"
    let refuse (e : String) : Ans := .wait ((s.flag F.HEAT_EVT_commit_fail).replyC l [] ("ERR " ++ e))
    if s.heatSt h = 6 then refuse "0335 HEAT HALTED"
    else if s.heatSt h ≠ 0 && s.heatSt h ≠ 1 then refuse "0312 HEAT RUNNING"
    else
      let s := s.abandonCommit h
      let x := s.snapshot h l
      match s.commitCheck h x with
      | (s, some e) => .wait ((s.flag F.HEAT_EVT_commit_fail).replyC l [] ("ERR " ++ e))
      | (s, none) => .wait (s.modHeat h fun r => { r with snap := some x }))

/-! ### Activation (R207 to R210, R229, R282, R460, R524, R622) -/

/-- Merge two tables, in order of keys. -/
def mergeTab {α : Type} : Nat → List (Nat × α) → List (Nat × α) → List (Nat × α)
  | 0, xs, ys => xs ++ ys
  | _ + 1, [], ys => ys
  | _ + 1, xs, [] => xs
  | n + 1, x :: xs, y :: ys =>
    if x.1 < y.1 then x :: mergeTab n xs (y :: ys)
    else if y.1 < x.1 then y :: mergeTab n (x :: xs) ys
    else y :: mergeTab n xs ys

/-- The entries of a table that meet `p` are replaced by those of another. -/
def swapTab {α : Type} (p : Nat → Bool) (old new : List (Nat × α)) : List (Nat × α) :=
  let keep := old.filter fun e => !p e.1
  mergeTab (keep.length + new.length) keep new

/-- Write the code and initial data of a snapshot's image into the heat's cores (R229, R282). An image loaded since the
snapshot waits for the next commit (R205, R207). -/
def State.writeImage (s : State) (h : Nat) (x : Snapshot) : State :=
  match x.image with
  | none => s
  | some im =>
    let s := s.each im.code fun s c =>
      s.modCore c.1 fun x => { x with imem := (List.range (c.2.length / 4)).map fun i =>
        (i, BitVec.ofNat 32 (leNat ((c.2.drop (4 * i)).take 4))) }
    let s := s.each im.data fun s d => s.memStore d.1 d.2
    s.modHeat h fun r => if r.image = some im then { r with image := some { im with active := true } } else r

/-- What a snapshot makes of the team registers (R511, R524, R551). -/
def State.teamActivate (s : State) (h : Nat) : State :=
  let t := teamTable s.rdA h
  let dig := t.digest
  let s := (s.wr (R.TEAM_H_DIGEST_LO h) (dig % p2 32)).wr (R.TEAM_H_DIGEST_HI h) (dig / p2 32)
  let s := s.put (F.TEAM_H_STATUS_ncoll h) t.used.length
  if s.getA (F.TEAM_H_CFG_en h) = 1 then
    let axes := s.teamAxes (s.rdA (R.TEAM_H_BLOCK h)) (s.rdA (R.TEAM_H_ROOT h))
    let n := (axes.map (·.e)).foldl (· * ·) 1
    ((s.put (F.TEAM_H_MEMBER_m h) (memberOf axes)).put (F.TEAM_H_MEMBER_count_m1 h) (n - 1)).put (F.TEAM_H_MEMBER_depth h)
      (axes.map TeamAxis.depth).sum
  else s.wr (R.TEAM_H_MEMBER h) 0

/-- Every value of the snapshot becomes active. -/
def State.activate (s : State) (h : Nat) (x : Snapshot) : State :=
  let g := x.geom.toNat
  let old := s.geomA h
  let was := s.heatExists h
  let inside (k : Nat) : Bool := geomHas g (blockOf k)
  let gone := if was then (s.heatCores h).filter fun k => !inside k else []
  let ranksChange := (s.heatCores h).any fun k => (inside k) && x.rd (R.HAL_RANK k) != s.rdA (R.HAL_RANK k)
  let newImage := x.image.isSome
  let relNew := s.relChanges h x
  let s := s.each (gone.filter fun k => (Tab.find s.cores k).isSome) fun s k => s.coreReset k
  let s := { s with
    act := swapTab (wsOf h g) s.act x.regs
    mesh := { s.mesh with
      slotA := swapTab (fun e => inside (e / 1664)) s.mesh.slotA x.slots
      smapA := swapTab (fun e => inside (e / 256)) s.mesh.smapA x.smap
      rmapA := swapTab (fun e => inside (targetRouter (e / 512))) s.mesh.rmapA x.rmap } }
  let s := (s.wr (R.HEAT_H_AGEOM h) g).wr (R.HEAT_H_ATT h) (if geomNone g then 0 else attOf g)
  let good := if geomNone g then 0 else ((geomCores g).filter fun k => !s.fenced k).length
  let s := (s.put (F.HEAT_H_GOOD_good h) good).put (F.HEAT_H_GOOD_ranks h) (if geomNone g then 0 else x.ranks.length)
  let s := s.wr (R.MSH_H_OPEN h) (if geomNone g then 0 else openOf g x.slots)
  let s := if old ≠ g || ranksChange || newImage then s.put (F.HEAT_H_STATE_resumable h) 0 else s
  let s := (if geomNone g then s else s.writeImage h x).teamActivate h
  let s := if relNew then s.relZero h else s
  let s := s.putB (F.KV_H_STATUS_layout_bad h) (!geomNone g && s.layoutBad h)
  (s.flag F.HEAT_EVT_committed).setHeatSt h (if geomNone g then 0 else 1)

/-- COMMIT_ACTIVATE (R207): at a lap boundary, once the checks have passed. -/
def execCommitActivate (h : HeatId) (s : State) : Res :=
  let h := h.toNat
  match (s.heat h).snap with
  | some x =>
    if s.pos.toNat = 0 then
      .next (((s.modHeat h fun r => { r with snap := none }).activate h x).okC x.line [])
    else .next s
  | none => .next s

/-! ### Start (R211, R212, R523, R525, R562, R574, R578, R593) -/

/-- A core of the heat that holds a rank is out of service (R574, R645). -/
def State.rankOut (s : State) (h : Nat) : Bool :=
  (s.heatCores h).any fun k => (s.rankOf k).isSome &&
    (bitsOf (s.get (F.STA_OOSC_oos (k / 32))) (k % 32) 1 == 1 ||
      bitsOf (s.get (F.MAR_OOS_oos (regionOf k / 32))) (regionOf k % 32) 1 == 1)

/-- Whether the heat's regions run at or above its active floor. -/
def State.floorOk (s : State) (h : Nat) : Bool := s.atFloor (s.geomA h) (10 * s.getA (F.MSH_H_CFG_floor h))

/-- The checks of `heat start`, in order. -/
def State.startErr (s : State) (h lap : Nat) (resume : Bool) : Option String :=
  let st := s.heatSt h
  if st = 0 then some "0336 HEAT NOT COMMITTED"
  else if st = 6 then some "0335 HEAT HALTED"
  else if st ≠ 1 then some "0312 HEAT RUNNING"
  else if s.get F.MAR_STATUS_state ≠ 3 then some "0601 MARSHAL NOT ARMED"
  else if s.on F.MAR_STATUS_safe_stop then some "0602 SAFE STOP ACTIVE"
  else if resume && !s.on (F.HEAT_H_STATE_resumable h) then some "0338 CANNOT RESUME"
  else if lap < s.lapN + 2 then some "0240 LAP TOO EARLY"
  else if !s.floorOk h then some "0341 BELOW SCHEDULE FLOOR"
  else if s.rankOut h then some "0621 CORE OUT OF SERVICE"
  else if resume && !(Tab.get [] s.mar.taints h).isEmpty then some "0620 TAINT HELD"
  else none

/-- HEAT_START (R211, R212, R523). -/
def execHeatStart (l : Line) (s : State) : Res :=
  let keys := [heatKey, ("at", .lap), ("resume", .num 0 1 1)]
  .next (s.command l { classC := true, modes := [.ready], keys := keys, req := ["id", "at"] } fun a s =>
    let h := a.nat "id"
    let lap := a.nat "at"
    let resume := a.nat "resume" == 1
    match s.startErr h lap resume with
    | some e => .err e
    | none =>
      if s.halTeam h then
        if s.teamSetupBad h then
          let s := (s.put (F.TEAM_H_STATUS_check h) 3).flag F.TEAM_EVT_check_fail
          .wait (s.replyC l [] "ERR 0345 TEAM SETUP INVALID")
        else .wait (((s.modHeat h fun r => { r with start := some (lap, resume, some l) }).setHeatSt h 2).teamCheckTry h)
      else .ok [] ((s.modHeat h fun r => { r with start := some (lap, resume, none) }).setHeatSt h 2))

/-- A core begins at its entry point: registers, tags and queues reset; tile descriptors, groups, scratchpad and
instruction memory kept (R211, R306, R324; log entry 45). -/
def State.freshCore (s : State) (k : Nat) : State :=
  let c := s.core k
  let entry := 4 * s.getA (F.CORE_ENTRY_entry k)
  let s := s.setCore k { Core.blank k with
    t := c.t, ag := c.ag.map (fun g => (g.1, { g.2 with tagged := false })), imem := c.imem, run := .running,
    pc := BitVec.ofNat 16 entry, startFc := s.now }
  let zero := [R.NUM_FLAGS k, R.NUM_LAST k, R.NUM_PFLAGS k, R.NUM_PCNT_SAT k, R.NUM_PCNT_FLUSH k, R.NUM_PCNT_NAN k,
    R.NUM_PCNT_RETRY k]
  let s := s.each zero fun s r => s.wr r 0
  (s.wr (R.NUM_CFG k) (R.NUM_CFG k).rst).seedGens k

/-- A WAIT that is evaluated again when its core goes on (R276): a position that has passed meanwhile ends it late (R240),
the next stride boundary is that after the start, and cc are counted afresh. -/
def State.rewait (s : State) (c : Core) : Core :=
  match c.wait with
  | none => { c with run := .running }
  | some (.pos t) =>
    if t < s.now then { c with run := .running, wait := none, lateWait := true } else { c with run := .waiting }
  | some (.stride _) => { c with run := .waiting, wait := some (.stride (s.now / 128 * 128 + 128)) }
  | some (.cyc _ n) => { c with run := .waiting, wait := some (.cyc s.now n) }
  | some _ => { c with run := .waiting }

/-- A core goes on from where it halted (R276). -/
def State.resumeCore (s : State) (k : Nat) : State :=
  s.modCore k fun c =>
    let c := { c with recallFlag := false, startFc := s.now }
    if c.run = .halted then s.rewait { c with step := 0, waitFrom := s.now } else c

/-- The heat runs. -/
def State.heatRun (s : State) (h : Nat) (resume : Bool) : State :=
  let s := s.modHeat h fun r => { r with start := none, holdBack := false, recallAt := none }
  let s := { s with mesh := { s.mesh with stopSeen := s.mesh.stopSeen.map fun (e : Nat × Nat) => (e.1, e.2 - bitsOf e.2 h 1 * p2 h), asm := s.mesh.asm.filter fun e => s.coreOwner (e.1 / p2 32 / 13) != some h } }
  let s := s.put48 (F.HEAT_H_START_LO_lap_lo h) (F.HEAT_H_START_HI_lap_hi h) s.lapN
  let s := (s.bump (F.HEAT_H_CNT_START_count h)).put (F.HEAT_H_STATE_recall h) 0
  let s := s.flag F.HEAT_EVT_started
  let cores := s.heatCores h
  let s :=
    if resume then s.each (cores.filter fun k => (Tab.find s.cores k).isSome) State.resumeCore
    else
      let s := { s with mar := { s.mar with taints := Tab.put h [] s.mar.taints } }
      let s := s.each [R.MAR_H_WIN_LO h, R.MAR_H_WIN_HI h, R.MAR_H_FAIL_LO h, R.MAR_H_FAIL_HI h] fun s r => s.wr r 0
      let s := (s.modHal h fun x => { HalHeat.blank with flip := x.flip }).put (F.HEAT_H_STATE_resumable h) 1
      let s := s.each (cores.filter fun k => !s.fenced k) State.freshCore
      if s.on (F.KV_H_STATUS_layout_bad h) then s else s.kvRebuild h
  ((s.setHeatSt h 3).halRelease h)

/-- HEAT_START_LAP (R211, R212): the start takes effect at the boundary of its lap, unless a region runs below the
floor. -/
def execHeatStartLap (h : HeatId) (s : State) : Res :=
  let h := h.toNat
  match (s.heat h).start with
  | some (lap, resume, line) =>
    if s.heatSt h = 2 && lap ≤ s.lapN && s.pos.toNat = 0 then
      if line.isSome then .next (s.startFails h 3 "0344 TEAM INCOMPLETE")
      else if !s.floorOk h then .next ((s.modHeat h fun r => { r with start := none }).setHeatSt h 1)
      else .next (s.heatRun h resume)
    else .next s
  | none => .next s

/-! ### Recall (R199 to R204) -/

/-- The recall begins to act: every core reads its flag as set. -/
def State.recallActs (s : State) (h : Nat) : State :=
  let s := s.put (F.HEAT_H_STATE_recall h) 1
  s.each ((s.heatCores h).filter fun k => (Tab.find s.cores k).isSome) fun s k => s.modCore k fun c => { c with recallFlag := true }

/-- What a lap boundary does to a recall: the flag at the boundary of its lap, the hold-back one boundary after. -/
def State.recallTick (s : State) (h : Nat) : State :=
  match (s.heat h).recallAt with
  | some at_ =>
    if s.heatSt h ≠ 4 then s
    else
      let s := if at_ ≤ s.lapN && !s.on (F.HEAT_H_STATE_recall h) then s.recallActs h else s
      if at_ < s.lapN then s.modHeat h fun r => { r with holdBack := true } else s
  | none => s

def State.stopLap (s : State) (h : Nat) : Nat := s.get48 (F.HEAT_H_STOP_LO_lap_lo h) (F.HEAT_H_STOP_HI_lap_hi h)

/-- The data line of a recall's reply. -/
def State.stoppedLine (s : State) (h : Nat) : String :=
  "heat=" ++ toString h ++ " state=stopped at=" ++ posStr (s.stopLap h) 0

/-- The heat is stopped: what the Halyard held until recall clears, and waiting lines are answered. -/
def State.heatStops (s : State) (h : Nat) : State :=
  let ls := (s.heat h).stopLines
  let s := s.modHeat h fun r => { r with recallAt := none, drain := none, stopLines := [], holdBack := true }
  let s := (s.modHal h fun x => { x with rankReset := false, memberLost := false }).setHeatSt h 1
  s.each ls fun s l => s.okC l [s.stoppedLine h]

/-- A recall has reached stopped (R220). -/
def State.recallDone (s : State) (h : Nat) : State := (s.flag F.HEAT_EVT_stopped).heatStops h

/-- A start that has not taken effect is cancelled. -/
def State.cancelStart (s : State) (h : Nat) : State :=
  match (s.heat h).start with
  | some (_, _, some _) => s.startFails h 3 "0344 TEAM INCOMPLETE"
  | some _ => s.modHeat h fun r => { r with start := none }
  | none => s

/-- HEAT_RECALL (R199, R204). -/
def execHeatRecall (l : Line) (s : State) : Res :=
  .next (s.command l { classC := true, modes := [.ready], keys := [heatKey, ("at", .lap)], req := ["id"] } fun a s =>
    let h := a.nat "id"
    let at_ := (a.nat? "at").getD s.lapN
    let st := s.heatSt h
    let queue (s : State) : State := s.modHeat h fun r => { r with stopLines := r.stopLines ++ [l] }
    if st = 0 then .err "0336 HEAT NOT COMMITTED"
    else if at_ < s.lapN then .err "0240 LAP TOO EARLY"
    else if st = 1 then .ok [s.stoppedLine h] s
    else if st = 6 || st = 2 then .wait ((queue (s.cancelStart h)).recallDone h)
    else if st = 3 then
      let s := (queue (s.modHeat h fun r => { r with recallAt := some at_ })).setHeatSt h 4
      .wait (if at_ = s.lapN then s.recallActs h else s)
    else .wait (queue s))

/-- The heat has a Halyard operation in flight. -/
def State.halBusy (s : State) (h : Nat) : Bool :=
  !(s.halH h).ops.isEmpty || s.attendInFlight h || (s.heatCores h).any fun k => !(s.core k).halOut.isEmpty

/-- RECALL_STOP (R200, R201): at a lap boundary with new descriptors held back and none in flight. -/
def execRecallStop (h : HeatId) (s : State) : Res :=
  let h := h.toNat
  if s.heatSt h = 4 && (s.heat h).holdBack && s.pos.toNat = 0 && !s.halBusy h then
    let s := s.haltCores h
    let s := s.put48 (F.HEAT_H_STOP_LO_lap_lo h) (F.HEAT_H_STOP_HI_lap_hi h) s.lapN
    .next ((s.modHeat h fun r => { r with drain := some s.lapN }).setHeatSt h 5)
  else .next s

/-- Operations of a core that the drain cuts off complete with heat stopped (R202, R265). -/
def Core.cutOff (c : Core) : Core :=
  let c := c.outQ.foldl (fun c q => q.2.foldl (fun c i => match i with
    | .pkt p => if p.refused then c else c.complete p.op 0 3 p.units
    | .skip _ => c) c) c
  let c := c.relQ.foldl (fun c q => q.2.foldl (fun c x => if x.refused then c else c.complete x.op 1 3 x.units) c) c
  let c := c.relBuf.foldl (fun c q => q.2.foldl (fun c b => c.complete b.op 2 3 b.filled) c) c
  { c with
    outQ := c.outQ.map fun q => (q.1, q.2.filter fun i => match i with | .skip _ => true | .pkt .. => false)
    relQ := [], relBuf := [] }

/-- DRAIN_END (R202, R204): the end of stride 15 of lap B. -/
def execDrainEnd (h : HeatId) (s : State) : Res :=
  let h := h.toNat
  match (s.heat h).drain with
  | some b =>
    if s.heatSt h = 5 && (decide (b < s.lapN) || decide (16 ≤ s.stride)) then
      let s := s.each ((s.heatCores h).filter fun k => (Tab.find s.cores k).isSome) fun s k =>
        ((s.modCore k Core.cutOff).dmaStop k).attendStop k
      .next (s.recallDone h)
    else .next s
  | none => .next s

/-! ### Reset (R214 to R217, R612, R622) -/

/-- Zero every byte of a heat's memory units that meet a test, its ECC with it (R215). -/
def State.scrub (s : State) (h : Nat) (p : MemUnit → Bool) : State :=
  let hit (a : Nat) : Bool := match s.memUnit a with
    | some u => p u && s.unitOwner u == some h
    | none => false
  { s with mem := { s.mem with
      cells := s.mem.cells.filter fun c => !hit c.1
      bad := s.mem.bad.filter fun g => !hit (8 * g.1) } }

/-- The end of a reset (R216): the heat's cores have left reset, halted (R278). -/
def State.resetDone (s : State) (h : Nat) (scrubbed : Bool) : State :=
  let ls := (s.heat h).resetLines
  let s := s.modHeat h fun r => { r with resetLines := [] }
  let s := s.each ((s.heatCores h).filter fun k => !s.fenced k) fun s k => s.modCore k fun c => { c with run := .halted }
  let s := ((s.put (F.HEAT_H_STATE_resumable h) 0).flag F.HEAT_EVT_reset).heatStops h
  s.each ls fun s l => s.okC l ["heat=" ++ toString h ++ " state=stopped scrubbed=" ++ toString scrubbed.toNat]

/-- HEAT_RESET (R214, R215, R716). -/
def execHeatReset (l : Line) (s : State) : Res :=
  .next (s.command l { classC := true, modes := [.ready], keys := [heatKey], req := ["id"] } fun a s =>
    let h := a.nat "id"
    let scrub := s.getA (F.HEAT_H_CFG_scrub h) = 1
    if s.heatSt h = 0 then .err "0336 HEAT NOT COMMITTED"
    else
      let s := (s.abandonCommit h).cancelStart h
      let s := if heatLive (s.heatSt h) then
          s.put48 (F.HEAT_H_STOP_LO_lap_lo h) (F.HEAT_H_STOP_HI_lap_hi h) s.lapN else s
      let s := s.setHeatSt h 7
      let s := s.each ((s.heatCores h).filter fun k => (Tab.find s.cores k).isSome) State.coreReset
      let s := if (s.halH h).ops.isEmpty then s else s.flag F.HAL_EVT_flush
      let s := s.modHal h fun x => { HalHeat.blank with flip := x.flip, flushed := true }
      let s := (((s.discardHeld h 3 s.lapN fun _ => true).relDrainAll h).relZero h)
      let s := s.modHeat h fun r => { r with resetLines := r.resetLines ++ [l], drain := none, recallAt := none }
      if scrub then
        let reserve := (List.range 8).any fun r => s.ownsReserve h r
        .wait (if reserve then
          (s.scrub h fun u => match u with | .reserve _ => true | _ => false).put (F.HEAT_H_STATE_scrubbing h) 1 else s)
      else .wait (s.resetDone h false))

/-- SCRUB_COMPLETE (R215, R216): scratchpads and tier 1 of a resetting heat read zero. -/
def execScrubComplete (h : HeatId) (s : State) : Res :=
  let h := h.toNat
  if s.heatSt h = 7 then
    .next ((s.scrub h fun u => match u with | .sp _ => true | .slice _ => true | _ => false).resetDone h true)
  else .next s

/-- RESERVE_SCRUB_COMPLETE (R215): the zeros themselves stand from the reset on (log entry 47). -/
def execReserveScrubComplete (h : HeatId) (s : State) : Res := .next (s.put (F.HEAT_H_STATE_scrubbing h.toNat) 0)

/-! ### heat show and heat set (R714, R715) -/

def geomText (g : Nat) : String := commaSep [bitsOf g 0 3, bitsOf g 4 3, bitsOf g 8 4, bitsOf g 12 4]

/-- The lines of `heat show` for one heat. -/
def State.heatLines (s : State) (h : Nat) (detail : Bool) : List String :=
  let g := s.geomA h
  let st := s.heatSt h
  let line := join ([kvp "heat" h, "state=" ++ heatStateName st, "geom=" ++ geomText g,
    kvp "blocks" (if geomNone g then 0 else (geomBlocks g).length), kvp "good" (s.get (F.HEAT_H_GOOD_good h)),
    kvp "ranks" (s.get (F.HEAT_H_GOOD_ranks h)), kvp "c" (if geomNone g then 0 else s.halC h),
    "att=0x" ++ hexN 8 (s.rd (R.HEAT_H_ATT h)), kvp "rel" (s.getA (F.HEAT_H_CFG_rel_en h)),
    kvp "scrub" (s.getA (F.HEAT_H_CFG_scrub h)),
    kvp "started" (s.get48 (F.HEAT_H_START_LO_lap_lo h) (F.HEAT_H_START_HI_lap_hi h)),
    kvp "resumable" (s.get (F.HEAT_H_STATE_resumable h))] ++
    (if st = 1 || st = 6 then [kvp "stopped" (s.stopLap h), kvp "cause" (s.get (F.HEAT_H_STATE_cause h))] else []))
  let k := s.getA (F.HAL_H_CFG_smxc_k h)
  let more := join [kvp "floor" (10 * s.getA (F.MSH_H_CFG_floor h)), kvp "uniform" (s.getA (F.MSH_H_CFG_uniform h)),
    "k=" ++ toString (if k < 8 then (k : Int) else (k : Int) - 16), kvp "prov" (s.getA (F.HAL_H_CFG_prov_en h)),
    "team=" ++ (if s.getA (F.TEAM_H_CFG_en h) = 1 then toString (s.getA (F.TEAM_H_CFG_id h)) else "-"),
    "pend=" ++ geomText (s.rd (R.HEAT_H_GEOM h))]
  if detail then [line, more] else [line]

/-- HEAT_SHOW (R715). -/
def execHeatShow (l : Line) (s : State) : Res :=
  .next (s.command l { classC := false, modes := [.ready], keys := [heatKey, ("detail", .num 0 1 1)] } fun a s =>
    let hs := match a.nat? "id" with
      | some h => [h]
      | none => (List.range 32).filter s.heatExists
    .ok (hs.flatMap fun h => s.heatLines h (a.nat "detail" == 1)) s)

/-- The keys of Table 17-2. -/
def heatSetKeys : List (String × Form) :=
  [heatKey, ("bc0", .num 0 7 1), ("br0", .num 0 7 1), ("w", .num 0 8 1), ("h", .num 0 8 1), ("rel", .num 0 1 1),
   ("scrub", .num 0 1 1), ("floor", .num 800 1800 10), ("uniform", .num 0 1 1), ("smxc_k", .sgn (-8) 7),
   ("prov", .num 0 1 1)]

/-- HEAT_SET (R714): every field named, or none. -/
def execHeatSet (l : Line) (s : State) : Res :=
  .next (s.command l { classC := true, modes := [.ready], keys := heatSetKeys, req := ["id"] } fun a s =>
    let h := a.nat "id"
    let st := s.heatSt h
    let geo := ["bc0", "br0", "w", "h"].any a.has
    if geo && s.on F.MAR_STATUS_lock then .err "0317 LOCKED"
    else if st = 6 then .err "0335 HEAT HALTED"
    else if heatBusy st || (geo && st = 7) then .err "0312 HEAT RUNNING"
    else
      let put (f : Fld) (k : String) (d : Nat) (s : State) : State := match a.nat? k with
        | some v => s.put f (v / d)
        | none => s
      let s := put (F.HEAT_H_GEOM_bc0 h) "bc0" 1 (put (F.HEAT_H_GEOM_br0 h) "br0" 1
        (put (F.HEAT_H_GEOM_w h) "w" 1 (put (F.HEAT_H_GEOM_h h) "h" 1 s)))
      let s := put (F.HEAT_H_CFG_rel_en h) "rel" 1 (put (F.HEAT_H_CFG_scrub h) "scrub" 1
        (put (F.MSH_H_CFG_floor h) "floor" 10 (put (F.MSH_H_CFG_uniform h) "uniform" 1
          (put (F.HAL_H_CFG_prov_en h) "prov" 1 s))))
      .ok [] (match a.int? "smxc_k" with
        | some k => s.put (F.HAL_H_CFG_smxc_k h) (k % 16).toNat
        | none => s))

end Sys2Proof.Machine
end

