-- ==== Sys2Proof/Machine/Lines.lean ====
section
/-! DEFINITION. The text of a console line: its form, its tokens, its verb and object, the checks of Table 16-6 that read
nothing but the text, and the stop recogniser (R671 to R678, R684, R693, R695, Tables 16-3 and 17-1). -/

namespace Sys2Proof.Machine

/-! ### Tokens (R672) -/

/-- A token with its column; `open_`: it has an unterminated quoted string. -/
structure Tok where
  text : List Char
  col : Nat
  open_ : Bool
  deriving DecidableEq, Repr

/-- A token being read: column of the next byte, text of the token (reversed) and its column, whether a quoted string is
open, and whether the last byte was an escape within one. -/
structure TokState where
  at_ : Nat
  cur : List Char
  col : Nat
  quoted : Bool
  esc : Bool
  done : List Tok
  deriving DecidableEq, Repr

def TokState.flush (t : TokState) : TokState :=
  if t.cur.isEmpty then t else { t with cur := [], done := t.done ++ [⟨t.cur.reverse, t.col, t.quoted⟩] }

def TokState.next (t : TokState) (c : Char) : TokState :=
  let t' := { t with at_ := t.at_ + 1 }
  if c = ' ' && !t.quoted then { t.flush with at_ := t.at_ + 1 }
  else
    let put : TokState := { t' with cur := c :: t.cur, col := if t.cur.isEmpty then t.at_ else t.col }
    if t.esc then { put with esc := false }
    else if t.quoted && c = '\\' then { put with esc := true }
    else if c = '"' then { put with quoted := !t.quoted }
    else put

/-- The tokens of a text whose first byte has column 1. -/
def tokens (cs : List Char) : List Tok := (cs.foldl TokState.next ⟨1, [], 1, false, false, []⟩).flush.done

/-! ### Forms (R671, R674, R676 to R678) -/

/-- A complete line read as text: the tag (and CRC) its reply takes, an error of step 1, the module it is routed to or the
error of the route, and its tokens with the bytes that a routed line forwards. -/
structure Parsed where
  gen : Option (String × BitVec 8)
  err : Option String
  route : Except String (Option (BitVec 10))
  toks : List Tok
  forward : List Byte

def byteChars (bs : List Byte) : List Char := bs.map fun b => Char.ofNat b.toNat
def charBytes (cs : List Char) : List Byte := cs.map fun c => BitVec.ofNat 8 c.toNat

/-- Whether a line is in generated form: its first byte after any leading spaces is `#`. -/
def isGenerated (bs : List Byte) : Bool := (bs.dropWhile (· == 0x20)).head? == some 0x23

/-- A tag of R676. -/
def tagOk (t : List Char) : Bool :=
  decide (t.length ≤ 10) && (match decimal t with | some n => decide (n < p2 32) | none => false)

/-- The route of a body and the body after it (Table 16-3). -/
def cutRoute (body : List Char) : Except String (Option (BitVec 10)) × List Char :=
  match body.dropWhile (· == ' ') with
  | '@' :: t =>
    let a := t.takeWhile (· != ' ')
    let rest := (t.dropWhile (· != ' ')).dropWhile (· == ' ')
    match decimal a with
    | none => (.error "0105 BAD TOKEN", rest)
    | some n => if n < 1024 then (.ok (some (BitVec.ofNat 10 n)), rest) else (.error outOfRange, rest)
  | _ => (.ok none, body)

def parseTyped (mailbox long_ : Bool) (cs : List Char) : Parsed :=
  let (r, body) := cutRoute cs
  let err := if mailbox then some "ERR 0111 BAD TAG" else if long_ then some "ERR 0101 LINE TOO LONG" else none
  ⟨if mailbox then some ("?", 0) else none, err, r, tokens body, charBytes body ++ [13]⟩

def parseGenerated (long_ : Bool) (cs : List Char) : Parsed :=
  let text := (cs.dropWhile (· == ' ')).drop 1
  let tag := text.takeWhile (· != ' ')
  let good := tagOk tag
  let tail := (text.reverse.take 4).reverse
  let covered := text.take (text.length - 4)
  let crc := crc8 (covered.map Char.toNat)
  let sum : Option Nat := match tail with
    | [' ', '*', a, b] => digits 16 charHex [a, b]
    | _ => none
  let bad := cs.any fun c => decide (c.toNat < 0x20) || decide (0x7E < c.toNat)
  let err :=
    if long_ then some "ERR 0101 LINE TOO LONG"
    else if bad then some "ERR 0113 BAD CHARACTER"
    else if !good then some "ERR 0111 BAD TAG"
    else if sum ≠ some crc then some "ERR 0110 BAD CRC"
    else none
  let (r, body) := cutRoute ((covered.drop tag.length).drop 1)
  let tagText := if good then String.ofList tag else "?"
  ⟨some (tagText, BitVec.ofNat 8 crc), err, r, tokens body,
    charBytes (genLine tagText (String.ofList body)).toList ++ [13]⟩

/-- Read a line's text. -/
def parseLine (mailbox long_ : Bool) (bs : List Byte) : Parsed :=
  if isGenerated bs then parseGenerated long_ (byteChars bs) else parseTyped mailbox long_ (byteChars bs)

/-! ### Verbs and objects (Table 17-1, R674, R677) -/

/-- A verb's objects, `""` where it may stand without one, each with whether it is of class C. -/
def verbTable : List (String × List (String × Bool)) :=
  [("baton", [("show", false), ("topo", true), ("retrain", true), ("eq", true), ("set", true), ("enable", true)]),
   ("claim", [("", true)]), ("unclaim", [("", true)]), ("get", [("reg", false), ("session", false)]),
   ("halyard", [("show", false), ("counters", false)]),
   ("heat", [("show", false), ("set", true), ("reset", true), ("commit", true), ("recall", true), ("start", true)]),
   ("help", [("", false)]), ("hold", [("", true), ("release", true)]),
   ("image", [("show", false), ("load", true)]),
   ("journal", [("", false), ("show", false), ("clear", true)]), ("kv", [("show", false)]),
   ("lap", [("status", false), ("counters", false), ("set", true), ("out", true), ("realign", true), ("pacer adopt", true)]),
   ("log", [("", false)]),
   ("marshal", [("show", false), ("lock", true), ("service", true), ("inject", true), ("restore", true)]),
   ("mesh", [("show", false), ("dist", false), ("slot", false), ("late", false)])] ++
  [("num", [("show", false), ("cfg", true), ("seed", true), ("clear", true)]),
   ("power", [("show", false), ("clock", true)]), ("reboot", [("", true)]), ("set", [("reg", true), ("session", true)]),
   ("status", [("", false), ("fence", false)]), ("stop", [("", true)]),
   ("team", [("show", false), ("tail", false), ("set", true)]), ("thermal", [("show", false), ("warn", true)]),
   ("update", [("show", false), ("begin", true), ("data", true), ("end", true), ("apply", true)])]

def objectsOf (verb : String) : List (String × Bool) :=
  match List.find? (fun x => x.1 == verb) verbTable with
  | some (_, os) => os
  | none => []

/-- The verb a word stands for, or its error. -/
def resolveVerb (gen : Bool) (w : List Char) : Except String String :=
  let w := w.map Char.toLower
  let hits := (verbTable.map (·.1)).filter fun v => w.isPrefixOf v.toList
  if hits.contains (String.ofList w) then .ok (String.ofList w)
  else if w.length < 3 then .error "0102 UNKNOWN VERB"
  else if gen && !hits.isEmpty then .error "0112 ABBREVIATION NOT ALLOWED"
  else
    match hits with
    | [] => .error "0102 UNKNOWN VERB"
    | [v] => .ok v
    | _ => .error "0103 AMBIGUOUS VERB"

def hasEq (t : Tok) : Bool := t.text.contains '='
def Tok.word (t : Tok) : String := lower (String.ofList t.text)

/-- The column just past the last token. -/
def endColOf (toks : List Tok) : Nat :=
  match toks.getLast? with
  | some t => t.col + t.text.length
  | none => 1

/-- The object that follows a verb and the tokens after it, or the error with its column. -/
def resolveObject (verb : String) (toks : List Tok) (endCol : Nat) : Except String (String × List Tok) :=
  let os := objectsOf verb
  let has (o : String) : Bool := os.any fun x => x.1 == o
  let unknown (c : Nat) : Except String (String × List Tok) := .error (errCol "0104 UNKNOWN OBJECT" c)
  if verb = "help" then .ok ("", toks)
  else
    match toks with
    | [] => if has "" then .ok ("", []) else if has "reg" then .ok ("reg", []) else unknown endCol
    | t :: rest =>
      if hasEq t then
        if has "" then .ok ("", toks) else if has "reg" then .ok ("reg", toks) else unknown t.col
      else if t.word = "reg" then unknown t.col
      else if verb = "lap" && t.word = "pacer" then
        match rest with
        | u :: more => if u.word = "adopt" then .ok ("pacer adopt", more) else unknown u.col
        | [] => unknown endCol
      else if t.word ≠ "" && has t.word then .ok (t.word, rest)
      else unknown t.col

/-- A character of a key. -/
def isKeyChar (c : Char) : Bool := c.isAlphanum || c == '_' || c == '.'

/-- A token as an argument; a malformed one has an empty key (Table 16-3). -/
def argOf (t : Tok) : Arg :=
  let k := t.text.takeWhile (· != '=')
  let v := (t.text.dropWhile (· != '=')).drop 1
  if hasEq t && !t.open_ && k.all isKeyChar then ⟨String.ofList k, String.ofList v, t.col⟩
  else ⟨"", String.ofList t.text, t.col⟩

/-- The verb and object of a line's tokens and the tokens of its arguments, or the error of step 3. -/
def verbOf (gen : Bool) (toks : List Tok) : Except String (String × String × List Tok) :=
  match toks with
  | [] => .error (errCol "0102 UNKNOWN VERB" 1)
  | t :: rest =>
    match resolveVerb gen t.text with
    | .error e => .error (errCol e t.col)
    | .ok v =>
      match resolveObject v rest (endColOf toks) with
      | .error e => .error e
      | .ok (o, args) => .ok (v, o, args)

/-- Whether a line is of class C: what does not parse waits as class R. -/
def classC (p : Parsed) : Bool :=
  match verbOf p.gen.isSome p.toks with
  | .ok (v, o, _) => (objectsOf v).any fun x => x.1 == o && x.2
  | .error _ => false

/-! ### The stop recogniser (R693, R695) -/

/-- The heats a recognised stop line names: an empty list for every one. -/
def stopNames (p : Parsed) : Option (List Nat) :=
  if p.err.isSome then none
  else
    match p.route with
    | .error _ => none
    | .ok (some _) => none
    | .ok none =>
      match p.toks with
      | [t] => if t.word = "stop" || (t.word = "sto" && p.gen.isNone) then some [] else none
      | [t, u] =>
        let a := argOf u
        if t.word = "stop" && lower a.key = "heat" then
          match (Form.list 0 31 false).parse a.val with
          | .ok (.list l) => some l
          | _ => none
        else none
      | _ => none

end Sys2Proof.Machine
end

