-- ==== Sys2Proof/Machine/Sessions.lean ====
section
/-! DEFINITION. Console transports and sessions: opening and closing, bytes and editing, complete lines, the mailbox and the
console tunnel (R667 to R675, R690, R693 to R705, Tables 16-1, 16-2, 16-5, 16-11 to 16-13). -/

namespace Sys2Proof.Machine

/-! ### Sessions (R667 to R669) -/

/-- A session with the settings its transport opens with (Table 16-11). -/
def Session.fresh (ep : Endpoint) (form : SForm) (echo : Bool) (events : Nat) : Session :=
  { ep := ep, echo := echo, form := form, lastGen := false, events := events, baud := 115200, newBaud := none,
    flow := false, ctsOff := false, rtsOff := false, part := [], long_ := false, lastCr := false, out := [], paused := [], dropped := 0,
    kept := [], line := none, lastMs := 0 }

def Endpoint.fresh (ep : Endpoint) (gen : Bool) : Session :=
  match ep with
  | .uart => Session.fresh ep .auto true 2
  | .usb => Session.fresh ep .auto true 2
  | .mailbox _ => Session.fresh ep .generated false 1
  | .tunnel _ _ => Session.fresh ep (if gen then .generated else .typed) false 0

/-- The session of an endpoint. -/
def State.sessionOf (s : State) (ep : Endpoint) : Option Nat :=
  (List.range 4).find? fun i => match s.session i with | some x => x.ep == ep | none => false

def State.putSession (s : State) (i : Nat) (x : Session) : State :=
  { s with con := { s.con with sess := Tab.put i x s.con.sess } }

/-- A session as it opens now. -/
def State.freshSession (s : State) (ep : Endpoint) (gen : Bool) : Session := { ep.fresh gen with lastMs := s.boot.ms }

/-- The single line of an endpoint that finds no session (R669). -/
def State.noSession (s : State) (ep : Endpoint) : State :=
  let text := lineBytes "ERR 0401 NO SESSION"
  let s := { s with con := { s.con with refused := ep :: s.con.refused } }
  match ep with
  | .mailbox pf => s.ringOut pf.val text
  | .tunnel m n => s.tunnelSend m n text
  | _ => s.send (.bytes ep text)

/-- An endpoint opens: session 0 for the UART, else the lowest free of 1 to 3; one that is open, or was refused and has not
closed, stays as it is. -/
def State.openSession (s : State) (ep : Endpoint) (gen : Bool) : State :=
  if (s.sessionOf ep).isSome || s.con.refused.contains ep then s
  else if ep = .uart then s.putSession 0 (s.freshSession ep gen)
  else
    match [1, 2, 3].find? fun i => (s.session i).isNone with
    | none => s.noSession ep
    | some i =>
      let s := s.putSession i (s.freshSession ep gen)
      match ep with
      | .mailbox pf =>
        s.modMail pf.val fun m => { m with mstat := 1 + 2 * i, lost := 0, fullMs := none }
      | _ => s

/-- An endpoint closes. -/
def State.closeEndpoint (s : State) (ep : Endpoint) : State :=
  let s := { s with con := { s.con with refused := s.con.refused.filter (· != ep) } }
  match s.sessionOf ep with
  | some i => s.closeSession i
  | none => s

/-! ### Complete lines (R690, R693 to R695) -/

/-- Bytes of a session's input buffer: its partial line and its lines that have not begun. -/
def State.inUsed (s : State) (i : Nat) : Nat :=
  (match s.session i with | some x => x.part.length | none => 0) +
    ((s.con.queue.filter fun q => q.sess == i).map fun q => q.text.length + 1).sum

/-- RTS_N with flow = 1: deasserted from 3 KiB of input on, asserted again below 1 KiB (Table 16-12). -/
def State.rts (s : State) : State :=
  let n := s.inUsed 0
  s.modSession 0 fun x => { x with rtsOff := x.flow && (decide (3072 ≤ n) || (x.rtsOff && decide (1024 ≤ n))) }

/-- A byte that finds no room is discarded and counted (R631, Table 16-12). -/
def State.rxDrop (s : State) (n : Nat) : State :=
  if n = 0 then s else (s.bump F.STA_CNT_RXDROP_count n).flag F.STA_EVT_rxdrop

/-- Whether an endpoint takes generated lines only. -/
def Session.mailbox (x : Session) : Bool := match x.ep with | .mailbox _ => true | _ => false

/-- A complete line of a session: the stop recogniser sees it, then it takes its place in the queue. An empty typed line has
no reply, only a prompt. -/
def State.lineIn (s : State) (i : Nat) (text : List Byte) (long_ : Bool) : State :=
  match s.session i with
  | none => s
  | some x =>
    let s := s.modSession i fun x => { x with lastMs := s.boot.ms }
    if text.all (· == 0x20) && !long_ then (if x.echo then s.putBytes i prompt else s)
    else
      let s := s.modSession i fun x => { x with lastGen := isGenerated text }
      let p := parseLine x.mailbox long_ text
      let named := if s.cmode = .ready then stopNames p else none
      let (stopped, s) := match named with
        | none => (none, s)
        | some l =>
          let (hs, s) := s.stopHeats (if l.isEmpty then s.stopAll else l)
          (some hs, s)
      { s with con := { s.con with queue := s.con.queue ++ [⟨i, text, long_, stopped⟩] } }

/-- The partial line of a session ends. -/
def State.lineDone (s : State) (i : Nat) : State :=
  match s.session i with
  | none => s
  | some x => (s.putSession i { x with part := [], long_ := false }).lineIn i x.part x.long_

/-! ### Bytes (R671, R675, Table 16-5) -/

/-- The echo of a typed byte. -/
def State.echo (s : State) (i : Nat) (on_ : Bool) (bs : List Byte) : State := if on_ then s.putBytes i bs else s

/-- A byte that is none of a terminator's: appended, beyond 512 discarded; typed lines are edited. -/
def State.editByte (s : State) (i : Nat) (x : Session) (b : Byte) : State :=
  let gen := isGenerated (x.part ++ [b])
  let e := x.echo && !gen
  let add (s : State) : State :=
    if 512 ≤ x.part.length then s.putSession i { x with long_ := true, lastCr := false }
    else s.putSession i { x with part := x.part ++ [b], lastCr := false }
  if gen then add s
  else if 0x20 ≤ b.toNat && b.toNat ≤ 0x7E then (add s).echo i e [b]
  else if b = 0x08 || b = 0x7F then
    (s.putSession i { x with part := x.part.dropLast, lastCr := false }).echo i e [8, 0x20, 8]
  else if b = 0x15 then
    (s.putSession i { x with part := [], long_ := false, lastCr := false }).echo i e
      ([13] ++ List.replicate x.part.length 0x20 ++ [13] ++ prompt)
  else if b = 0x03 then
    (s.putSession i { x with part := [], long_ := false, lastCr := false }).echo i e ([0x5E, 0x43, 13, 10] ++ prompt)
  else s.putSession i { x with lastCr := false }

/-- A byte arrives in an open UART or USB session. -/
def State.byteIn (s : State) (i : Nat) (b : Byte) : State :=
  match s.session i with
  | none => s
  | some x =>
    if b = 10 && x.lastCr then s.putSession i { x with lastCr := false }
    else if 4096 ≤ s.inUsed i then (if x.ep = .uart then s.rxDrop 1 else s)
    else if b = 13 || b = 10 then
      let s := s.putSession i { x with lastCr := b == 13 }
      (s.echo i (x.echo && !isGenerated x.part) [13, 10]).lineDone i
    else s.editByte i x b

/-- The UART's bytes before its session opens: buffered from S-03, up to 4 KiB; lost before; counted where a restart of the
Starter discards them (R631, R663). -/
def State.uartByte (s : State) (b : Byte) : State :=
  if s.boot.restarting then s.rxDrop 1
  else if (s.session 0).isSome then (s.byteIn 0 b).rts
  else if s.boot.main && decide (3 ≤ s.boot.step) then
    if s.con.early.length < 4096 then { s with con := { s.con with early := s.con.early ++ [b] } } else s.rxDrop 1
  else s

/-- UART_BYTE (R675, R671): a byte on the UART, or on USB. -/
def execUartByte (usb : Bool) (b : Byte) (s : State) : Res :=
  if usb then
    match s.sessionOf .usb with
    | some i => .next (s.byteIn i b)
    | none => .next s
  else .next (s.uartByte b)

/-- UART_BREAK (R670). -/
def execUartBreak (s : State) : Res :=
  .next (s.modSession 0 fun x => { x with baud := 115200, newBaud := none, part := [], long_ := false })

/-- UART_CTS_CHANGE (Table 16-12): `off`, CTS_N is deasserted. -/
def execUartCtsChange (off : Bool) (s : State) : Res := .next (s.modSession 0 fun x => { x with ctsOff := off })

/-- CONSOLE_LINE (R671, R690): the bytes of a line and its terminator arrive in a session. -/
def execConsoleLine (sess : SessId) (text : List Byte) (s : State) : Res :=
  match s.session sess.val with
  | none => .next s
  | some x =>
    match x.ep with
    | .uart => .next ((s.each text fun s b => s.byteIn sess.val b).byteIn sess.val 13).rts
    | .usb => .next ((s.each text fun s b => s.byteIn sess.val b).byteIn sess.val 13)
    | _ => .next (s.lineIn sess.val (text.take 512) (decide (512 < text.length)))

/-! ### USB (Table 16-2) -/

/-- Whether USB and the mailboxes are served: S-06 has ended and did not run under alternative B (Table 15-5). -/
def State.transports (s : State) : Bool :=
  (s.session 0).isSome && s.get (F.STA_STEP_alt 6) != 2 && !s.boot.restarting

/-- USB_OPEN. -/
def execUsbOpen (s : State) : Res := .next (if s.transports then s.openSession .usb false else s)

/-- USB_CLOSE. -/
def execUsbClose (s : State) : Res := .next (s.closeEndpoint .usb)

/-! ### The mailbox (R702 to R705) -/

def State.mailbox (s : State) (pf : Nat) : Mailbox := Tab.get Mailbox.blank s.con.mail pf
def State.putMail (s : State) (pf : Nat) (m : Mailbox) : State :=
  { s with con := { s.con with mail := Tab.put pf m s.con.mail } }

/-- mstat as the host reads it (Table 16-13). -/
def State.mailStat (s : State) (pf : Nat) : Nat :=
  (s.mailbox pf).mstat + s.boot.restarting.toNat * 8 + (s.cmode == .hold).toNat * 16 + (s.cmode == .boot).toNat * 32 +
    s.black.toNat * 128

/-- BAR4 is served: configuration has been released. -/
def State.bar4 (s : State) : Bool := s.on F.STA_BOOT_cfg_rel && s.get (F.STA_STEP_alt 6) != 2

/-- The bytes of the input ring that have not been taken. -/
def Mailbox.waiting (m : Mailbox) : List Byte :=
  (List.range ((m.inProd + p2 32 - m.inCons) % p2 32)).map fun i => Tab.get 0 m.inRing ((m.inCons + i) % 16384)

/-- Take complete lines from the input ring while the input buffer has room for them. -/
def State.mailTake (s : State) (pf : Nat) : Nat → State
  | 0 => s
  | n + 1 =>
    if s.boot.restarting then s
    else
      let go (i : Nat) (x : Session) (ep : Fin 2) : State :=
        let m := s.mailbox ep.val
        let bs := m.waiting
        let text := bs.takeWhile fun b => b != 13 && b != 10
        match bs.drop text.length with
        | [] => s
        | b :: _ =>
          if 4096 < s.inUsed i + text.length then s
          else
            let s := s.putMail ep.val { m with inCons := (m.inCons + text.length + 1) % p2 32 }
            let s := s.putSession i { x with lastCr := b == 13 }
            if text.isEmpty && b = 10 && x.lastCr then State.mailTake s pf n
            else State.mailTake (s.lineIn i (text.take 512) (decide (512 < text.length))) pf n
      if h : pf < 2 then
        match s.sessionOf (.mailbox ⟨pf, h⟩) with
        | none => s
        | some i =>
          match s.session i with
          | none => s
          | some x => go i x ⟨pf, h⟩
      else s

/-- MAILBOX_HCTL_WRITE (R702, Table 16-2): during a restart of the Starter the word is kept for its end. -/
def execMailboxHctlWrite (pf : Fin 2) (v : Word) (s : State) : Res :=
  if !s.bar4 then .next s
  else
    let s := s.putMail pf.val { s.mailbox pf.val with hctl := v.toNat % 4 }
    if s.boot.restarting then .next s
    else if v.toNat % 2 = 1 then .next (s.openSession (.mailbox pf) true)
    else .next (s.closeEndpoint (.mailbox pf))

/-- MAILBOX_DOORBELL (R702, R703): the host has written `bytes` in the input ring and advanced in_prod over them. -/
def execMailboxDoorbell (pf : Fin 2) (bytes : List Byte) (s : State) : Res :=
  if !s.bar4 then .next s
  else
    let m := s.mailbox pf.val
    let room := 16384 - (m.inProd + p2 32 - m.inCons) % p2 32
    let bs := bytes.take room
    let ring := (bs.zipIdx).foldl (fun r p => Tab.put ((m.inProd + p.2) % 16384) p.1 r) m.inRing
    let s := s.putMail pf.val { m with inRing := ring, inProd := (m.inProd + bs.length) % p2 32 }
    .next (s.mailTake pf.val (bs.length + 1))

/-- MAILBOX_OUTPUT_TIMEOUT (R704): for 10 s output has found no room in the ring. -/
def execMailboxOutputTimeout (pf : Fin 2) (s : State) : Res :=
  if (s.sessionOf (.mailbox pf)).isSome && (s.mailbox pf.val).fullMs.any fun t => decide (t + 10000 ≤ s.boot.ms) then
    .next ((s.closeEndpoint (.mailbox pf)).modMail pf.val fun m => { m with mstat := 64, fullMs := none })
  else .next s

/-- FUNCTION_LEVEL_RESET (R668). -/
def execFunctionLevelReset (pf : Fin 2) (s : State) : Res :=
  .next ((s.closeEndpoint (.mailbox pf)).putMail pf.val { s.mailbox pf.val with hctl := 0, mstat := 0 })

/-! ### Output (R670, R699) -/

/-- What waited for output space goes on: paused replies, then the report of dropped lines. -/
def State.outResume (s : State) (i : Nat) : State :=
  match s.session i with
  | none => s
  | some x =>
    let s := if x.paused.isEmpty then s
      else (s.putSession i { x with paused := [] }).replyBytes i x.paused
    let s := if x.line.isSome && !x.paused.isEmpty then s.lineEnds i else s
    match s.session i with
    | none => s
    | some y =>
      let text := "EVT lost " ++ s.posText ++ " n=" ++ toString y.dropped
      let t := if y.generated then genLine "E" text else text
      let s := if y.paused.isEmpty && y.dropped != 0 && decide (t.length + 2 ≤ s.outFree y) then
          (s.putSession i { y with dropped := 0 }).putLine i t
        else s
      s.modSession i fun z =>
        match z.newBaud with
        | some b => if z.out.isEmpty then { z with baud := b, newBaud := none } else z
        | none => z

/-- OUTPUT_SPACE_FREE (R699): `n` bytes of a session's output are taken: by the UART's or USB's transmitter, none where
flow control holds the UART, or by the host, which advances out_cons. -/
def execOutputSpaceFree (sess : SessId) (n : BitVec 16) (s : State) : Res :=
  let i := sess.val
  match s.session i with
  | none => .next s
  | some x =>
    match x.ep with
    | .mailbox pf =>
      let m := s.mailbox pf.val
      let k := min n.toNat ((m.outProd + p2 32 - m.outCons) % p2 32)
      if k = 0 then .next s
      else .next ((s.putMail pf.val { m with outCons := (m.outCons + k) % p2 32, fullMs := none }).outResume i)
    | .tunnel _ _ => .next (s.outResume i)
    | ep =>
      if ep = .uart && x.flow && x.ctsOff then .next s
      else .next (((s.putSession i { x with out := x.out.drop n.toNat }).send (.bytes ep (x.out.take n.toNat))).outResume i)

/-! ### The console tunnel (R491, R700, R701) -/

/-- The text of a reply line received under a route: its tag and CRC removed. -/
def untag (bs : List Byte) : String :=
  let cs := byteChars bs
  match cs with
  | '#' :: t => String.ofList (((t.dropWhile (· != ' ')).drop 1).take (t.length - ((t.takeWhile (· != ' ')).length + 5)))
  | _ => String.ofList cs

/-- Whether a reply line is a final line. -/
def isFinal (t : String) : Bool := t = "OK" || "ERR ".toList.isPrefixOf t.toList

/-- A byte of a reply to a routed line. -/
def Routed.byte (r : Routed) (b : Byte) : Routed :=
  if b = 13 then r
  else if b = 10 then { r with part := [], lines := r.lines ++ [untag r.part] }
  else { r with part := r.part ++ [b] }

/-- Bytes of a reply to the routed line at place `j` of the list: its lines are answered together, each with the route
before it, when its final line has come (R701). -/
def State.routedIn (s : State) (j : Nat) (r : Routed) (bs : List Byte) : State :=
  let r := bs.foldl Routed.byte r
  match r.lines.getLast? with
  | some t =>
    if isFinal t then
      let s := { s with con := { s.con with routed := s.con.routed.eraseIdx j } }
      let pre (x : String) : String := "@" ++ toString r.mod ++ " " ++ x
      if r.dead then s else s.reply r.line (r.lines.dropLast.map pre) (pre t)
    else { s with con := { s.con with routed := s.con.routed.set j r } }
  | none => { s with con := { s.con with routed := s.con.routed.set j r } }

/-- Line bytes for a tunnel session, opened where it is not. -/
def State.tunnelLine (s : State) (ep : Endpoint) (bs : List Byte) : State :=
  let s := { s with con := { s.con with refused := s.con.refused.filter (· != ep) } }
  let s := s.openSession ep (isGenerated bs)
  match s.sessionOf ep with
  | none => s
  | some i =>
    s.each bs fun s b =>
      match s.session i with
      | none => s
      | some x =>
        if b = 10 && x.lastCr then s.putSession i { x with lastCr := false }
        else if b = 13 || b = 10 then (s.putSession i { x with lastCr := b == 13 }).lineDone i
        else if 4096 ≤ s.inUsed i then s
        else if 512 ≤ x.part.length then s.putSession i { x with long_ := true, lastCr := false }
        else s.putSession i { x with part := x.part ++ [b], lastCr := false }

/-- A console tunnel frame: forwarded toward its module, or taken: by the oldest line routed to its source from the session
it names, else as a line (log entry 52). -/
def State.tunnelIn (s : State) (fs : List Flit) : State :=
  let h := (fs.headD 0).toNat
  let src := bitsOf h 0 10
  let dst := bitsOf h 10 10
  let n := bitsOf h 20 2
  let bs := ((fs.drop 1).flatMap fun f => leBytes f.toNat 32).take (bitsOf h 22 9)
  if dst ≠ s.selfAddr then
    match s.tunnelPort dst with
    | some p => s.express p 3 fs
    | none => s
  else
    match (s.con.routed.zipIdx).find? fun r => r.1.mod == src && r.1.line.sess.val == n with
    | some (r, j) => s.routedIn j r bs
    | none => if (s.session 0).isSome && !s.boot.restarting then s.tunnelLine (.tunnel src n) bs else s

/-- TUNNEL_FRAME (R491, R701). -/
def execTunnelFrame (port : PortId) (x : XFrame) (s : State) : Res :=
  .next (s.expressIn port.val 3 x fun s fs => s.tunnelIn fs)

/-- TUNNEL_TIMEOUT (R700): the oldest routed line of a session that has waited for 10 s. -/
def execTunnelTimeout (sess : SessId) (s : State) : Res :=
  match (s.con.routed.zipIdx).find? fun r => !r.1.dead && r.1.line.sess == sess && decide (r.1.sentMs + 10000 ≤ s.boot.ms) with
  | none => .next s
  | some (r, j) =>
    let s := { s with con := { s.con with routed := s.con.routed.set j { r with dead := true } } }
    .next (s.reply r.line [] "ERR 0405 TUNNEL TIMEOUT")

/-- TUNNEL_IDLE_TIMEOUT (R668): 60 s without a line. -/
def execTunnelIdleTimeout (sess : SessId) (s : State) : Res :=
  match s.session sess.val with
  | some x =>
    match x.ep with
    | .tunnel _ _ => .next (if x.lastMs + 60000 ≤ s.boot.ms then s.closeSession sess.val else s)
    | _ => .next s
  | none => .next s

end Sys2Proof.Machine
end

