-- ==== Sys2Proof/Machine/Start.lean ====
section
/-! DEFINITION. How a start step begins: its alternative from the journal, its records, the hold, and the end of the start
sequence (R626, R629, R630, R640 to R653, R697, R717, R718, R720, Tables 15-4, 15-5, 16-10). -/

namespace Sys2Proof.Machine

/-! ### Names (Table 16-10, R697) -/

def stepName (n : Nat) : String :=
  List.getD (["", "RAILS", "MARSHAL-SELFTEST", "STARTER-IMAGE", "JOURNAL", "CENSUS", "CONSOLE", "CLOCKS", "DIE-TO-DIE",
    "MESH-EQUALISE", "SCRATCHPAD-BIST", "CORE-BIST", "HBM-TRAINING", "LPDDR-TRAINING", "HALYARD-CHECK", "PCIE-CONFIG",
    "BATON-TRAINING", "PACER-LOCK", "MARSHAL-ARM", "READY"]) n ""

def altName (a : Nat) : String := List.getD ["P", "A", "B"] a "-"

def outcomeName (o : Nat) : String :=
  List.getD ["not-begun", "running", "pass", "degraded", "skipped", "fail", "interrupted", "hold"] o "reserved"

def holdName (state : Nat) : String := List.getD ["", "", "failure", "command", "loop"] state ""

/-- Skippable steps of Table 15-5. -/
def skippable (n : Nat) : Bool := [10, 11, 12, 13, 16].contains n

/-- Steps that do not fail. -/
def neverFails (n : Nat) : Bool := n = 15 || n = 17 || n = 19

/-! ### Alternatives (R641, R642, R644, R653, R720) -/

def entryKind (e : List Byte) : Nat := jNum e 8 1

/-- A settings entry whose clear mask names a step. -/
def clears (n : Nat) (e : List Byte) : Bool :=
  entryKind e == 4 && jNum e 24 4 == crc32 ((e.drop 32).map (·.toNat)) && bitsOf (jNum e 40 4) (n - 1) 1 == 1

/-- A step record's outcome and alternative; 6 where its CRC does not match (R653). -/
def recordIn (n : Nat) (e : List Byte) : Nat × Nat :=
  let a := stepAt n
  if jCrc e (a + 1) (a + 6) = jNum e (a + 7) 1 then (jNum e (a + 1) 1, jNum e (a + 2) 1) else (6, 3)

/-- The alternative of a step after an outcome under an alternative; none where the boot must hold. -/
def nextAlt (n oc alt : Nat) : Option Nat :=
  if oc = 5 || oc = 6 then
    (if alt = 0 then some 1 else if alt = 1 then some 2 else if skippable n then some 0 else none)
  else if (oc = 2 || oc = 3) && (alt = 1 || alt = 2) then some alt
  else some 0

/-- The alternative of a step from the entries of the journal, newest first. An interrupted record was begun under the
alternative that the older entries chose. -/
def altFrom (n : Nat) : List (Nat × Nat × List Byte) → Option Nat
  | [] => some 0
  | (_, _, e) :: es =>
    if clears n e then some 0
    else if entryKind e = 1 && jNum e (stepAt n) 1 = 0 then
      let (oc, alt) := recordIn n e
      nextAlt n oc (if oc = 6 then (altFrom n es).getD 2 else alt)
    else altFrom n es

/-- The alternative of a step in the next boot, or in this one before it has run; S-04 chooses its own (R643). -/
def State.altOf (s : State) (n : Nat) : Option Nat := if n = 4 || neverFails n then some 0 else altFrom n (jSorted s.jEntries)

/-! ### Records -/

/-- Program a step's record at its end (Table 15-8). -/
def State.stepRecord (s : State) (n oc alt units ms detail : Nat) : State :=
  (s.jProgram (stepAt n) [0]).jProgram (stepAt n + 1) (stepBytes oc alt units ms detail)

/-- The `BOOT` line of a step to every open session, whatever its events (R697). -/
def bootLine (n oc alt ms hold : Nat) : String :=
  "BOOT S-" ++ padDec 2 n ++ " " ++ stepName n ++ " " ++ outcomeName oc ++ " alt=" ++ altName alt ++ " t=" ++ toString ms ++
    (if oc = 7 then " kind=" ++ holdName hold else "")

def State.bootSay (s : State) (text : String) : State := s.each (List.range 4) fun s i => s.asyncTo i text

/-- A step ends: its registers, its record, its line from S-07 on. -/
def State.stepEnds (s : State) (n oc alt units ms detail hold : Nat) : State :=
  let s := (((s.put (F.STA_STEP_outcome n) oc).put (F.STA_STEP_alt n) alt).put (F.STA_STEP_units n) (min units 255)).put
    (F.STA_STEP_ms n) (min ms 65535)
  let s := ((s.put F.STA_BOOT_last oc).flag F.STA_EVT_step)
  let s := if oc = 3 || oc = 4 then s.put F.STA_BOOT_degraded 1 else s
  let s := s.stepRecord n oc alt units s.boot.now detail
  if 7 ≤ n then s.bootSay (bootLine n oc alt s.boot.now hold) else s

/-! ### Beginning a step -/

/-- S-19 (R630): ready, with the end record. -/
def State.ready (s : State) : State :=
  let s := { s with boot := { s.boot with step := 19 } }
  let s := (s.put F.STA_BOOT_step 19).put F.STA_BOOT_alt 0
  let s := if s.on F.STA_BOOT_link then s else s.put F.STA_DEGR_no_host 1
  let s := ((s.put F.STA_BOOT_state 1).flag F.STA_EVT_ready).put F.STA_TREADY_ready (min s.boot.now 65535)
  (((s.stepEnds 19 2 0 0 0 255 0).endRecord 1).alertBoot)

/-- What a step does when it begins: the self-test of the Marshal, training, the election. -/
def State.stepBegins (s : State) (n : Nat) : State :=
  if n = 2 then s.put F.MAR_STATUS_state 1
  else if n = 16 then s.each ((List.range 12).filter s.portEnabled) State.trainStart
  else if n = 17 then s.electionBegin
  else s

/-- Begin step `n` (R640 to R642). A step between S-02 and S-05 that has no alternative left is not run: the boot will
hold at S-06; S-01 and S-06 run under B (R646, log entry 51). -/
def State.beginStep (s : State) : Nat → Nat → State
  | 0, _ => s
  | fuel + 1, n =>
    if n = 19 then s.ready
    else
      let none_ := (s.altOf n).isNone
      let alt := (s.altOf n).getD 2
      let s := if none_ then { s with boot := { s.boot with holdKind := 2 } } else s
      let s := { s with boot := { s.boot with step := n, stepMs := s.boot.now } }
      let s := (s.put F.STA_BOOT_step n).put F.STA_BOOT_alt alt
      if none_ && decide (2 ≤ n) && decide (n ≤ 5) then
        State.beginStep ((s.put (F.STA_STEP_outcome n) 7).put F.STA_BOOT_last 7) fuel (n + 1)
      else
        let s := (s.put (F.STA_STEP_outcome n) 1).put (F.STA_STEP_alt n) alt
        let s := if 5 ≤ n then s.jProgram (stepAt n) [0] else s
        s.stepBegins n

def State.nextStep (s : State) : State := s.beginStep 8 (s.boot.step + 1)

/-! ### Hold (R646 to R650, R717, R718) -/

/-- The hold that the end of step `n` enters, as STA_BOOT.state: 2 failure, 3 command, 4 boot loop. -/
def State.holdDue (s : State) (n : Nat) : Option Nat :=
  if n < 6 then none
  else if n = 6 && s.boot.holdKind ≠ 0 then some s.boot.holdKind
  else if n = 6 && [7, 8, 9, 14, 18].any fun k => (s.altOf k).isNone then some 2
  else if s.on F.STA_CTL_hold_req then some 3
  else none

/-- The hold begins: with its end record where it is not releasable (log entry 51). -/
def State.enterHold (s : State) (n state : Nat) : State :=
  let s := { s with boot := { s.boot with holdAt := some n } }
  let s := (s.put F.STA_BOOT_state state).flag F.STA_EVT_hold
  let s := if state = 3 then s.put F.STA_CTL_hold_req 0 else s
  let s := if state = 2 then s.endRecord 3 else if state = 4 then s.endRecord 5 else s
  s.alertBoot

/-- A command hold is requested; nothing while the module holds (R646, R717). -/
def State.holdReq (s : State) : State := if s.boot.holdAt.isSome then s else s.put F.STA_CTL_hold_req 1

/-- `hold release`: continues a command hold or withdraws a request (R649, R718); none where it does neither. -/
def State.holdRelease (s : State) : Option State :=
  if s.boot.holdAt.isSome then
    if s.get F.STA_BOOT_state = 3 then
      let s := (s.put F.STA_BOOT_state 0).put F.STA_CTL_hold_req 0
      some ({ s with boot := { s.boot with holdAt := none } }.nextStep)
    else none
  else if s.on F.STA_CTL_hold_req then some (s.put F.STA_CTL_hold_req 0)
  else none

end Sys2Proof.Machine
end

