-- ==== Sys2Proof/Machine/Bus.lean ====
section
/-! DEFINITION. The register space as a bus sees it: which register an offset names, what a read returns and captures,
what a write does, and the settings record (R12 to R22, R284, R403, R566, R636, R664, R795 to R799). -/

namespace Sys2Proof.Machine

/-! ### Finding a register (R795, R796, R799) -/

/-- The indices of an offset within a register's dimensions. -/
def dimsIdx : List DimSpec → Nat → Option (List Nat)
  | [], rem => if rem = 0 then some [] else none
  | d :: ds, rem =>
    if rem / d.stride < d.count then (dimsIdx ds (rem % d.stride)).map fun l => (d.first + rem / d.stride) :: l else none

/-- The register at an offset, with its indices. -/
def regAt (off : Nat) : Option (RegSpec × List Nat) :=
  if off % 4 ≠ 0 then none
  else regSpecs.findSome? fun r => if r.base ≤ off then (dimsIdx r.dims (off - r.base)).map fun l => (r, l) else none

/-- Base of the active view (R22). -/
def activeBase : Nat := 0x2000000

/-- What an offset names: a register, and whether it is the active copy of one. -/
def regNamed (off : Nat) : Option (RegSpec × List Nat × Bool) :=
  match regAt off with
  | some (r, l) => some (r, l, false)
  | none =>
    if activeBase ≤ off && off < activeBase + 0x280000 then
      match regAt (off - activeBase) with
      | some (r, l) => if r.acc = .ws then some (r, l, true) else none
      | none => none
    else none

/-- Offsets of the STA_, MAR_ and MGT_ blocks. -/
def standby (off : Nat) : Bool := (decide (0x3FE0000 ≤ off) && decide (off < 0x3FE2000)) || (decide (0x3FF0000 ≤ off) && decide (off < 0x3FF1000))

/-- The reset value of a register with its indices. -/
def RegSpec.reset (r : RegSpec) (l : List Nat) : Nat :=
  if r.base = (R.TEAM_H_CD 0 0 0).off then (if l.getD 2 1 = 0 then 0xF else 0) else r.rst

/-! ### Reads -/

/-- CORE_STATE (R284). -/
def State.coreState (s : State) (k : Nat) : Nat :=
  if s.fenced k then 6
  else
    let c := s.core k
    let st := match c.run with
      | .inReset => 0
      | .running => 1
      | .halted => 2
      | .trapped => 3
      | .waiting => 4
      | .done => 5
    st + c.recallFlag.toNat * 8 + min c.prov 15 * 16 + c.anyTag.toNat * 256 + c.replayed.toNat * 512 + c.step % 512 * p2 16

/-- HAL_H_STATUS as it reads: failed while a lost member or a reset rank is held until recall. -/
def State.halStatusReg (s : State) (h : Nat) : Nat :=
  let x := s.halH h
  let st := if s.heatSt h = 7 then 2 else if x.memberLost || x.rankReset then 3 else (heatLive (s.heatSt h)).toNat
  st + min 4 x.ops.length * 4 + s.get (F.HAL_H_STATUS_last h) * 32 + s.halMq h * 512 + s.halC h * 2048

/-- The system Halyard's channel is trained on every port that a running team heat names. -/
def State.sysUp (s : State) : Bool :=
  let hs := (List.range 32).filter fun h => heatLive (s.heatSt h) && s.halTeam h
  !hs.isEmpty && hs.all fun h => (s.kids h ++ (if s.halParent h = 15 then [] else [s.halParent h])).all s.portUp

/-- HEAT_OWN of four blocks. -/
def State.ownReg (s : State) (n : Nat) : Nat :=
  ((List.range 4).map fun i => match s.blockOwner (4 * n + i) with | some h => (h + 128) * p2 (8 * i) | none => 0).sum

/-- HEAT_FENCE of a block. -/
def State.fenceReg (s : State) (n : Nat) : Nat :=
  ((List.range 32).map fun i =>
    (s.fenced (coreAt (n % 8 * 8 + i % 8) (n / 8 * 4 + i / 8))).toNat * p2 i).sum

/-- Word `w` of the log entry at an index. -/
def State.logWord (s : State) (i w : Nat) : Nat :=
  match Tab.find s.mar.log i with
  | some e => e.words.getD w 0
  | none => 0

/-- Word `w` of a journal slot. -/
def State.jWord (s : State) (slot w : Nat) : Nat := jNum (s.jSlot slot) (4 * w) 4

/-- ALERT_N is driven low (R756). -/
def State.alertLow (s : State) : Bool :=
  let a := s.rd R.MGT_ALERT
  a % 8 != 0 || (a / 8) &&& s.get F.MGT_CFG_alert_en != 0

def popCount (v : Nat) : Nat := ((List.range 32).map fun i => bitsOf v i 1).sum

/-- The slot entry that MSH_SLT_SEL selects. -/
def State.slotSel (s : State) (active : Bool) : Nat :=
  let o := s.get F.MSH_SLT_SEL_output
  let key := slotKey (s.get F.MSH_SLT_SEL_router) o (s.get F.MSH_SLT_SEL_slot)
  (Tab.get (slotReset o) (if active then s.mesh.slotA else s.mesh.slotS) key).toNat

/-- The stream map entry that CORE_SMAP_SEL of a core selects. -/
def State.smapSel (s : State) (k : Nat) (active : Bool) : Nat :=
  let key := (k * 2 + s.get (F.CORE_SMAP_SEL_dir k)) * 128 + s.get (F.CORE_SMAP_SEL_slot k)
  (Tab.get 0 (if active then s.mesh.smapA else s.mesh.smapS) key).toNat

/-- The reply map entry that DMA_RMAP_SEL selects. -/
def State.rmapKey (s : State) : Nat :=
  (s.get F.DMA_RMAP_SEL_target * 4 + s.get F.DMA_RMAP_SEL_lane) * 128 + s.get F.DMA_RMAP_SEL_slot
def State.rmapSel (s : State) (active : Bool) : Nat :=
  (Tab.get 0 (if active then s.mesh.rmapA else s.mesh.rmapS) s.rmapKey).toNat

/-- The value of a core's register that is read from its state, if it is one. -/
def State.coreReg (s : State) (base k : Nat) : Option Nat :=
  let c := s.core k
  if base = (R.CORE_CTL 0).off then some 0
  else if base = (R.CORE_STATE 0).off then some (s.coreState k)
  else if base = (R.CORE_PC 0).off then some c.pc.toNat
  else if base = (R.CORE_EXC 0).off then
    some (match c.exc with | some (cause, pc) => cause + 16 + pc.toNat * p2 16 | none => 0)
  else if base = (R.CORE_SMAP_DATA 0).off then some (s.smapSel k (s.on (F.CORE_SMAP_SEL_view k)))
  else if base = (R.CORE_OPS 0).off then
    some (popCount c.busy.toNat + min 63 c.cq.length * 64 + min 8 c.hq.length * 4096 + min 127 c.rq.length * p2 16)
  else if base = (R.CORE_CKPT 0).off then some (match c.ckpt with | some a => a.toNat + p2 31 | none => 0)
  else if base = (R.DMA_C_STATE 0).off then some (s.dmaState k)
  else none

/-- The value of another register that is read from the state, if it is one; `i` its index. -/
def State.liveReg (s : State) (base i : Nat) : Option Nat :=
  if base = R.LAP_NOW_LO.off then some (s.lapN % p2 32)
  else if base = R.LAP_NOW_HI.off then some (s.lapN / p2 32)
  else if base = R.LAP_POS.off then some s.pos.toNat
  else if base = R.HAL_STATUS.off then some (s.rd R.HAL_STATUS / 4 * 4 + s.get F.HAL_STATUS_ready + s.sysUp.toNat * 2)
  else if base = (R.HAL_H_STATUS 0).off then some (s.halStatusReg i)
  else if base = (R.HAL_H_LAT 0).off then
    some (if geomNone (s.geomA i) then 0 else 88 + 48 * s.halC i + min 255 (s.halD i) * p2 16)
  else if base = R.MSH_SLT_DATA.off then some (s.slotSel (s.on F.MSH_SLT_SEL_view))
  else if base = R.MSH_DIST_VAL.off then some s.distReg
  else if base = R.MSH_LATE_VAL.off then some (Tab.get 0 s.mesh.late (s.get F.MSH_LATE_SEL_cons)).toNat
  else if base = R.HEAT_RUN.off then some (((List.range 32).map fun h => (heatLive (s.heatSt h)).toNat * p2 h).sum)
  else if base = R.HEAT_EXIST.off then some (((List.range 32).map fun h => (s.heatExists h).toNat * p2 h).sum)
  else if base = (R.HEAT_OWN 0).off then some (s.ownReg i)
  else if base = (R.HEAT_FENCE 0).off then some (s.fenceReg i)
  else if base = (R.HEAT_H_REL_REL 0).off then some (s.relRel i)
  else if base = (R.HEAT_H_REL_STATUS 0).off then some (s.relStatus i)
  else if base = R.DMA_STATUS.off then
    some ((s.on F.DMA_CFG_patrol_en && decide (12 < s.boot.step)).toNat + (s.servesFar 0).toNat * 2 +
      (s.servesFar 1).toNat * 4 + min 8191 (s.stageCount 0) * 8 + min 8191 (s.stageCount 1) * p2 16)
  else if base = R.DMA_RMAP_DATA.off then some (s.rmapSel (s.on F.DMA_RMAP_SEL_view))
  else if base = R.BTN_STATUS.off then
    some (((List.range 12).map fun p => (s.portUp p).toNat * p2 p).sum + s.get F.BTN_STATUS_topo_set * p2 12)
  else if base = (R.MAR_LOG_W 0).off then some (s.logWord (s.get F.MAR_LOG_SEL_index) i)
  else if base = R.MAR_FW.off then
    some ((if s.on F.STA_SLOT_marshal then s.boot.fwMarshal.2 else s.boot.fwMarshal.1).version % 65536 + s.get F.STA_SLOT_marshal * p2 16)
  else if base = (R.STA_JW 0).off then some (s.jWord (s.get F.STA_JSEL_slot) i)
  else if base = R.STA_BOOT.off then some (if s.boot.main then s.rd R.STA_BOOT else 0x40000)
  else if base = R.MGT_STATE.off then
    some (s.boot.main.toNat + s.boot.s15.toNat * 2 + s.get F.MAR_STATUS_lock * 4 + s.alertLow.toNat * 8 +
      (64 - s.mgt.queue.length) * 16)
  else if base = (R.MGT_LOGW 0).off then some (s.logWord (s.get F.MGT_LSEL_index) i)
  else if base = (R.MGT_JW 0).off then some (s.jWord (s.get F.MGT_JSEL_slot) i)
  else none

/-- The sensor behind a telemetry register (log entry 4): kind 0 die, 1 HBM, 2 input power, 3 VIN, 4 IIN. -/
def State.sensorReg (s : State) (base : Nat) : Option (Nat × State) :=
  if base = R.MAR_TEMP.off then
    let (d, s) := s.sense 0
    let (h, s) := s.sense 1
    some (d % 256 + h % 256 * 256, s)
  else if base = R.MAR_PWR.off then (let (w, s) := s.sense 2; some (w % 65536, s))
  else if base = R.MGT_VIN.off then (let (w, s) := s.sense 3; some (w % 65536, s))
  else if base = R.MGT_IIN.off then (let (w, s) := s.sense 4; some (w % 65536, s))
  else none

/-- A CORE_ register of a fenced core: it reads zero but for the state 6 (Table 6-22). -/
def State.coreHidden (s : State) (r : RegSpec) (i : Nat) : Bool :=
  decide (0x100000 ≤ r.base) && decide (r.base < 0x120000) && s.fenced i

/-- A register's present value. -/
def State.regVal (s : State) (r : RegSpec) (l : List Nat) (active : Bool) : Nat × State :=
  let i := l.headD 0
  let off := r.base + ((l.zip r.dims).map fun x => (x.1 - x.2.first) * x.2.stride).sum
  let stored := (Tab.get (BitVec.ofNat 32 (r.reset l)) (if active then s.act else s.regs) off).toNat
  if s.coreHidden r i then ((if r.base = (R.CORE_STATE 0).off then 6 else 0), s)
  else if active then
    (if r.base = R.MSH_SLT_DATA.off then s.slotSel true
    else if r.base = (R.CORE_SMAP_DATA 0).off then s.smapSel i true
    else if r.base = R.DMA_RMAP_DATA.off then s.rmapSel true
    else stored, s)
  else
    match s.sensorReg r.base with
    | some x => x
    | none => (((s.coreReg r.base i).orElse fun _ => s.liveReg r.base i).getD stored, s)

/-- LO registers: base, and the registers captured with them (R14). -/
def loRegs : List (Nat × List Nat) :=
  [(R.LAP_NOW_LO.off, [4, 8]), (R.LAP_HO_LO.off, [4]), (R.HAL_TAINT_LO.off, [4]), ((R.HEAT_H_START_LO 0).off, [4]),
   ((R.HEAT_H_STOP_LO 0).off, [4]), ((R.HEAT_H_REL_QBASE_LO 0).off, [4]), ((R.HEAT_H_REL_HBASE_LO 0).off, [4]),
   (R.DMA_FW0_BASE_LO.off, [4]), (R.DMA_FW1_BASE_LO.off, [4]), (R.DMA_BAR2_BASE0_LO.off, [4]),
   (R.DMA_BAR2_BASE1_LO.off, [4]), (R.DMA_MERR_LO.off, [4])] ++
  [((R.KV_H_PFT_LO 0).off, [4]), ((R.KV_H_DIG_LO 0).off, [4]), ((R.TEAM_H_DIGEST_LO 0).off, [4]),
   ((R.TEAM_H_REC_LO 0).off, [4]), ((R.MAR_H_WIN_LO 0).off, [4]), ((R.MAR_H_FAIL_LO 0).off, [4]), (R.STA_T0_LO.off, [4])]

/-- The number of an access path (R797). -/
def pathNum : Path → Nat
  | .bar0 pf => pf.val
  | .console => 2
  | .mgt => 3
  | .ctrl k => 4 + k.toNat

def capKey (p : Path) (off : Nat) : Nat := pathNum p * p2 26 + off

/-- Read a register as a path does: a LO register captures, a captured one reads as captured; an offset that names no
register reads all ones. -/
def State.regRead (s : State) (p : Path) (off : Nat) : Nat × State :=
  match regNamed off with
  | none => (0xFFFFFFFF, s)
  | some (r, l, active) =>
    match Tab.find s.caps (capKey p off) with
    | some w => (w.toNat, s)
    | none =>
      let (v, s) := s.regVal r l active
      match loRegs.find? fun x => x.1 == r.base with
      | none => (v, s)
      | some (_, ds) =>
        (v, s.each ds fun s d =>
          match regNamed (off + d) with
          | some (r', l', a') =>
            { s with caps := Tab.put (capKey p (off + d)) (BitVec.ofNat 32 (s.regVal r' l' a').1) s.caps }
          | none => s)

/-! ### Writes (Table 0-3, R15 to R22) -/

/-- The value a register takes: its fields replaced, a field given a reserved encoding kept, reserved bits zero (R15,
R16). -/
def mergeFields (old new : Nat) (fs : List FieldSpec) : Nat :=
  (fs.map fun f =>
    let v := bitsOf new f.lo f.n
    (if f.bad.any fun b => decide (b.1 ≤ v) && decide (v ≤ b.2) then bitsOf old f.lo f.n else v) * p2 f.lo).sum

/-- The fields of a register as a write sees them: MSH_SLT_DATA's depend on the output selected (Table 4-6). -/
def State.fieldsOf (s : State) (r : RegSpec) : List FieldSpec :=
  if r.base = R.MSH_SLT_DATA.off then
    if s.get F.MSH_SLT_SEL_output < 9 then [⟨"entry", 0, 4, [(9, 13)]⟩] else [⟨"entry", 0, 2, []⟩]
  else r.fields

/-- The state a meaning leads to. -/
def Res.state (r : Res) (s : State) : State :=
  match r with
  | .next t => t
  | _ => s

/-- STA_CTL's two bits, the request first. -/
def State.staCtl (s : State) (v : Nat) : State :=
  let s := if bitsOf v 0 1 = 1 then s.holdReq else s
  if bitsOf v 1 1 = 1 then s.holdRelease.getD s else s

/-- The heats a WS register belongs to: HAL_RANKn's are those whose pending geometry holds core n (R84). -/
def State.wsHeats (s : State) (r : RegSpec) (l : List Nat) : List Nat :=
  let i := l.headD 0
  if r.base = R.MSH_SLT_DATA.off then (s.coreOwner (s.get F.MSH_SLT_SEL_router)).toList
  else if r.base = R.DMA_RMAP_DATA.off then (s.coreOwner (targetRouter (s.get F.DMA_RMAP_SEL_target))).toList
  else if r.base = (R.HAL_RANK 0).off then
    (List.range 32).filter fun h => let g := s.rd (R.HEAT_H_GEOM h); !geomNone g && geomHas g (blockOf i)
  else if r.dims.any fun d => decide (2048 ≤ d.count) then (s.coreOwner i).toList
  else [i]

/-- Whether a heat state refuses a WS write (R21). -/
def State.wsBusy (s : State) (r : RegSpec) (l : List Nat) : Bool := (s.wsHeats r l).any fun h => heatBusy (s.heatSt h)

/-- Whether R323 refuses a write: a NUM_ register of a core whose heat is running, recalling or draining. -/
def State.numBusy (s : State) (r : RegSpec) (l : List Nat) : Bool :=
  decide ((R.NUM_CFG 0).off ≤ r.base) && decide (r.base < (R.NUM_CFG 0).off + 64) &&
    (match s.coreOwner (l.headD 0) with | some h => heatLive (s.heatSt h) | none => false)

/-- Set a register that holds what is written to it. -/
def State.regSet (s : State) (r : RegSpec) (l : List Nat) (off v : Nat) : State :=
  let i := l.headD 0
  let old := if r.base = R.MSH_SLT_DATA.off then s.slotSel false
    else if r.base = (R.CORE_SMAP_DATA 0).off then s.smapSel i false
    else if r.base = R.DMA_RMAP_DATA.off then s.rmapSel false
    else (s.regVal r l false).1
  let v := mergeFields old v (s.fieldsOf r)
  let key := slotKey (s.get F.MSH_SLT_SEL_router) (s.get F.MSH_SLT_SEL_output) (s.get F.MSH_SLT_SEL_slot)
  let sm := (i * 2 + s.get (F.CORE_SMAP_SEL_dir i)) * 128 + s.get (F.CORE_SMAP_SEL_slot i)
  if r.base = R.MSH_SLT_DATA.off then
    { s with mesh := { s.mesh with slotS := Tab.put key (BitVec.ofNat 4 v) s.mesh.slotS } }
  else if r.base = (R.CORE_SMAP_DATA 0).off then
    { s with mesh := { s.mesh with smapS := Tab.put sm (BitVec.ofNat 6 v) s.mesh.smapS } }
  else if r.base = R.DMA_RMAP_DATA.off then
    { s with mesh := { s.mesh with rmapS := Tab.put s.rmapKey (BitVec.ofNat 12 v) s.mesh.rmapS } }
  else
    let was := if r.base = (R.HAL_LBUF 0 0).off && (Tab.find s.was off).isNone then Tab.put off (BitVec.ofNat 32 old) s.was else s.was
    { s with regs := Tab.put off (BitVec.ofNat 32 v) s.regs, was := was }

/-- Registers whose write does something of its own: the effect, where the register is one. -/
def State.regDoes (s : State) (p : Path) (r : RegSpec) (l : List Nat) (v : Nat) : Option State :=
  let i := l.headD 0
  let w : Word := BitVec.ofNat 32 v
  if r.base = R.MAR_LOCK.off then some (Res.state (execMarLockWrite p w s) s)
  else if r.base = R.MAR_SVC.off then some (Res.state (execMarSvcWrite p w s) s)
  else if r.base = R.MAR_INJ_CTL.off then some (Res.state (execInjectionArm p w s) s)
  else if (r.base = R.MAR_INJ_SITE.off || r.base = R.MAR_INJ_LAP.off || r.base = R.MAR_INJ_POS.off) && !s.on F.MAR_SVC_on then
    some s
  else if r.base = R.STA_CTL.off then some (s.staCtl v)
  else if r.base = (R.BTN_P_CTL 0).off then some (s.portCtl i v)
  else if r.base = (R.CORE_CTL 0).off then some (if v % 2 = 1 then s.coreCtl i else s)
  else if r.base = (R.HEAT_H_REL_HCONS 0).off then some (Res.state (execHconsWrite p (BitVec.ofNat 5 i) w s) s)
  else if r.base = R.DMA_BAR2_BASE0_LO.off then some (s.putBar2Base 0 false v)
  else if r.base = R.DMA_BAR2_BASE0_HI.off then some (s.putBar2Base 0 true v)
  else if r.base = R.DMA_BAR2_BASE1_LO.off then some (s.putBar2Base 1 false v)
  else if r.base = R.DMA_BAR2_BASE1_HI.off then some (s.putBar2Base 1 true v)
  else if r.base = R.MSH_LATE_VAL.off then some s
  else none

/-- A 32-bit write to a register as a bus makes it (R12 to R22, R219, R323, R587, R798). -/
def State.regWrite (s : State) (p : Path) (off v : Nat) : State :=
  match regNamed off with
  | none => s
  | some (_, _, true) => s
  | some (r, l, false) =>
    if s.numBusy r l && r.acc ≠ .ro then s.refuseWrite false off
    else
      match s.regDoes p r l v with
      | some s => s
      | none =>
        match r.acc with
        | .ro => s
        | .wo1 => s
        | .rw =>
          let s := s.regSet r l off v
          if r.base = (R.NUM_SEED 0).off then s.seedGens (l.headD 0) else s
        | .w1c =>
          let clear := BitVec.ofNat 32 v &&& ~~~ Tab.get 0 s.sets off
          { s with regs := Tab.put off (BitVec.ofNat 32 (s.regVal r l false).1 &&& ~~~ clear) s.regs }
        | .rwl =>
          if s.locked then s.refuseWrite true off
          else if r.base = (R.HEAT_H_GEOM 0).off && decide (2 ≤ s.heatSt (l.headD 0)) then s.refuseWrite false off
          else if r.base = R.LAP_CFG.off then (s.regSet r l off v).refCheck
          else s.regSet r l off v
        | .ws => if s.wsBusy r l then s.refuseWrite false off else s.regSet r l off v

/-- Whether a path reaches an offset: BAR0 from the release of configuration, only the standby blocks under reduced
functions and in the black safe state; the management port's fetch and queue reach the others from S-15, and not in the
black safe state (R566, R634, R636, R749, R751). -/
def State.reaches (s : State) (p : Path) (off : Nat) : Bool :=
  match p with
  | .bar0 _ => s.on F.STA_BOOT_cfg_rel && (standby off || (!s.on F.STA_BOOT_reduced && !s.black))
  | .mgt => standby off || (s.boot.s15 && !s.black)
  | _ => true

/-- The word that an access addresses (R12). -/
def wordOff (off : BitVec 26) : Nat := off.toNat / 4 * 4

/-- The addressed bytes of a word (R13). -/
def narrow (a : AccWidth) (off : BitVec 26) (v : Word) : Word :=
  BitVec.ofNat 32 (bitsOf v.toNat (8 * (off.toNat % 4)) (8 * a.bytes))

/-- REGISTER_WRITE (R13, R20, R21, R798): a write narrower than the word is discarded. -/
def execRegisterWrite (p : Path) (a : AccWidth) (off : BitVec 26) (v : Word) (s : State) : Res :=
  .next (if a = .word && s.reaches p off.toNat then s.regWrite p off.toNat v.toNat else s)

/-- LO_READ_CAPTURE (R13, R14, R797): a read of a register through a path, a LO register's with its capture, whatever its
width; a narrow read returns the addressed bytes; an offset that the path does not reach reads all ones. -/
def execLoReadCapture (p : Path) (a : AccWidth) (off : BitVec 26) (s : State) : Res :=
  if s.reaches p (wordOff off) then
    let (v, s) := s.regRead p (wordOff off)
    .next (s.send (.busData p off.toNat (narrow a off (BitVec.ofNat 32 v))))
  else .next (s.send (.busData p off.toNat (narrow a off 0xFFFFFFFF)))

/-- STA_CTL_HOLD_REQ (R646, R717). -/
def execStaCtlHoldReq (_p : Path) (s : State) : Res := .next s.holdReq

/-- STA_CTL_RELEASE (R649, R718). -/
def execStaCtlRelease (_p : Path) (s : State) : Res := .next (s.holdRelease.getD s)

/-- NUM_SEED_WRITE (R305, R323): a write of NUM_SEED reseeds the generators of the core. -/
def execNumSeedWrite (p : Path) (k : CoreId) (v : Word) (s : State) : Res :=
  .next (s.regWrite p (R.NUM_SEED k.toNat).off v.toNat)

/-! ### The settings record (R664) -/

/-- The valid copy of the greater sequence number. -/
def State.settings (s : State) : Option Settings :=
  let a := s.boot.copy0
  let b := s.boot.copy1
  if a.valid && b.valid then some (if seqNewer b.seq a.seq then b else a)
  else if a.valid then some a
  else if b.valid then some b
  else none

/-- The record in force, an empty one where there is none. -/
def State.record (s : State) : Settings := s.settings.getD { seq := 0, pairs := [], lock := false, valid := false }

/-- Settings entries for changed pairs, 25 in each (Table 17-4). -/
def State.settingsEntries (s : State) (rec_ : Settings) (sess rseq clear : Nat) (ch : List (Nat × Word)) : Nat → State
  | 0 => s
  | n + 1 =>
    let body := leBytes rseq 4 ++ leBytes rec_.pairs.length 2 ++ leBytes rec_.lock.toNat 1 ++ leBytes sess 1 ++
      leBytes clear 4 ++ erased 4 ++ ((ch.take 25).flatMap fun p => leBytes p.1 4 ++ leBytes p.2.toNat 4)
    let s := s.jWrite 4 body
    if (ch.drop 25).isEmpty then s else State.settingsEntries s rec_ sess rseq clear (ch.drop 25) n

/-- Why the flash takes no write: 0502 or 0503 (Table 16-7). -/
def State.flashErr (s : State) : Option String :=
  if s.boot.jReadOnly then some "0502 FLASH WRITE FAILED"
  else if s.boot.jVerify then some "0503 FLASH VERIFY FAILED"
  else none

/-- Store changed pairs, and a lock request, in the other copy of the record, with its journal entries. -/
def State.storeSettings (s : State) (sess : Nat) (ch : List (Nat × Word)) (lock : Option Bool) : State :=
  let old := s.record
  let pairs := ch.foldl (fun ps p => (ps.filter fun q => q.1 != p.1) ++ [p]) old.pairs
  let new : Settings := { seq := (old.seq + 1) % p2 32, pairs := pairs, lock := lock.getD old.lock, valid := true }
  let in0 := s.settings == some s.boot.copy0
  let s := if in0 then { s with boot := { s.boot with copy1 := new } } else { s with boot := { s.boot with copy0 := new } }
  s.settingsEntries new sess new.seq 0 ch 200

end Sys2Proof.Machine
end

