-- ==== Sys2Proof/Machine/Boot.lean ====
section
/-! DEFINITION. Power, the start sequence, the host link's configuration, the Starter's restart (R592 to R594, R624 to R663,
R763 to R774, Tables 15-1 to 15-9). -/

namespace Sys2Proof.Machine

/-! ### Power and the beginning of a boot (R624, R625, R638, R757, R767, R771) -/

/-- Registers that a boot keeps: the MGT_ block, and of the MAR_ and STA_ blocks all but what the start sequence writes
anew; a power cycle also clears MAR_LOCK and MAR_OOS (R574, R585, R717). -/
def keptAtBoot (cycle : Bool) (off : Nat) : Bool :=
  standby off &&
    (if off < 0x3FE1000 then
      let o := off - 0x3FE0000
      !([0x0, 0xC, 0x10, 0x14, 0x18, 0x20].contains o || (decide (0x40 ≤ o) && decide (o < 0x90)) ||
        (decide (0x200 ≤ o) && decide (o < 0x324)))
    else
      !((List.range 32).any fun h =>
        [(R.MAR_H_WIN_LO h).off, (R.MAR_H_WIN_HI h).off, (R.MAR_H_FAIL_LO h).off, (R.MAR_H_FAIL_HI h).off].contains off) &&
      !(cycle && (off == R.MAR_LOCK.off || (List.range 8).any fun n => (R.MAR_OOS n).off == off)))

/-- Rail groups 1 to 5 are removed: every part they supply is reset. The standby side, the journal flash and, unless it is a
power cycle, the lap count (R37) remain. No path has a capture from before (R14). -/
def State.railsOff (s : State) (cycle : Bool) : State :=
  let s := s.mgtDiscard
  let b := s.boot
  let boot := { b with
    step := 0, stepMs := 0, now := 0, holdAt := none, s15 := false, recovery := false, untrained := [], holdKind := 0,
    reducedRel := false, slotEntry := none, fwNotes := [], restarting := false, rails := 0 }
  let mar := { s.mar with
    taints := [], armed := false, stops := [], restore := none, lockUsed := s.mar.lockUsed && !cycle }
  let r := State.reset
  let t := { r with
    pending := s.pending, freeCtr := s.freeCtr, outbox := s.outbox, fuse := s.fuse, boot := boot, mar := mar, mgt := s.mgt
    regs := s.regs.filter fun e => keptAtBoot cycle e.1
    lap := if cycle then 0 else s.lap
    pos := if cycle then 0 else s.pos }
  let t := t.wr R.MAR_STATUS (32 + (if cycle then 0 else s.get F.MAR_STATUS_lock * 8) + s.get F.MAR_STATUS_service * 16 +
    s.get F.MAR_STATUS_safe_stop * 64)
  t.put F.STA_SLOT_recovery 0

/-- A boot begins at t0. -/
def State.newBoot (s : State) : State :=
  let s := s.railsOff false
  let t0 := s.boot.ms
  let s := { s with boot := { s.boot with t0 := t0, perstMs := 0 } }
  let s := (s.wr R.STA_T0_LO (t0 % p2 32)).wr R.STA_T0_HI (t0 / p2 32 % 65536 + s.boot.epoch % 65536 * 65536)
  s.beginStep 8 1

/-- AUX_APPLIED (R625, R757): the standby side starts. -/
def execAuxApplied (s : State) : Res :=
  if s.boot.aux then .next s
  else .next { s with boot := { s.boot with aux := true, ms := 0, sub := 0, epoch := (s.boot.epoch + 1) % 65536 } }

/-- MGT_PORT_ACTIVE (R757). -/
def execMgtPortActive (s : State) : Res := .next { s with mgt := { s.mgt with active := s.boot.aux } }

/-- POWER_UP (R624, R763): the main input has stayed in range; MATE_N is closed and 3.3 V_AUX present. -/
def execPowerUp (s : State) : Res :=
  if !s.boot.aux || s.boot.main then .next s
  else .next { s with boot := { s.boot with main := true, mate := true } }.newBoot

/-- AUX_LOSS (R757, R767, R771): the standby side stops as well. What the flash holds remains. -/
def execAuxLoss (s : State) : Res :=
  let t := s.railsOff true
  let slot := s.rd R.STA_SLOT
  let b := { t.boot with aux := false, main := false, mate := false, ms := 0, sub := 0, perst := t.boot.perst }
  let t := { t with regs := [], caps := [], mar := MarSt.blank, mgt := MgtSt.blank, boot := b }
  .next ((t.wr R.STA_SLOT slot).put F.STA_SLOT_recovery 0)

/-- MAIN_INPUT_POWER_CYCLE (R767). -/
def execMainInputPowerCycle (s : State) : Res :=
  let t := s.railsOff true
  .next { t with boot := { t.boot with main := false } }

/-- MATE_N_OPEN (R763): the input switch opens; the main input falls below 40 V, which the Marshal decides black. -/
def execMateNOpen (s : State) : Res :=
  let s := { s with boot := { s.boot with mate := false } }
  if s.boot.main then execMonitorExcursion .mainInput s else .next s

/-! ### What each step does (Table 15-2) -/

/-- Units of a list, each once and in range. -/
def unitsOf (bad : List (BitVec 11)) (n : Nat) : List Nat := (List.range n).filter fun u => bad.any fun b => b.toNat == u

/-- Cores go out of service at boot (R645). -/
def State.coresOut (s : State) (cores : List Nat) : State :=
  if cores.isEmpty then s
  else (s.each cores fun s k => s.put (F.STA_OOSC_oos (k / 32)) (Nat.lor (s.get (F.STA_OOSC_oos (k / 32))) (p2 (k % 32)))).put
    F.STA_DEGR_cores_oos 1

/-- The units of a step that alternative B takes out of service (Table 15-5). -/
def State.unitsOut (s : State) (n : Nat) (bad : List (BitVec 11)) : State :=
  if n = 7 then
    let rs := unitsOf bad 256
    let s := s.coresOut (rs.flatMap regionCores)
    { s with mesh := { s.mesh with clk := rs.foldl (fun t r => Tab.put r 0 t) s.mesh.clk } }
  else if n = 10 || n = 11 then s.coresOut (unitsOf bad 2048)
  else if n = 12 then
    let st := unitsOf bad 8
    if st.isEmpty then s
    else
      (s.each ((List.range 256).filter fun x => st.contains (sliceStack x).1) fun s x =>
        s.put (F.STA_OOSS_oos (x / 32)) (Nat.lor (s.get (F.STA_OOSS_oos (x / 32))) (p2 (x % 32)))).put F.STA_DEGR_slices_oos 1
  else if n = 13 then
    let rs := unitsOf bad 8
    if rs.isEmpty then s
    else (s.put F.STA_OOSX_ctrl (rs.foldl (fun a r => Nat.lor a (p2 r)) 0)).put F.STA_DEGR_ctrl_oos 1
  else if n = 16 then
    let ps := unitsOf bad 12
    if ps.isEmpty then s
    else
      (s.each ps fun s p => s.setPort p 0).put F.STA_OOSX_ports (ps.foldl (fun a p => Nat.lor a (p2 p)) 0) |>
        fun s => s.put F.STA_DEGR_ports_oos 1
  else s

/-- The slot that passes its check becomes active and its pending mark clears; a pending one is noted for the journal
(R660, Table 17-3). -/
def State.starterSlot (s : State) (alt : Nat) : State :=
  if alt = 2 then { s.put F.STA_SLOT_recovery 1 with boot := { s.boot with recovery := true } }
  else
    let pend := s.get F.STA_SLOT_pending
    let first := if pend = 1 then 1 - s.get F.STA_SLOT_starter else s.get F.STA_SLOT_starter
    let slot := if alt = 0 then first else 1 - first
    let notes := if pend = 1 then [(false, first, if slot = first then 1 else 2)] else []
    let v := (if slot = 0 then s.boot.fwStarter.1 else s.boot.fwStarter.2).version
    let s := { s with boot := { s.boot with fwNotes := s.boot.fwNotes ++ notes } }
    (((s.put F.STA_SLOT_starter slot).put F.STA_SLOT_pending 0).put F.STA_SLOT_version (v % 65536))

def State.marshalSlot (s : State) (alt : Nat) : State :=
  if alt = 2 then s
  else
    let act := s.get F.STA_SLOT_marshal
    let first := if s.boot.marPending then 1 - act else act
    let slot := if alt = 0 then first else 1 - first
    let notes := if s.boot.marPending then [(true, first, if slot = first then 1 else 2)] else []
    { s.put F.STA_SLOT_marshal slot with boot := { s.boot with fwNotes := s.boot.fwNotes ++ notes, marPending := false } }

/-- A firmware entry (Table 17-3). -/
def State.jFirmware (s : State) (marshal : Bool) (slot outcome err sess : Nat) (f : Firmware) : State :=
  s.jWrite 3 (leBytes marshal.toNat 1 ++ leBytes slot 1 ++ leBytes outcome 1 ++ leBytes err 1 ++ leBytes f.version 4 ++
    leBytes f.digest 8 ++ leBytes sess 1)

def State.fwOf (s : State) (marshal : Bool) (slot : Nat) : Firmware :=
  let p := if marshal then s.boot.fwMarshal else s.boot.fwStarter
  if slot = 0 then p.1 else p.2

/-- The ms after t0 at which step `k` of the present boot ended. -/
def State.endMs (s : State) (k : Nat) : Nat := ((List.range k).map fun i => s.get (F.STA_STEP_ms (i + 1))).sum

/-- The records of S-01 to S-03, programmed at S-04 (R652). -/
def State.earlyRecords (s : State) (detail : Nat) : State :=
  s.each [1, 2, 3] fun s k =>
    let oc := s.get (F.STA_STEP_outcome k)
    if 2 ≤ oc && oc ≠ 7 then
      s.stepRecord k oc (s.get (F.STA_STEP_alt k)) (s.get (F.STA_STEP_units k)) (s.endMs k)
        (if oc = 5 then detail else 255)
    else s

/-- Boot loop (R647): the three newest boot entries are interrupted boots of the present epoch, the oldest of them begun
within 60 s. -/
def State.bootLoop (s : State) : Bool :=
  let bs := ((jSorted s.jEntries).filter fun e => entryKind e.2.2 == 1).take 3
  let cut (e : List Byte) : Bool := jNum e 184 1 != 0 || jCrc e 185 190 != jNum e 191 1
  bs.length == 3 && bs.all fun e =>
    cut e.2.2 && jNum e.2.2 22 2 == s.boot.epoch % 65536 && decide (s.boot.t0 ≤ jNum e.2.2 16 6 + 60000)

/-- S-04 (R643, R647, R652, R656): the ring read, or begun anew; the boot-loop check; the boot entry with what came
before. -/
def State.journalStep (s : State) (flash : Nat) : State :=
  let s := { s with boot := { s.boot with jReadOnly := flash == 2, jVerify := flash == 3 } }
  let s := if flash = 1 then { s.put F.STA_DEGR_journal_new 1 with boot := { s.boot with journal := [], jErased := true } } else s
  let s := if s.bootLoop && s.boot.holdKind = 0 then { s with boot := { s.boot with holdKind := 4 } } else s
  let s := (s.jBoot.earlyRecords 255).jProgram (stepAt 4) [0]
  let notes := s.boot.fwNotes
  let s := s.each notes fun s x => s.jFirmware x.1 x.2.1 x.2.2 255 255 (s.fwOf x.1 x.2.1)
  { s with boot := { s.boot with fwNotes := [] } }.jPennants 160

/-- S-05 (R505, R664): the settings record; the lock of an earlier boot does not refuse it (log entry 51). Then each
port that is enabled on an axis of a size above 1 is idle. -/
def State.censusStep (s : State) : State :=
  let s := match s.settings with
    | none => s.put F.STA_DEGR_no_settings 1
    | some r =>
      let s := s.each r.pairs fun (s : State) (p : Nat × Word) =>
        match regNamed p.1 with
        | some (x, l, false) => if x.acc = Access.rwl then s.regSet x l p.1 p.2.toNat else s.regWrite .console p.1 p.2.toNat
        | _ => s
      if r.pairs.any fun p => p.1 == R.BTN_TOPO.off then s.put F.BTN_STATUS_topo_set 1 else s
  s.each (List.range 12) fun s p => s.setPort p (s.portEnabled p).toNat

/-- S-15 (R635, R636): configuration is released, or completed after a release with reduced functions. -/
def State.configRelease (s : State) (full : Bool) : State :=
  let since := s.boot.now - max s.boot.perstMs 100
  let s := if s.on F.STA_BOOT_cfg_rel then s
    else ((s.put F.STA_BOOT_cfg_rel 1).flag F.STA_EVT_cfg).put F.STA_TREADY_cfg (min since 65535)
  if full then
    let s := if s.on F.STA_BOOT_reduced then (s.put F.STA_BOOT_reduced 0).flag F.STA_EVT_full else s
    { s with boot := { s.boot with s15 := true } }
  else { s.put F.STA_BOOT_reduced 1 with boot := { s.boot with reducedRel := true } }

/-- The lines of S-01 to S-06, to each session open at S-06 (R697). -/
def State.bootLines (s : State) (hold : Nat) : State :=
  s.each [1, 2, 3, 4, 5, 6] fun s k =>
    s.bootSay (bootLine k (s.get (F.STA_STEP_outcome k)) (s.get (F.STA_STEP_alt k)) (s.endMs k) hold)

/-- A step's own effect, at its end. -/
def State.stepDoes (s : State) (n alt : Nat) (r : StepResult) : State :=
  let s := if alt = 2 then s.unitsOut n r.bad else s
  match n with
  | 1 => { s with boot := { s.boot with rails := 31 } }
  | 2 => ((s.marshalSlot alt).put F.MAR_STATUS_state 2).put F.MAR_STATUS_fault_n 0 |> fun s => s.put F.STA_BOOT_fault_n 0
  | 3 =>
    let s := s.starterSlot alt
    if alt = 2 then { s with boot := { s.boot with holdKind := 2 } } else s
  | 4 => s.journalStep r.flash.toNat
  | 5 => s.censusStep
  | 6 => (s.openSession .uart false).put F.STA_BOOT_console 1
  | 7 => s.each (List.range 12) fun s p => if s.portSt p = 1 then s.setPort p 2 else s
  | 9 =>
    let (w, s) := s.draw 16
    ((s.put F.MSH_STATUS_eq_done 1).put F.MSH_EQ_STATUS_done 5760).put F.MSH_EQ_WORST_margin (max 4 w.toNat)
  | 14 => (s.put F.HAL_STATUS_ready 1).put F.HAL_STATUS_hub_ok 15
  | 15 => s.configRelease true
  | 17 => s.electionEnd
  | 18 =>
    let s := { s.put F.MAR_STATUS_state 3 with mar := { s.mar with armed := true } }
    if s.record.lock && !s.mar.lockUsed then s.setLock true else s
  | _ => s

/-- S-09 failed: its status, until the power cycle of the next boot. -/
def State.eqFailed (s : State) (n : Nat) : State :=
  (s.put F.MSH_STATUS_eq_fail 1).put F.MSH_EQ_STATUS_failed (max 1 n)

/-- The outcome of a step (Table 15-4). -/
def State.stepOutcome (s : State) (n alt : Nat) (r : StepResult) : Nat :=
  let units := n = 7 || skippable n
  if neverFails n then (if n = 17 && s.lapState = 5 then 3 else 2)
  else if n = 4 then (if r.flash = 1 then 3 else 2)
  else if units && alt = 2 then (if n = 7 && r.fail then 5 else if r.fail || !r.bad.isEmpty then 4 else 2)
  else if r.fail || !r.bad.isEmpty then 5
  else if alt = 2 && (n = 3 || n = 6) then 3
  else 2

/-- A false start (R640): the records, then the next boot. -/
def State.falseStart (s : State) (n detail : Nat) : State :=
  let s := if n < 4 then (s.jBoot).earlyRecords detail else s
  ((s.endRecord 2).jPennants 160).newBoot

/-- The step in progress ends with its result, and the next begins, the boot holds, or it is a false start. -/
def State.bootStep (s : State) (r : StepResult) : State :=
  let n := s.boot.step
  if !s.boot.main || s.black || s.boot.holdAt.isSome || n = 0 || 19 ≤ n then s
  else
    let ms := s.boot.ms + r.dur.toNat
    let s := { s with boot := { s.boot with ms := ms, now := ms - s.boot.t0 }, sets := if r.dur = 0 then s.sets else [] }
    let alt := if n = 4 && r.flash = 1 then 2 else if n = 4 && r.flash = 4 then 1 else s.get (F.STA_STEP_alt n)
    let detail := match r.bad with | b :: _ => min b.toNat 254 | [] => 255
    if n = 1 && alt = 2 && r.bad.contains 1 then
      let s := (s.stepEnds 1 7 2 r.bad.length (s.boot.now - s.boot.stepMs) 1 0).put F.STA_BOOT_state 5
      { s with boot := { s.boot with holdAt := some 1 } }.alertBoot
    else
      let done := if s.stepOutcome n alt r ≠ 5 then s.stepDoes n alt r else if n = 9 then s.eqFailed r.bad.length else s
      let oc := done.stepOutcome n alt r
      let hold := if oc = 5 then none else done.holdDue n
      let s := done.stepEnds n (if hold.isSome then 7 else oc) alt r.bad.length (done.boot.now - done.boot.stepMs) detail
        (hold.getD 0)
      let s := if n = 6 && oc ≠ 5 then
          let early := s.con.early
          let s := { s.bootLines (hold.getD 0) with con := { (s.bootLines (hold.getD 0)).con with early := [] } }
          s.each early fun s b => s.byteIn 0 b
        else s
      if oc = 5 then s.falseStart n detail
      else
        match hold with
        | some st => s.enterHold n st
        | none => s.nextStep

/-- BOOT_STEP (R626, R639 to R650). -/
def execBootStep (r : StepResult) (s : State) : Res := .next (s.bootStep r)

/-- SECTOR_ERASE_DONE (R655). -/
def execSectorEraseDone (s : State) : Res :=
  .next (if s.boot.jErased then s else (s.jErase (s.jNext.1 / 16)).jHead)

/-! ### The host link and configuration (R634 to R637, R668, R774) -/

/-- Rail group 1 is on. -/
def State.group1 (s : State) : Bool := s.boot.rails.getLsbD 0

/-- PERST_N_ASSERTED: the host link and the functions' configuration, with their mailbox sessions, and nothing else. -/
def execPerstNAsserted (s : State) : Res :=
  let s := { s with boot := { s.boot with perst := true } }
  if !s.group1 then .next s
  else
    let s := s.each [0, 1] fun s pf =>
      (s.closeEndpoint (.mailbox (if pf = 0 then 0 else 1))).putMail pf { s.mailbox pf with hctl := 0, mstat := 0 }
    let s := { s.put F.STA_BOOT_link 0 with mem := { s.mem with bar2 := [] } }
    .next (if s.boot.s15 then s else (s.put F.STA_BOOT_cfg_rel 0).put F.STA_BOOT_reduced 0)

/-- PERST_N_DEASSERTED: the deadline of R635 counts from here. -/
def execPerstNDeasserted (s : State) : Res :=
  .next { s with boot := { s.boot with perst := false, perstMs := s.boot.ms - s.boot.t0 } }

/-- HOST_LINK_TRAINED (R634, R772): from S-06, with PERST_N deasserted. -/
def execHostLinkTrained (s : State) : Res :=
  .next (if s.boot.perst || !s.group1 || s.boot.step < 6 then s else s.put F.STA_BOOT_link 1)

/-- CONFIG_REQUEST (R634): retry status until the release. -/
def execConfigRequest (pf : Fin 2) (s : State) : Res :=
  .next (if s.on F.STA_BOOT_link then s.send (.config pf.val (s.on F.STA_BOOT_cfg_rel)) else s)

/-- CONFIG_DEADLINE (R635): nothing once S-15 has been reached, nor where no console is up to release configuration. -/
def execConfigDeadline (s : State) : Res :=
  let s' := { s with boot := { s.boot with now := max s.boot.now (max s.boot.perstMs 100 + 950) } }
  .next (if s.boot.s15 || s.on F.STA_BOOT_cfg_rel || s.boot.perst || !s.on F.STA_BOOT_console then s else s'.configRelease false)

/-! ### Restart of the Starter (R662, R663, R705) -/

/-- The Starter restarts: the announcement to the Marshal; every session closes and every claim is released. -/
def State.starterStop (s : State) : State :=
  let s := s.each [0, 1, 2, 3] State.closeSession
  let con := { s.con with queue := [], claim := none, transfer := none, refused := [], routed := [] }
  let s := { s with con := con, boot := { s.boot with restarting := true } }
  { s.put F.STA_BOOT_state 7 with mar := { s.mar with quietTo := s.boot.ms + 2500 } }

/-- STARTER_RESTART: after a fault of the Starter. During boot the module restarts from S-01, its step interrupted
(Table 15-9); in the black safe state nothing follows. -/
def execStarterRestart (s : State) : Res :=
  if !s.boot.main || s.black || s.boot.step = 0 || s.boot.restarting then .next s
  else if s.boot.step < 19 && s.boot.holdAt.isNone then .next (s.jPennants 160).newBoot
  else .next s.starterStop

/-- STARTER_RESTART_COMPLETE: S-03 has run, with a pending slot that passes, or `failed`, with the previous one; the console
opens, and each mailbox whose hctl.open is 1. -/
def State.starterStart (s : State) (failed : Bool) : State :=
  if !s.boot.restarting then s
  else
    let pend := s.on F.STA_SLOT_pending
    let s := s.starterSlot (if pend && failed then 1 else 0)
    let notes := s.boot.fwNotes
    let s := s.each notes fun s x => s.jFirmware x.1 x.2.1 x.2.2 255 255 (s.fwOf x.1 x.2.1)
    let s := { s with boot := { s.boot with fwNotes := [], restarting := false } }
    let s := s.put F.STA_BOOT_state (match s.boot.holdAt with | some _ => (if s.boot.holdKind = 0 then 3 else s.boot.holdKind) | none => 1)
    let s := (s.flag F.STA_EVT_restart).openSession .uart false
    let text := "EVT starter " ++ s.posText ++ " restarted slot=" ++ (if s.on F.STA_SLOT_starter then "B" else "A")
    let s := s.each [0, 1] fun s pf =>
      if (s.mailbox pf).hctl % 2 = 1 then s.openSession (.mailbox (if pf = 0 then 0 else 1)) true else s
    let s := s.evt 0 text
    s.each [0, 1] fun s pf => s.mailTake pf 16384

/-- STARTER_RESTART_COMPLETE. -/
def execStarterRestartComplete (failed : Bool) (s : State) : Res := .next (s.starterStart failed)

/-! ### Marshal firmware (R594) -/

/-- MARSHAL_UPDATE_ARMED: the Marshal has armed again from its new slot; the update's line is answered. -/
def execMarshalUpdateArmed (s : State) : Res :=
  if s.get F.MAR_STATUS_state ≠ 4 then .next s
  else
    let s := s.marshalSlot 0
    let slot := s.get F.STA_SLOT_marshal
    let f := s.fwOf true slot
    let s := { s with boot := { s.boot with fwNotes := [] } }
    let s := s.jFirmware true slot 1 255 (match s.con.marUpdate with | some l => l.sess.val | none => 255) f
    let s := { s.put F.MAR_STATUS_state 3 with mar := { s.mar with armed := true } }
    match s.con.marUpdate with
    | none => .next s
    | some l =>
      let s := { s with con := { s.con with marUpdate := none } }
      .next (s.okC l [join ["target=marshal", "slot=" ++ (if slot = 0 then "A" else "B"), kvp "version" f.version, "pending=0"]])

end Sys2Proof.Machine
end

