-- ==== Sys2Proof/Machine/Image.lean ====
section
/-! DEFINITION. Itorn images: header, sections, the checks of `image load` and what an accepted image stages (R197, R280 to
R282, R522, R719, Tables 6-18 and 6-19). -/

namespace Sys2Proof.Machine

namespace Img
def num (m : List Byte) (off n : Nat) : Nat := leNat ((m.drop off).take n)
def magic (m : List Byte) : Nat := num m 0 4
def len (m : List Byte) : Nat := num m 8 8
def sections (m : List Byte) : Nat := num m 0x10 4
def table (m : List Byte) : Nat := num m 0x14 4
def keySlot (m : List Byte) : Nat := num m 0x18 1
def id (m : List Byte) : Nat := num m 0x40 8
def key (m : List Byte) : List Byte := (m.drop 0x48).take 97

/-- The header of Table 6-18, in an image of so many bytes. -/
def headerOk (m : List Byte) : Bool :=
  decide (352 ≤ m.length) && magic m == 0x4E525449 && num m 4 2 == 1 && num m 6 2 == 0 && len m == m.length &&
    decide (keySlot m < 4) && num m 0x19 7 == 0 && (key m).head? == some 4 && num m 0xA9 87 == 0

/-- The key and the signature: 0422 for a revoked slot, then 0421 for a key that is not the slot's or a signature that
does not verify (R281; DEDUCED, log entry 5: R281 does not say which of the two answers a key that is not the slot's). -/
def signErr (revoked : List Nat) (m : List Byte) : Option String :=
  if revoked.contains (keySlot m) then some "0422 IMAGE KEY REVOKED"
  else if BitVec.ofNat 384 (Sha.be (sha384 (key m))) ≠ Config.keyDigest (keySlot m) ||
      !ecdsaOk (key m) (m.take (m.length - 96)) (m.drop (m.length - 96)) then some "0421 IMAGE SIGNATURE INVALID"
  else none

/-- A section entry: type, heat, target and body. -/
structure Section where
  type : Nat
  heat : Nat
  target : Nat
  body : List Byte
  deriving DecidableEq, Repr

/-- Entry `i` of the section table, if it meets Table 6-19. -/
def section_ (m : List Byte) (i : Nat) : Option Section :=
  let e := (m.drop (table m + 32 * i)).take 32
  let t := num e 0 2
  let h := num e 2 1
  let target := num e 4 4
  let off := num e 8 8
  let n := num e 0x10 8
  let tgtOk := if t = 4 || t = 6 then target == 0
    else if t = 3 then decide (target % 4096 < 2048) && decide (target / 4096 < 13)
    else decide (target < 2048)
  if decide (1 ≤ t) && decide (t ≤ 7) && decide (h < 32) && num e 3 1 == 0 && tgtOk && num e 0x18 8 == 0 &&
      decide (table m + 32 * sections m ≤ off) && decide (off + n ≤ m.length - 96) then
    some ⟨t, h, target, (m.drop off).take n⟩
  else none

/-- The sections, none where the table or an entry is malformed. -/
def sectionsOf (m : List Byte) : Option (List Section) :=
  if table m < 256 || m.length - 96 < table m + 32 * sections m then none
  else
    let l := (List.range (sections m)).map (section_ m)
    if l.any (·.isNone) then none else some (l.filterMap fun x => x)

def Section.pairs (x : Section) : List (Nat × Nat) := Config.section_ x.type x.body

/-- Core sites to which a section assigns code or a rank (R197). -/
def Section.sites (x : Section) : List Nat :=
  if x.type = 4 then x.pairs.map (·.1) else if x.type = 1 then [x.target] else []

end Img

/-! ### Checks (R281, R522) -/

/-- The collective table of a heat as the image would leave it meets Table 12-3. -/
def State.imageTeamOk (s : State) (h : Nat) (xs : List Img.Section) : Bool :=
  let ps := (xs.filter fun x => x.type == 6 && x.heat == h).flatMap (·.pairs)
  let rd (r : Reg) : Nat := match List.find? (fun p => p.1 == r.off) ps.reverse with
    | some p => p.2 % p2 32
    | none => s.rd r
  ps.isEmpty || (teamTable rd h).ok

def imageHeats (xs : List Img.Section) : List Nat := (List.range 32).filter fun h => xs.any fun x => x.heat == h

/-- The checks of an image, in order. -/
def State.imageCheck (s : State) (m : List Byte) : Except String (List Img.Section) :=
  match (if Img.headerOk m then Img.sectionsOf m else none) with
  | none => .error "0423 IMAGE MALFORMED"
  | some xs =>
    if !(imageHeats xs).all fun h => s.imageTeamOk h xs then .error "0423 IMAGE MALFORMED"
    else
      match Img.signErr s.fuse.revoked m with
      | some e => .error e
      | none =>
        if xs.any fun x => x.sites.any s.fenced then .error "0420 FENCED SITE IN IMAGE"
        else if (imageHeats xs).any fun h => decide (2 ≤ s.heatSt h) then .error "0312 HEAT RUNNING"
        else .ok xs

/-! ### Staging (R282) -/

/-- What a section stages. -/
def State.stageSection (s : State) (x : Img.Section) : State :=
  match x.type with
  | 3 =>
    s.each x.pairs fun s p =>
      { s with mesh := { s.mesh with
        slotS := Tab.put (slotKey (x.target % 4096) (x.target / 4096) (p.1 % 128)) (BitVec.ofNat 4 p.2) s.mesh.slotS } }
  | 4 => s.each x.pairs fun s p => s.wr (R.HAL_RANK (p.1 % 2048)) (p.2 % p2 32)
  | 5 =>
    s.each x.pairs fun s p =>
      { s with mesh := { s.mesh with
        smapS := Tab.put (x.target * 256 + p.1 % 256) (BitVec.ofNat 6 p.2) s.mesh.smapS } }
  | 6 =>
    s.each (x.pairs.filter fun p => wsHeatOff x.heat p.1 || p.1 == (R.HEAT_H_GEOM x.heat).off) fun s p =>
      s.regWrite .console p.1 (p.2 % p2 32)
  | 7 =>
    let k := x.target
    let word (i : Nat) : Nat := match List.find? (fun (p : Nat × Nat) => p.1 == i) x.pairs with
      | some p => p.2
      | none => 0
    let s := (s.put (F.CORE_ENTRY_entry k) (bitsOf (word 0) 2 14)).put (F.CORE_ENTRY_size k) (bitsOf (word 0) 16 15)
    (s.put (F.CORE_QUAR_base k) (bitsOf (word 1) 0 14)).put (F.CORE_QUAR_lines k) (bitsOf (word 1) 16 14)
  | _ => s

/-- Stage an accepted image: its settings now; its code and data wait for the heats' next commits. -/
def State.stageImage (s : State) (m : List Byte) (xs : List Img.Section) : State :=
  let s := s.each xs State.stageSection
  s.each (imageHeats xs) fun s h =>
    let mine := xs.filter fun x => x.heat == h
    let im : HeatImage :=
      { id := BitVec.ofNat 64 (Img.id m), sections := mine.length,
        code := (mine.filter fun x => x.type == 1).map fun x => (x.target, x.body),
        data := (mine.filter fun x => x.type == 2).map fun x => (spBase x.target, x.body), active := false }
    s.modHeat h fun r => { r with image := some im }

/-! ### Commands (R719) -/

/-- A range lies in tier 1 or the reserve. -/
def farRange (a n : Nat) : Bool :=
  decide (a + n ≤ 256 * sliceSize) || (decide (reserveBase ≤ a) && decide (a + n ≤ reserveBase + 8 * reserveSize))

/-- The line of `image show` for a heat's image. -/
def imageLine (h : Nat) (im : HeatImage) : String :=
  join [kvp "heat" h, "image=0x" ++ hexN 16 im.id.toNat, kvp "sections" im.sections, kvp "active" im.active.toNat]

/-- IMAGE_SHOW. -/
def execImageShow (l : Line) (s : State) : Res :=
  .next (s.command l { classC := false, modes := [.ready] } fun _ s =>
    .ok ((List.range 32).filterMap fun h => (s.heat h).image.map (imageLine h)) s)

/-- IMAGE_LOAD (R281, R719): the image is read in open slots; the reply comes with IMAGE_LOAD_COMPLETE. -/
def execImageLoad (l : Line) (s : State) : Res :=
  let keys := [("addr", Form.num 0 (p2 64) 32), ("len", .num 256 (p2 32) 1)]
  .next (s.command l { classC := true, modes := [.ready], keys := keys, req := ["addr", "len"] } fun a s =>
    if !farRange (a.nat "addr") (a.nat "len") then .errAt outOfRange "addr"
    else .wait { s with con := { s.con with imageLoad := some (l, a.nat "addr", a.nat "len") } })

/-- IMAGE_LOAD_COMPLETE (R281, R282, R719). -/
def execImageLoadComplete (s : State) : Res :=
  match s.con.imageLoad with
  | none => .next s
  | some (l, a, n) =>
    let s := { s with con := { s.con with imageLoad := none } }
    let m := s.readMem a n
    match s.imageCheck m with
    | .error e => .next (s.replyC l [] ("ERR " ++ e))
    | .ok xs =>
      .next ((s.stageImage m xs).okC l [join ["image=0x" ++ hexN 16 (Img.id m), "heats=" ++ listText (imageHeats xs),
        kvp "sections" xs.length]])

end Sys2Proof.Machine
end

