-- ==== Sys2Proof/Machine/Starter.lean ====
section
/-! DEFINITION. Console commands of the start sequence, the journal, firmware and the lock: `hold`, `status`, `journal`,
`reboot`, `update`, `marshal lock` (R630, R651 to R654, R661, R717, R718, R720, R722, R726, R732 to R734, Tables 17-3,
17-4). -/

namespace Sys2Proof.Machine

/-! ### hold -/

/-- HOLD (R717). -/
def execHoldCmd (l : Line) (s : State) : Res :=
  let modes := [CMode.boot, .hold, .ready]
  .next (s.command l { classC := true, modes := modes, anyIn := modes } fun _ s => .ok [] s.holdReq)

/-- HOLD_RELEASE (R649, R718). -/
def execHoldRelease (l : Line) (s : State) : Res :=
  .next (s.command l { classC := true, modes := [.boot, .hold, .ready], anyIn := [.boot, .hold] } fun _ s =>
    match s.holdRelease with
    | some s => .ok [] s
    | none => .err "0306 HOLD NOT RELEASABLE")

/-! ### status -/

def bootStateName (n : Nat) : String :=
  List.getD ["booting", "ready", "hold-failure", "hold-command", "hold-loop", "dead", "safe", "restarting"] n "booting"

def lapStateName (n : Nat) : String := List.getD ["search", "electing", "pacer", "follower", "holdover", "freerun"] n "search"

/-- The boot line. -/
def State.statusBoot (s : State) : String :=
  join [kvp "boot" s.boot.bootCount, "step=S-" ++ padDec 2 (s.get F.STA_BOOT_step), "state=" ++ bootStateName (s.get F.STA_BOOT_state),
    "alt=" ++ altName (s.get F.STA_BOOT_alt), kvp "cfg" (s.get F.STA_BOOT_cfg_rel), kvp "reduced" (s.get F.STA_BOOT_reduced),
    kvp "console" (s.get F.STA_BOOT_console), kvp "link" (s.get F.STA_BOOT_link), kvp "degraded" (s.get F.STA_BOOT_degraded)]

/-- Whether a core is out of service, at boot or by the Marshal. -/
def State.coreOut (s : State) (k : Nat) : Bool :=
  !s.fenced k && (bitsOf (s.get (F.STA_OOSC_oos (k / 32))) (k % 32) 1 == 1 || s.isOut (regionOf k))

/-- The grade whose guarantee the fence set meets (Table 0-1). -/
def gradeName (fenced : Nat) : String := if fenced = 0 then "TQ-4A" else if fenced ≤ 64 then "TQ-4B" else "TQ-4C"

def State.statusModule (s : State) : String :=
  let f := ((List.range 2048).filter s.fenced).length
  let out := ((List.range 2048).filter s.coreOut).length
  "module " ++ join ["grade=" ++ gradeName f, kvp "good" (2048 - f), kvp "fenced" f, kvp "oos" out, kvp "addr" s.selfAddr,
    "coord=" ++ commaSep [s.get F.BTN_TOPO_x, s.get F.BTN_TOPO_y, s.get F.BTN_TOPO_z], "lap=" ++ posStr s.lapN s.stride,
    "lapstate=" ++ lapStateName s.lapState]

def State.statusHeat (s : State) (h : Nat) : String :=
  join [kvp "heat" h, "state=" ++ heatStateName (s.heatSt h),
    "image=" ++ (match (s.heat h).image with | some im => "0x" ++ hexN 16 im.id.toNat | none => "-")]

def State.statusMarshal (s : State) : String :=
  "marshal " ++ join ["state=" ++ marStateName (s.get F.MAR_STATUS_state), kvp "lock" (s.get F.MAR_STATUS_lock),
    kvp "yellow" (s.get F.MAR_CNT_YELLOW_count), kvp "red" (s.get F.MAR_CNT_RED_count),
    kvp "black" (s.get F.MAR_CNT_BLACK_count)]

/-- STATUS: from S-19 with the module, heat and Marshal lines. -/
def execStatusCmd (l : Line) (s : State) : Res :=
  .next (s.command l { classC := false, modes := allModes } fun _ s =>
    if s.boot.step < 19 then .ok [s.statusBoot] s
    else .ok ([s.statusBoot, s.statusModule] ++ ((List.range 32).filter s.heatExists).map s.statusHeat ++ [s.statusMarshal]) s)

/-- Cores of a block that are out of service, with the bits of HEAT_FENCE. -/
def State.outReg (s : State) (n : Nat) : Nat :=
  ((List.range 32).map fun i => (s.coreOut (coreAt (n % 8 * 8 + i % 8) (n / 8 * 4 + i / 8))).toNat * p2 i).sum

/-- STATUS_FENCE (R198). -/
def execStatusFence (l : Line) (s : State) : Res :=
  .next (s.command l { classC := false, modes := allModes } fun _ s =>
    let bs := (List.range 64).filter fun b => s.fenceReg b != 0 || s.outReg b != 0
    .ok (bs.map fun b => join [kvp "block" b, "fenced=0x" ++ hexN 8 (s.fenceReg b), "oos=0x" ++ hexN 8 (s.outReg b)]) s)

/-! ### journal -/

/-- A log entry read from its words (Table 13-8); none where they are erased. -/
def logOfWords (w : List Nat) : Option LogEntry :=
  let a := w.getD 0 0
  let p := bitsOf a 12 2
  if a = 0xFFFFFFFF || p = 0 then none
  else some
    { code := bitsOf a 0 12, pen := if p = 1 then .yellow else if p = 2 then .red else .black,
      injected := bitsOf a 14 1 == 1, taint := bitsOf a 15 1 == 1,
      heat := if bitsOf a 21 1 = 1 then some (bitsOf a 16 5) else none,
      site := bitsOf (w.getD 1 0) 0 16, detail := bitsOf (w.getD 1 0) 16 16,
      lap := w.getD 2 0 + bitsOf (w.getD 3 0) 0 16 * p2 32,
      fc := bitsOf (w.getD 3 0) 16 11 * 128 + bitsOf (w.getD 4 0) 0 7, seq := bitsOf (w.getD 4 0) 16 16,
      flap := w.getD 5 0 + bitsOf (w.getD 6 0) 0 16 * p2 32, repeats := w.getD 7 0 }

/-- The log entries of a pennant entry. -/
def pennantsOf (e : List Byte) : List LogEntry :=
  (List.range 7).filterMap fun i => logOfWords ((List.range 8).map fun w => jNum e (32 + 32 * i + 4 * w) 4)

def kindName (k : Nat) : String := List.getD ["", "boot", "pennants", "firmware", "settings"] k (toString k)

/-- The end record of a boot entry: kind, step and time. -/
def endOf (e : List Byte) : Option (Nat × Nat × Nat) :=
  if jNum e 184 1 = 0 && jCrc e 185 190 = jNum e 191 1 then some (jNum e 185 1, jNum e 186 1, jNum e 188 2) else none

def endName (k : Nat) : String :=
  List.getD ["-", "ready", "false-start", "hold-failure", "hold-command", "hold-loop", "black"] k "-"

/-- Steps begun. -/
def begunSteps (e : List Byte) : List Nat := ((List.range 19).map (· + 1)).filter fun n => jNum e (stepAt n) 1 == 0

def stepText (n : Nat) : String := "S-" ++ padDec 2 n

def slotName (n : Nat) : String := if n = 0 then "A" else "B"

/-- The fields of an entry after its kind. -/
def entryFields (e : List Byte) : List String :=
  match entryKind e with
  | 1 =>
    let (k, n, t) := match endOf e with
      | some (k, n, t) => (endName k, n, toString t)
      | none =>
        let n := (begunSteps e).getLast?.getD 0
        ("-", n, if (recordIn n e).1 = 6 then "-" else toString (jNum e (stepAt n + 4) 2))
    [kvp "boot" (jNum e 12 4), kvp "t0" (jNum e 16 6), kvp "epoch" (jNum e 22 2), "end=" ++ k, "step=" ++ stepText n, "t=" ++ t]
  | 2 => [kvp "entries" (pennantsOf e).length]
  | 3 =>
    ["target=" ++ (if jNum e 32 1 = 0 then "starter" else "marshal"), "slot=" ++ slotName (jNum e 33 1), kvp "outcome" (jNum e 34 1),
      kvp "error" (jNum e 35 1), kvp "version" (jNum e 36 4), "digest=0x" ++ hexN 16 (jNum e 40 8), kvp "session" (jNum e 48 1)]
  | 4 => [kvp "rseq" (jNum e 32 4), kvp "pairs" (jNum e 36 2), kvp "lock" (jNum e 38 1), "clear=0x" ++ hexN 8 (jNum e 40 4)]
  | _ => []

def entryLine (slot seq : Nat) (e : List Byte) : String :=
  join ([kvp "slot" slot, kvp "seq" seq, "kind=" ++ kindName (entryKind e)] ++ entryFields e)

/-- A step's line in an entry printed in full. -/
def stepLine (e : List Byte) (n : Nat) : String :=
  let a := stepAt n
  if (recordIn n e).1 = 6 then join [stepText n, "outcome=interrupted"]
  else
    let d := jNum e (a + 6) 1
    join [stepText n, "outcome=" ++ outcomeName (jNum e (a + 1) 1), "alt=" ++ altName (jNum e (a + 2) 1), kvp "units" (jNum e (a + 3) 1),
      kvp "t" (jNum e (a + 4) 2), "detail=" ++ (if d = 255 then "-" else toString d)]

/-- An entry in full. -/
def entryFull (slot seq : Nat) (e : List Byte) : List String :=
  match entryKind e with
  | 1 =>
    let last := match endOf e with
      | some (k, n, t) =>
        [join (["end", "kind=" ++ endName k, "step=" ++ stepText n, kvp "t" t] ++
          (if k = 1 then [kvp "ready_lap" (jNum e 200 6)] else []))]
      | none => ["end kind=-"]
    (begunSteps e).map (stepLine e) ++ last
  | 2 => (pennantsOf e).map pennantText
  | 4 =>
    let n := ((List.range 25).filter fun i => jNum e (48 + 8 * i) 4 != 0xFFFFFFFF)
    entryLine slot seq e :: n.map fun i => join ["offset=0x" ++ hexN 8 (jNum e (48 + 8 * i) 4), "value=0x" ++ hexN 8 (jNum e (52 + 8 * i) 4)]
  | _ => [entryLine slot seq e]

/-- JOURNAL. -/
def execJournalCmd (l : Line) (s : State) : Res :=
  .next (s.command l { classC := false, modes := allModes, keys := [("n", .num 1 256 1)] } fun a s =>
    .ok (((jSorted s.jEntries).take (a.nat "n" 16)).map fun e => entryLine e.1 e.2.1 e.2.2) s)

/-- JOURNAL_SHOW: nothing for a slot without a valid entry. -/
def execJournalShow (l : Line) (s : State) : Res :=
  .next (s.command l { classC := false, modes := allModes, keys := [("slot", .num 0 255 1)], req := ["slot"] } fun a s =>
    let e := s.jSlot (a.nat "slot")
    .ok (if jValid e then entryFull (a.nat "slot") (jNum e 4 4) e else []) s)

/-- JOURNAL_CLEAR (R720). -/
def execJournalClear (l : Line) (s : State) : Res :=
  .next (s.command l { classC := true, modes := [.hold, .ready], keys := [("step", .list 1 19 true)] } fun a s =>
    let steps := (a.list? "step").getD ((List.range 19).map (· + 1))
    match s.flashErr with
    | some e => .err e
    | none =>
      let mask := steps.foldl (fun m n => Nat.lor m (p2 (n - 1))) 0
      .ok [] (s.settingsEntries s.record l.sess.val 0xFFFFFFFF mask [] 1))

/-! ### reboot -/

/-- The line's answer leaves the session at once: what it carries ends with the session. -/
def State.flush (s : State) (i : Nat) : State :=
  match s.session i with
  | some x => if x.out.isEmpty then s else (s.modSession i fun x => { x with out := [] }).send (.bytes x.ep x.out)
  | none => s

/-- REBOOT (R726): a command hold that it ends has its end record written first. -/
def execRebootCmd (l : Line) (s : State) : Res :=
  let c : Cmd := { classC := true, modes := [.hold, .ready, .black], keys := [("force", .num 0 1 1)], anyIn := [.hold, .black] }
  .next (s.command l c fun a s =>
    if s.cmode = .ready && a.nat "force" ≠ 1 && (List.range 32).any fun h => heatBusy (s.heatSt h) then .err "0312 HEAT RUNNING"
    else
      let s := if s.boot.holdAt.isSome && s.get F.STA_BOOT_state = 3 then s.endRecord 4 else s
      .wait (((s.okC l []).flush l.sess.val).jPennants 160).newBoot)

/-! ### update -/

/-- The line of `update show`. -/
def State.updateLine (s : State) : String :=
  let m := s.get F.STA_SLOT_marshal
  let t := match s.con.transfer with
    | some t => (if t.marshal then "marshal:" else "starter:") ++ toString t.bytes.length ++ "/" ++ toString t.len
    | none => "-"
  join ["starter=" ++ slotName (s.get F.STA_SLOT_starter), kvp "version" (s.get F.STA_SLOT_version),
    kvp "pending" (s.get F.STA_SLOT_pending), "marshal=" ++ slotName m, kvp "mversion" (s.fwOf true m).version, "transfer=" ++ t]

/-- UPDATE_SHOW. -/
def execUpdateShow (l : Line) (s : State) : Res :=
  .next (s.command l { classC := false, modes := [.hold, .ready] } fun _ s => .ok [s.updateLine] s)

/-- UPDATE_BEGIN (R732). -/
def execUpdateBegin (l : Line) (s : State) : Res :=
  let keys := [("target", Form.word ["starter", "marshal"]), ("len", .num 256 8388608 1), ("addr", .num 0 (p2 64) 1)]
  .next (s.command l { classC := true, modes := [.hold, .ready], keys := keys, req := ["target", "len"] } fun a s =>
    let mar := a.str "target" == "marshal"
    let n := a.nat "len"
    let put (bs : List Byte) : Ans :=
      .ok [] { s with con := { s.con with transfer := some ⟨l.sess.val, mar, n, bs⟩ } }
    if mar && decide (2097152 < n) then .errAt outOfRange "len"
    else
      match a.nat? "addr" with
      | none => put []
      | some x =>
        if !farRange x n then .errAt outOfRange "addr"
        else if s.boot.holdAt.isSome && decide (s.boot.step < (if x < 256 * sliceSize then 12 else 13)) then
          .err "0501 REGISTER NOT RESPONDING"
        else put (s.readMem x n))

/-- UPDATE_DATA (R732). -/
def execUpdateData (l : Line) (s : State) : Res :=
  let keys := [("off", Form.num 0 (p2 64) 1), ("d", .name)]
  .next (s.command l { classC := true, modes := [.hold, .ready], keys := keys, req := ["off", "d"] } fun a s =>
    let ds := (a.str "d").toList
    match s.con.transfer with
    | none => .errAt outOfRange "off"
    | some t =>
      if t.sess ≠ l.sess.val || a.nat "off" ≠ t.bytes.length then .errAt outOfRange "off"
      else if ds.any fun c => (charHex c).isNone then .errAt badNumber "d"
      else if ds.length % 2 = 1 || 448 < ds.length || t.len < t.bytes.length + ds.length / 2 then .errAt outOfRange "d"
      else
        let bs := (List.range (ds.length / 2)).map fun i =>
          BitVec.ofNat 8 ((digits 16 charHex ((ds.drop (2 * i)).take 2)).getD 0)
        .ok [] { s with con := { s.con with transfer := some { t with bytes := t.bytes ++ bs } } })

/-- Put a firmware image in a slot. -/
def State.putFw (s : State) (marshal : Bool) (slot : Nat) (f : Firmware) : State :=
  let set (p : Firmware × Firmware) : Firmware × Firmware := if slot = 0 then (f, p.2) else (p.1, f)
  if marshal then { s with boot := { s.boot with fwMarshal := set s.boot.fwMarshal } }
  else { s with boot := { s.boot with fwStarter := set s.boot.fwStarter } }

/-- The last two digits of an error code. -/
def errDigits (e : String) : Nat := (decimal ((e.toList.drop 2).take 2)).getD 255

/-- UPDATE_END (R594, R659, R661, R733): the image's version is a free value (log entry 54). -/
def execUpdateEnd (l : Line) (s : State) : Res :=
  .next (s.command l { classC := true, modes := [.hold, .ready] } fun _ s =>
    match s.con.transfer with
    | none => .err (outOfRange ++ " col=1")
    | some t =>
      if t.sess ≠ l.sess.val then .err (outOfRange ++ " col=1")
      else if t.bytes.length < t.len then .err "0423 IMAGE MALFORMED"
      else
        let m := t.bytes
        let act := if t.marshal then s.get F.STA_SLOT_marshal else s.get F.STA_SLOT_starter
        let slot := 1 - act
        let done := { s with con := { s.con with transfer := none } }
        let (v, done) := done.draw 32
        let f : Firmware := { version := v.toNat, digest := leNat ((sha384 m).take 8) }
        let refuse (e : String) : Ans :=
          .wait ((done.jFirmware t.marshal slot 3 (errDigits e) l.sess.val f).replyC l [] ("ERR " ++ e))
        match (if Img.headerOk m then Img.signErr s.fuse.revoked m else some "0423 IMAGE MALFORMED") with
        | some e => refuse e
        | none =>
          if t.marshal && (List.range 32).any fun h => decide (2 ≤ s.heatSt h) then refuse "0312 HEAT RUNNING"
          else if t.marshal && s.locked then refuse "0317 LOCKED"
          else
            match s.flashErr with
            | some e => .err e
            | none =>
              let s := done.putFw t.marshal slot f
              if t.marshal then
                let s := { s.put F.MAR_STATUS_state 4 with mar := { s.mar with armed := false } }
                .wait { s with boot := { s.boot with marPending := true }, con := { s.con with marUpdate := some l } }
              else
                let s := (s.put F.STA_SLOT_pending 1).jFirmware false slot 0 255 l.sess.val f
                .ok [join ["target=starter", "slot=" ++ slotName slot, kvp "version" f.version, "pending=1"]] s)

/-- UPDATE_APPLY (R734). -/
def execUpdateApply (l : Line) (s : State) : Res :=
  .next (s.command l { classC := true, modes := [.hold, .ready] } fun _ s =>
    if s.boot.holdAt.isSome then .err "0305 IN HOLD"
    else if !s.on F.STA_SLOT_pending then .err (outOfRange ++ " col=1")
    else .wait ((s.okC l []).flush l.sess.val).starterStop)

/-! ### marshal lock -/

/-- MARSHAL_LOCK (R585, R722). -/
def execMarshalLock (l : Line) (s : State) : Res :=
  .next (s.command l { classC := true, modes := [.ready], keys := [("persist", .num 0 1 1)] } fun a s =>
    if s.locked || s.mar.lockUsed then .err "0317 LOCKED"
    else
      match (if a.nat "persist" = 1 then s.flashErr else none) with
      | some e => .err e
      | none =>
        let s := if a.nat "persist" = 1 then s.storeSettings l.sess.val [] (some true) else s
        .ok [] ((s.setService false).setLock true))

end Sys2Proof.Machine
end

