-- ==== Sys2Proof/Machine/Verbs.lean ====
section
/-! DEFINITION. The verbs of sessions, the claim, registers, the log and stop, and `help` (R670, R685 to R688, R698, R711,
R713, R727 to R729, Tables 16-8 and 16-11). -/

namespace Sys2Proof.Machine

/-! ### claim (R685 to R688) -/

/-- CLAIM. -/
def execClaimCmd (l : Line) (s : State) : Res :=
  let modes := [CMode.hold, .ready]
  .next (s.command l { classC := true, modes := modes, keys := [("force", .num 0 1 1)], anyIn := modes } fun _ s =>
    match s.con.claim with
    | some j =>
      if j = l.sess.val then .ok [] s else .err ("0302 CLAIMED BY SESSION " ++ toString j)
    | none => .ok [] { s with con := { s.con with claim := some l.sess.val } })

/-- CLAIM_FORCE (R687): from session 0, or in hold from any. -/
def execClaimForce (l : Line) (s : State) : Res :=
  let modes := [CMode.hold, .ready]
  .next (s.command l { classC := true, modes := modes, keys := [("force", .num 0 1 1)], anyIn := modes } fun _ s =>
    let me := l.sess.val
    if me ≠ 0 && s.cmode ≠ .hold then .err "0303 FORCE NOT PERMITTED"
    else
      let t := { s with con := { s.con with claim := some me } }
      match s.con.claim with
      | some j => .ok [] (if j = me then t else t.asyncTo j ("EVT claim " ++ t.posText ++ " lost=1 by=" ++ toString me))
      | none => .ok [] t)

/-- UNCLAIM. -/
def execUnclaim (l : Line) (s : State) : Res :=
  .next (s.command l { classC := true, modes := [.ready], anyIn := [.ready] } fun _ s =>
    if s.con.claim = some l.sess.val then .ok [] { s with con := { s.con with claim := none } }
    else .err "0304 NOT CLAIMED")

/-! ### Session settings (R670, R698) -/

def uartRates : List Nat :=
  [9600, 19200, 38400, 57600, 115200, 230400, 460800, 921600, 1000000, 1500000, 2000000, 3000000]

/-- The keys that apply to a session's transport. -/
def sessionKeys (ep : Endpoint) : List (String × Form) :=
  let events := [("events", Form.num 0 2 1)]
  let line := [("echo", Form.num 0 1 1), ("form", .word ["typed", "generated", "auto"])]
  match ep with
  | .uart => line ++ events ++ [("baud", .num 9600 3000000 1), ("flow", .num 0 1 1)]
  | .usb => line ++ events
  | _ => events

/-- SET_SESSION. -/
def execSetSession (l : Line) (s : State) : Res :=
  let keys := match s.session l.sess.val with | some x => sessionKeys x.ep | none => []
  .next (s.command l { classC := true, modes := [.ready], keys := keys, anyIn := [.ready] } fun a s =>
    match a.nat? "baud" with
    | some b => if uartRates.contains b then set a s else .errAt outOfRange "baud"
    | none => set a s)
where
  set (a : Args) (s : State) : Ans :=
    .ok [] (s.modSession l.sess.val fun x =>
      let form := match a.str? "form" with
        | some "typed" => SForm.typed
        | some "generated" => .generated
        | some "auto" => .auto
        | _ => x.form
      { x with echo := (match a.nat? "echo" with | some v => v == 1 | none => x.echo), form := form, events := a.nat "events" x.events,
               newBaud := (a.nat? "baud").orElse fun _ => x.newBaud, flow := (match a.nat? "flow" with | some v => v == 1 | none => x.flow) })

def formName : SForm → String
  | .typed => "typed"
  | .generated => "generated"
  | .auto => "auto"

/-- The line of `get session` for session `i`. -/
def State.sessionLine (s : State) (i : Nat) (x : Session) : String :=
  let has (k : String) : Bool := (sessionKeys x.ep).any fun p => p.1 == k
  let claim := match s.con.claim with | some j => toString j | none => "-"
  join ([kvp "session" i, "claim=" ++ claim] ++
    (if has "echo" then [kvp "echo" x.echo.toNat, "form=" ++ formName x.form] else []) ++ [kvp "events" x.events] ++
    (if has "baud" then [kvp "baud" x.baud, kvp "flow" x.flow.toNat] else []))

/-- GET_SESSION. -/
def execGetSession (l : Line) (s : State) : Res :=
  .next (s.command l { classC := false, modes := [.hold, .ready] } fun _ s =>
    .ok ((s.session l.sess.val).toList.map (s.sessionLine l.sess.val)) s)

/-! ### Registers by name (R711, R713, R727, R728) -/

/-- What `reg=` names: offset and width in registers, the name as printed, the registers, their indices. -/
structure RegName where
  off : Nat
  pair : Bool
  text : String
  spec : RegSpec
  idx : List Nat
  deriving DecidableEq, Repr

/-- Name of a register as data lines print it. -/
def regText (r : RegSpec) (l : List Nat) (off : Nat) : String :=
  match l with
  | [] => r.name
  | [i] => r.name ++ "." ++ toString i
  | _ => "0x" ++ hexN 8 off

/-- Find a register by its printed name, with at most one index. -/
def regByName (name : String) (idx : Option Nat) : Option (Nat × RegSpec × List Nat) :=
  regSpecs.findSome? fun r =>
    if r.name ≠ name then none
    else
      match r.dims, idx with
      | [], none => some (r.base, r, [])
      | [d], some i => if d.first ≤ i && i < d.first + d.count then some (r.base + (i - d.first) * d.stride, r, [i]) else none
      | _, _ => none

/-- The register that a value of `reg=` names: by name, by a pair's name, or by offset. -/
def regLookup (v : String) : Option RegName :=
  match number v.toList with
  | some off =>
    (if off < 0x4000000 then regAt off else none).map fun (r, l) => ⟨off, false, regText r l off, r, l⟩
  | none =>
    let parts := splitAt '.' (upper v).toList
    let name := String.ofList (parts.headD [])
    let idx : Option (Option Nat) := match parts with
      | [_] => some none
      | [_, i] => (decimal i).map some
      | _ => none
    match idx with
    | none => none
    | some i =>
      match regByName name i with
      | some (off, r, l) => some ⟨off, false, regText r l off, r, l⟩
      | none =>
        match regByName (name ++ "_LO") i with
        | some (off, r, l) =>
          if (regByName (name ++ "_HI") i).isSome then
            some ⟨off, true, name ++ (match i with | some n => "." ++ toString n | none => ""), r, l⟩
          else none
        | none => none

def accessName : Access → String
  | .rw => "RW"
  | .ro => "RO"
  | .w1c => "W1C"
  | .wo1 => "WO1"
  | .rwl => "RWL"
  | .ws => "WS"

/-- Signed fields of the map. -/
def signedField (reg field : String) : Bool :=
  (reg = "LAP_PHASE" && field = "err") || (reg = "HAL_H_CFG" && field = "smxc_k")

def findField (fs : List FieldSpec) (f : String) : Option FieldSpec := fs.find? fun x => lower x.name == lower f

/-- A field's value as printed: decimal, signed where the field is. -/
def fieldText (reg : String) (f : FieldSpec) (v : Nat) : String :=
  let x := bitsOf v f.lo f.n
  if signedField reg f.name && decide (p2 (f.n - 1) ≤ x) then "-" ++ toString (p2 f.n - x) else toString x

/-- Whether a block has been brought up by its boot step (R713; log entry 55). -/
def State.blockUp (s : State) (r : RegSpec) (off : Nat) : Bool :=
  let pre (p : String) : Bool := p.toList.isPrefixOf r.name.toList
  let n := if standby off then 0 else if pre "BTN_" then 5 else if pre "LAP_" then 7 else if pre "DMA_" then 12
    else if pre "HAL_" then 14 else 9
  decide (n < s.boot.step) || (n == s.boot.step && s.boot.holdAt == some n)

/-- Read a named register through the console's path, and its HI register where it is a pair. -/
def State.readNamed (s : State) (n : RegName) (active : Bool) : Nat × State :=
  let off := if active then n.off + activeBase else n.off
  let (lo, s) := s.regRead .console off
  if n.pair then
    let (hi, s) := s.regRead .console (off + 4)
    (lo + hi * p2 32, s)
  else (lo, s)

def valueText (n : RegName) (v : Nat) : String := "0x" ++ hexN (if n.pair then 16 else 8) v

/-- The field that `field=` names, of a pair's HI register with its place in the whole. -/
def State.fieldNamed (s : State) (n : RegName) (f : String) : Option FieldSpec :=
  (findField (s.fieldsOf n.spec) f).orElse fun _ =>
    if n.pair then
      match regAt (n.off + 4) with
      | some (r, _) => (findField r.fields f).map fun x => { x with lo := x.lo + 32 }
      | none => none
    else none

/-- GET_REG (R711, R713). -/
def execGetReg (l : Line) (s : State) : Res :=
  let keys := [("reg", Form.name), ("field", .name), ("view", .word ["staged", "active"])]
  .next (s.command l { classC := false, modes := [.hold, .ready], keys := keys, req := ["reg"] } fun a s =>
    match regLookup (a.str "reg") with
    | none => .errAt outOfRange "reg"
    | some n =>
      let active := a.str "view" == "active"
      let f := (a.str? "field").map (s.fieldNamed n)
      if f = some none then .errAt outOfRange "field"
      else if active && n.spec.acc ≠ .ws then .errAt outOfRange "view"
      else if !s.blockUp n.spec n.off then .err "0501 REGISTER NOT RESPONDING"
      else
        let (v, s) := s.readNamed n active
        let extra := match f with
          | some (some f) => ["field=" ++ lower f.name, "fvalue=" ++ fieldText n.spec.name f v]
          | _ => []
        .ok [join (["reg=" ++ n.text, "access=" ++ accessName n.spec.acc, "value=" ++ valueText n v] ++ extra)] s)

/-- The whole value that a `set` writes: the number given, or the register with one field replaced (R727). -/
def State.setValue (s : State) (n : RegName) (f : Option FieldSpec) (v : Int) : Option Nat :=
  match f with
  | none => if 0 ≤ v && v < p2 32 then some v.toNat else none
  | some f =>
    let sgn := signedField n.spec.name f.name
    let lo : Int := if sgn then -(p2 (f.n - 1) : Nat) else 0
    let hi : Int := if sgn then (p2 (f.n - 1) : Nat) else (p2 f.n : Nat)
    if lo ≤ v && v < hi then
      some (setBits (s.regVal n.spec n.idx false).1 f.lo f.n ((v + (p2 f.n : Nat)).toNat % p2 f.n))
    else none

/-- Why a `set` of a register is refused, in order, past its own value (R727, R728). -/
def State.setErr (s : State) (n : RegName) (v : Nat) (persist : Bool) : Option (String × Option String) :=
  let acc := n.spec.acc
  let bad := (s.fieldsOf n.spec).any fun f => f.bad.any fun b => decide (b.1 ≤ bitsOf v f.lo f.n) && decide (bitsOf v f.lo f.n ≤ b.2)
  let inj := [R.MAR_INJ_CTL.off, R.MAR_INJ_SITE.off, R.MAR_INJ_LAP.off, R.MAR_INJ_POS.off].contains n.spec.base
  let i := n.idx.headD 0
  let geom := n.spec.base = (R.HEAT_H_GEOM 0).off && decide (2 ≤ s.heatSt i)
  let full := (s.record.pairs.filter fun q => q.1 != n.off).length + 1
  if acc = .ro || n.pair || (persist && (acc == .w1c || acc == .wo1 || acc == .ws || decide (4000 < full))) then
    some (outOfRange, some "reg")
  else if bad then some ("0206 RESERVED ENCODING", some "value")
  else if (acc = .wo1 && s.mar.lockUsed) || (acc = .rwl && s.locked) || (persist && s.locked) then some ("0317 LOCKED", none)
  else if (acc = .ws && s.wsBusy n.spec n.idx) || s.numBusy n.spec n.idx || geom then some ("0312 HEAT RUNNING", none)
  else if inj && !s.on F.MAR_SVC_on then some ("0610 SERVICE MODE REQUIRED", none)
  else if !s.blockUp n.spec n.off then some ("0501 REGISTER NOT RESPONDING", none)
  else if persist then s.flashErr.map fun e => (e, none)
  else none

/-- SET_REG (R727, R728). -/
def execSetReg (l : Line) (s : State) : Res :=
  let keys := [("reg", Form.name), ("value", .sgn (-(p2 63 : Nat)) (p2 64 : Nat)), ("field", .name), ("persist", .num 0 1 1)]
  .next (s.command l { classC := true, modes := [.ready], keys := keys, req := ["reg", "value"] } fun a s =>
    match regLookup (a.str "reg") with
    | none => .errAt outOfRange "reg"
    | some n =>
      match (a.str? "field").map (s.fieldNamed n) with
      | some none => .errAt outOfRange "field"
      | f =>
        let persist := a.nat "persist" == 1
        match s.setValue n (f.bind fun x => x) ((a.int? "value").getD 0) with
        | none => .errAt outOfRange "value"
        | some v =>
          match s.setErr n v persist with
          | some (e, some k) => .errAt e k
          | some (e, none) => .err e
          | none =>
            let s := s.regWrite .console n.off v
            let s := if persist then s.storeSettings l.sess.val [(n.off, BitVec.ofNat 32 v)] none else s
            let (w, s) := s.readNamed n false
            .ok [join ["reg=" ++ n.text, "value=" ++ valueText n w]] s)

/-! ### log -/

/-- LOG. -/
def execLogCmd (l : Line) (s : State) : Res :=
  let keys := [("n", Form.num 1 1024 1), ("colour", .word ["yellow", "red", "black"]), ("heat", .num 0 31 1)]
  .next (s.command l { classC := false, modes := [.hold, .ready, .black], keys := keys } fun a s =>
    let keep (e : LogEntry) : Bool :=
      (match a.str? "colour" with | some c => penName e.pen == c | none => true) &&
        (match a.nat? "heat" with | some h => e.heat == some h | none => true)
    .ok (((s.logNewest.filter keep).take (a.nat "n" 16)).map pennantText) s)

/-! ### stop (R693, R729) -/

/-- A stop line executes: `done`, the heats that its recognition halted. -/
def State.stopLine (s : State) (l : Line) (done : Option (List Nat)) : State :=
  let c : Cmd := { classC := true, modes := [.ready], keys := [("heat", .list 0 31 false)], anyIn := [.ready] }
  s.command l c fun a s =>
    match done with
    | some hs => .ok ["stopped=" ++ listText hs] s
    | none =>
      let (hs, s) := s.stopHeats ((a.list? "heat").getD s.stopAll)
      .ok ["stopped=" ++ listText hs] s

/-- STOP (R729): recognised and executed. -/
def execStopCmd (l : Line) (s : State) : Res := .next (s.stopLine l none)

/-! ### help -/

/-- The syntax of each verb's objects. -/
def syntaxLines : List (String × List String) :=
  [("baton", ["baton show [port=<p>]", "baton topo x= y= z= xd= yd= zd=", "baton retrain port=<list>",
      "baton eq port=<list> preset=<n>", "baton set [blat=<fc>] [ue_down=<n>]", "baton enable port=<list> en=<0|1> [auto=<0|1>]"]),
   ("claim", ["claim [force=1]"]), ("unclaim", ["unclaim"]),
   ("get", ["get reg=<name|offset> [field=<name>] [view=staged|active]", "get session"]),
   ("halyard", ["halyard show [heat=<h>]", "halyard counters heat=<h>"]),
   ("heat", ["heat show [id=<h>] [detail=1]", "heat set id=<h> <key>=<value> ...", "heat commit id=<h>",
      "heat start id=<h> at=<lap> [resume=1]", "heat recall id=<h> [at=<lap>]", "heat reset id=<h>"]),
   ("help", ["help [<verb>]"]), ("hold", ["hold", "hold release"]), ("image", ["image show", "image load addr=<address> len=<bytes>"]),
   ("journal", ["journal [n=<n>]", "journal show slot=<s>", "journal clear [step=<list>]"]), ("kv", ["kv show heat=<h>"])] ++
  [("lap", ["lap status", "lap counters", "lap set [role=follower|eligible|forced] [pri=<0-15>] [ref=<0|1>]",
      "lap out [en=<0|1>] [div=<0-12>]", "lap realign", "lap pacer adopt at=<lap> [force=<0|1>]"]),
   ("log", ["log [n=<n>] [colour=<yellow|red|black>] [heat=<h>]"]),
   ("marshal", ["marshal show [heat=<h>]", "marshal lock [persist=1]", "marshal service on=<0|1>", "marshal restore region=<r>",
      "marshal inject kind=<k> site=<s> heat=<h> at=<lap:stride>"]),
   ("mesh", ["mesh show [heat=<h>]", "mesh dist src=<id> kind=<k> dst=<n>",
      "mesh slot router=<id> output=<o> slot=<s> [view=staged|active]", "mesh late cons=<n>"]),
   ("num", ["num show core=<id>", "num cfg core=<list> [passes=] [ftz32=] [sat8=] [iq=]", "num seed core=<list> seed=<n>",
      "num clear core=<list>"])] ++
  [("power", ["power show [regions=1]", "power clock region=<list> mhz=<f>"]), ("reboot", ["reboot [force=1]"]),
   ("set", ["set reg=<name|offset> value=<n> [field=<name>] [persist=1]", "set session <key>=<value>"]),
   ("status", ["status", "status fence"]), ("stop", ["stop [heat=<list>]"]),
   ("team", ["team show heat=<h>", "team set heat=<h> [id=] [en=] [ox= oy= oz= ex= ey= ez=] [rx= ry= rz=]",
      "team tail heat=<h> [last=<n>]"]),
   ("thermal", ["thermal show", "thermal warn t=<80-105>"]),
   ("update", ["update show", "update begin target=<starter|marshal> len=<bytes> [addr=<address>]",
      "update data off=<bytes> d=<hex>", "update end", "update apply"])]

/-- One line of `help`: a verb's objects and classes. -/
def helpLine (v : String × List (String × Bool)) : String :=
  let objs := v.2.map fun o => if o.1 = "" then "-" else o.1
  let r := v.2.any fun o => !o.2
  let c := v.2.any fun o => o.2
  join ["verb=" ++ v.1, "objects=" ++ String.intercalate "," objs,
    "class=" ++ (if r && c then "R,C" else if c then "C" else "R")]

/-- HELP: its one word, where it has one, is a verb. -/
def execHelpCmd (l : Line) (s : State) : Res :=
  let c : Cmd := { classC := false, modes := [.hold, .ready] }
  match l.args with
  | [w] =>
    let l' := if w.key = "" then { l with args := [] } else l
    .next (s.command l' c fun _ s =>
      match List.find? (fun x => x.1 == lower w.val) syntaxLines with
      | some (_, ls) => .ok ls s
      | none => .err ("0104 UNKNOWN OBJECT col=" ++ toString w.col))
  | _ => .next (s.command l c fun _ s => .ok (verbTable.map helpLine) s)

end Sys2Proof.Machine
end

