-- ==== Sys2Proof/Machine/Power.lean ====
section
/-! DEFINITION. Region clocks, the throttle and the commands of `power` and `thermal` (R143, R725, R782, R787 to R791). -/

namespace Sys2Proof.Machine

/-- The regions, from region 0, whose clock the throttle holds below the clock set for them (R790). -/
def State.throttled (s : State) : Bool := (List.range 256).any fun n => decide (s.regionDue n < s.regionTarget n)

/-- The least clock of a region in MHz: the floors of the heats that own it and start, run, recall or drain (R725). -/
def State.regionFloor (s : State) (n : Nat) : Nat :=
  ((List.range 32).map fun h =>
    if heatBusy (s.heatSt h) && geomHas (s.geomA h) (blockOf (portRouter n)) then 10 * s.getA (F.MSH_H_CFG_floor h) else 0).foldl max 0

/-- VDD_Qq in tenths of a millivolt, from the fastest clock of its quarter in MHz: 0.70 V at 1,000 MHz or less, plus
22.5 mV for each 100 MHz above it (R782). -/
def vddOf (mhz : Nat) : Nat := 7000 + 225 * ((mhz - 1000) / 100)

/-- The voltage of a quarter, given its regions. -/
def State.vdd (s : State) (quarter : List Nat) : Nat := vddOf ((quarter.map s.regionClk).foldl max 0)

/-- Whether the Starter sets clocks at present: S-07 is past, and it does not restart (R628, R791). -/
def State.clocksSet (s : State) : Bool := decide (7 < s.boot.step) && !s.boot.restarting

/-- The throttle lowers every region by 100 MHz, not below its floor nor 800 MHz (R788). -/
def State.throttleStep (s : State) : State :=
  let low (n : Nat) : Nat := max (s.regionDue n - 100) (max 800 (s.regionFloor n))
  let cap := (List.range 256).foldl (fun t n => if low n < s.regionDue n then Tab.put n (low n) t else t) s.pwr.cap
  { s with pwr := { s.pwr with cap := cap, due := true, stepLap := some s.lapN } }

/-- THROTTLE_STEP (R787, R788, R791): a trigger holds at a lap boundary; at least 4 laps after the last step, the clocks of
stride 16 fall. -/
def execThrottleStep (s : State) : Res :=
  let soon := match s.pwr.stepLap with | some l => decide (s.lapN < l + 4) | none => false
  .next (if s.pos ≠ 0 || soon || !s.clocksSet then s else s.throttleStep)

/-- The throttle raises every lowered region by 100 MHz, up to the clock set for it (R789). -/
def State.throttleRaise (s : State) : State :=
  let cap := s.pwr.cap.filterMap fun e => if e.2 + 100 < s.regionTarget e.1 then some (e.1, e.2 + 100) else none
  { s with pwr := { s.pwr with cap := cap, due := true, raiseLap := some s.lapN } }

/-- THROTTLE_RAISE (R789, R791): the conditions have held for 64 laps; 64 laps after the last step and the last raise, the
clocks of stride 16 rise. -/
def execThrottleRaise (s : State) : Res :=
  let soon (l : Option Nat) : Bool := match l with | some l => decide (s.lapN < l + 64) | none => false
  .next (if s.pos ≠ 0 || soon s.pwr.stepLap || soon s.pwr.raiseLap || !s.throttled || !s.clocksSet then s else s.throttleRaise)

/-- POWER_CLOCK (R143, R725, R790): every region named, or none; a region of a lower throttled clock keeps that clock. -/
def execPowerClock (l : Line) (s : State) : Res :=
  let keys := [("region", Form.list 0 255 true), ("mhz", .num 800 1800 10)]
  .next (s.command l { classC := true, modes := [.ready], keys := keys, req := ["region", "mhz"] } fun a s =>
    let f := a.nat "mhz"
    let rs := a.list "region"
    if rs.any fun n => decide (f < s.regionFloor n) then .err "0341 BELOW SCHEDULE FLOOR"
    else .ok [] (s.each rs fun s n =>
      let s := { s with pwr := { s.pwr with target := Tab.put n f s.pwr.target } }
      if s.regionClk n = 0 then s else s.askClk n (s.regionDue n)))

/-- The lines of `power show`: what the sensors read, and a region's clock. -/
def State.powerLine (s : State) (v i w k : Nat) : String :=
  join [kvp "vin" v, kvp "iin" i, kvp "pin" w, kvp "peak" k, kvp "throttle" s.throttled.toNat]

def State.regionLine (s : State) (n : Nat) : String :=
  join [kvp "region" n, kvp "mhz" (s.regionClk n), kvp "oos" (s.isOut n || s.regionClk n == 0).toNat]

/-- POWER_SHOW (R790). -/
def execPowerShow (l : Line) (s : State) : Res :=
  .next (s.command l { classC := false, modes := [.ready], keys := [("regions", .num 0 1 1)] } fun a s =>
    let (v, s) := s.sense 3
    let (i, s) := s.sense 4
    let (w, s) := s.sense 2
    let (k, s) := s.sense 5
    .ok (s.powerLine v i w k :: (if a.nat "regions" = 1 then (List.range 256).map s.regionLine else [])) s)

/-- The line of `thermal show`. -/
def State.thermalLine (s : State) (d h : Nat) : String :=
  join [kvp "die" d, kvp "hbm" h, kvp "warn" (s.get F.MAR_CFG_t_warn), kvp "crit" 110, kvp "hbm_crit" 105,
    kvp "throttle" s.throttled.toNat]

/-- THERMAL_SHOW (R790). -/
def execThermalShow (l : Line) (s : State) : Res :=
  .next (s.command l { classC := false, modes := [.ready] } fun _ s =>
    let (d, s) := s.sense 0
    let (h, s) := s.sense 1
    .ok [s.thermalLine d h] s)

/-- THERMAL_WARN: MAR_CFG.t_warn, a locked register under the lock. -/
def execThermalWarn (l : Line) (s : State) : Res :=
  .next (s.command l { classC := true, modes := [.ready], keys := [("t", .num 80 105 1)], req := ["t"] } fun a s =>
    if s.locked then .err "0317 LOCKED" else .ok [] (s.put F.MAR_CFG_t_warn (a.nat "t")))

end Sys2Proof.Machine
end

