-- ==== Sys2Proof/Machine/Shows.lean ====
section
/-! DEFINITION. The console commands that print the state of the laps, the Baton, the Halyard, the KV cache, the mesh, the
numeric units and teams, and those that set their registers (R712, R721, R724, R730, R731). -/

namespace Sys2Proof.Machine

/-- A number of sixteenths with only the decimals it needs. -/
def sixteenthsShort (v : Nat) : String :=
  let f := ((padDec 4 (v % 16 * 625)).toList.reverse.dropWhile (· == '0')).reverse
  toString (v / 16) ++ (if f.isEmpty then "" else "." ++ String.ofList f)

/-- A class C command on the module's own state, in state R. -/
def cmdC (keys : List (String × Form)) (req : List String) : Cmd :=
  { classC := true, modes := [.ready], keys := keys, req := req }

def cmdR (keys : List (String × Form)) (req : List String) : Cmd :=
  { classC := false, modes := [.ready], keys := keys, req := req }

/-- Set a field where its key is given. -/
def State.putArg (s : State) (a : Args) (k : String) (f : Fld) (g : Nat → Nat := id) : State :=
  match a.nat? k with
  | some v => s.put f (g v)
  | none => s

/-! ### lap (R61, R69, R70, R721, Table 2-4) -/

/-- The line of `lap status`: fields of a handover that is not announced are `-` (log entry 57). -/
def State.lapStatusLine (s : State) : String :=
  let e := s.get F.LAP_PHASE_err
  let err : Int := if e < 32768 then e else (e : Int) - 65536
  let par := s.get F.LAP_STATUS_parent
  let ho := s.on F.LAP_HO_HI_valid
  join ["state=" ++ lapStateName s.lapState, "lap=" ++ posStr s.lapN s.stride, kvp "pacer" (s.get F.LAP_PACER_addr),
    kvp "pri" (s.get F.LAP_PACER_pri), kvp "ref" (s.get F.LAP_PACER_ref), "parent=" ++ (if par = 15 then "-" else toString par),
    kvp "hops" (s.get F.LAP_STATUS_hops), "phase=" ++ sixteenths err, kvp "holdover" (s.get F.LAP_STATUS_holdover),
    "ho=" ++ (if ho then toString (s.get48 F.LAP_HO_LO_lap_lo F.LAP_HO_HI_lap_hi) else "-"),
    "ho_addr=" ++ (if ho then toString (s.get F.LAP_HO_HI_addr) else "-")]

/-- LAP_STATUS. -/
def execLapStatus (l : Line) (s : State) : Res := .next (s.command l (cmdR [] []) fun _ s => .ok [s.lapStatusLine] s)

/-- The line of `lap counters`. -/
def State.lapCountersLine (s : State) : String :=
  join [kvp "rx" (s.get F.LAP_CNT_RX_count), kvp "bad" (s.get F.LAP_CNT_BAD_count), kvp "lost" (s.get F.LAP_CNT_LOST_count),
    kvp "false" (s.get F.LAP_CNT_FALSE_count), kvp "conflict" (s.get F.LAP_CNT_CONFLICT_count),
    "peak=" ++ sixteenths (s.get F.LAP_PHASE_PEAK_peak : Nat)]

/-- LAP_COUNTERS. -/
def execLapCounters (l : Line) (s : State) : Res := .next (s.command l (cmdR [] []) fun _ s => .ok [s.lapCountersLine] s)

def roleNum (w : String) : Nat := if w = "follower" then 0 else if w = "eligible" then 1 else 2

/-- LAP_SET: LAP_CFG, a locked register under the lock. -/
def execLapSet (l : Line) (s : State) : Res :=
  let keys := [("role", Form.word ["follower", "eligible", "forced"]), ("pri", .num 0 15 1), ("ref", .num 0 1 1)]
  .next (s.command l (cmdC keys []) fun a s =>
    if s.locked then .err "0317 LOCKED"
    else
      let s := match a.str? "role" with
        | some w => s.put F.LAP_CFG_role (roleNum w)
        | none => s
      .ok [] ((s.putArg a "pri" F.LAP_CFG_pri).putArg a "ref" F.LAP_CFG_ref_en).refCheck)

/-- LAP_OUT: LAP_CTL. -/
def execLapOut (l : Line) (s : State) : Res :=
  .next (s.command l (cmdC [("en", .num 0 1 1), ("div", .num 0 12 1)] []) fun a s =>
    .ok [] ((s.putArg a "en" F.LAP_CTL_out_en).putArg a "div" F.LAP_CTL_out_div))

/-- The text of an error that carries its ERR. -/
def bareErr (e : String) : String := String.ofList (e.toList.drop 4)

/-- LAP_REALIGN. -/
def execLapRealign (l : Line) (s : State) : Res :=
  .next (s.command l (cmdC [] []) fun _ s =>
    match s.realign with
    | .ok t => .ok [] t
    | .error e => .err (bareErr e))

/-- LAP_PACER_ADOPT: the errors of Table 2-4 in its order, the claim last; without force the answer waits for the
announcement. -/
def execLapPacerAdopt (l : Line) (s : State) : Res :=
  let c : Cmd := { cmdC [("at", .lap), ("force", .num 0 1 1)] ["at"] with anyIn := [.ready] }
  .next (s.command l c fun a s =>
    let force := a.nat "force" == 1
    match s.adopt l (a.nat "at") force with
    | .error e => .err (bareErr e)
    | .ok t =>
      match s.claimErr l.sess.val with
      | some e => .err (bareErr e)
      | none => if force then .ok [] t else .wait t)

/-! ### baton (R505, R712) -/

def portStateName (n : Nat) : String :=
  List.getD ["disabled", "idle", "quiet", "training", "peernr", "up", "miswired", "down"] n "disabled"

/-- The direction a port leads in (R506). -/
def portDir (p : Nat) : String := (if p % 4 < 2 then "+" else "-") ++ List.getD ["X", "Y", "Z"] (p / 4) "X"

/-- The line of `baton show` for one port; a delay that is not formed is `-`. -/
def State.batonLine (s : State) (p : Nat) : String :=
  join [kvp "port" p, "state=" ++ portStateName (s.portSt p), "dir=" ++ portDir p,
    "peer=" ++ (if s.on (F.BTN_P_PEER_valid p) then toString (s.get (F.BTN_P_PEER_addr p)) ++ ":" ++ toString (s.get (F.BTN_P_PEER_port p)) else "-"),
    "delay=" ++ (if s.on (F.LAP_DELAY_valid p) then sixteenthsShort (s.get (F.LAP_DELAY_delay p)) else "-"),
    kvp "blat" (s.get F.BTN_CFG_blat), kvp "long" (s.get (F.BTN_P_STATUS_long p)), kvp "ce" (s.get (F.BTN_P_CNT_CE_count p)),
    kvp "ue" (s.get (F.BTN_P_CNT_UE_count p)), kvp "retry" (s.get (F.BTN_P_CNT_RETRY_count p)), kvp "dup" (s.get (F.BTN_P_CNT_DUP_count p)),
    kvp "nest" (s.get (F.BTN_P_CNT_NEST_count p)), kvp "late" (s.get (F.BTN_P_CNT_LATE_count p)), kvp "lock" (s.get (F.BTN_P_CNT_LOCK_count p))]

/-- BATON_SHOW. -/
def execBatonShow (l : Line) (s : State) : Res :=
  .next (s.command l (cmdR [("port", .num 0 11 1)] []) fun a s =>
    .ok ((match a.nat? "port" with | some p => [p] | none => List.range 12).map s.batonLine) s)

/-- The value of BTN_TOPO for coordinates and sizes. -/
def topoValue (x y z xd yd zd : Nat) : Nat :=
  [(F.BTN_TOPO_x, x), (F.BTN_TOPO_y, y), (F.BTN_TOPO_z, z), (F.BTN_TOPO_xd_m1, xd - 1), (F.BTN_TOPO_yd_m1, yd - 1),
    (F.BTN_TOPO_zd_m1, zd - 1)].foldl (fun w e => setBits w e.1.lo e.1.n e.2) 0

/-- BATON_TOPO (R505): stores BTN_TOPO in the settings record, for the next boot. -/
def execBatonTopo (l : Line) (s : State) : Res :=
  let dim (n : Nat) : Form := .num 1 n 1
  let keys := [("x", Form.num 0 15 1), ("y", .num 0 7 1), ("z", .num 0 7 1), ("xd", dim 16), ("yd", dim 8), ("zd", dim 8)]
  .next (s.command l (cmdC keys ["x", "y", "z", "xd", "yd", "zd"]) fun a s =>
    match ["x", "y", "z"].find? fun k => decide (a.nat (k ++ "d") ≤ a.nat k) with
    | some k => .errAt outOfRange k
    | none =>
      if s.locked then .err "0317 LOCKED"
      else
        match s.flashErr with
        | some e => .err e
        | none =>
          let v := topoValue (a.nat "x") (a.nat "y") (a.nat "z") (a.nat "xd") (a.nat "yd") (a.nat "zd")
          .ok [] (s.storeSettings l.sess.val [(R.BTN_TOPO.off, BitVec.ofNat 32 v)] none))

/-- BATON_RETRAIN. -/
def execBatonRetrain (l : Line) (s : State) : Res :=
  .next (s.command l (cmdC [("port", .list 0 11 true)] ["port"]) fun a s =>
    .ok [] (s.each (a.list "port") fun s p => s.portCtl p (s.get (F.BTN_P_CTL_en p) + 2 + s.get (F.BTN_P_CTL_auto p) * 4)))

/-- BATON_EQ: BTN_P_EQ, a locked register under the lock. -/
def execBatonEq (l : Line) (s : State) : Res :=
  .next (s.command l (cmdC [("port", .list 0 11 true), ("preset", .num 0 11 1)] ["port", "preset"]) fun a s =>
    if s.locked then .err "0317 LOCKED"
    else .ok [] (s.each (a.list "port") fun s p => s.put (F.BTN_P_EQ_preset p) (a.nat "preset")))

/-- BATON_SET (R712). -/
def execBatonSet (l : Line) (s : State) : Res :=
  .next (s.command l (cmdC [("blat", .num 256 1792 1), ("ue_down", .num 0 255 1)] []) fun a s =>
    if s.locked then .err "0317 LOCKED"
    else if (List.range 32).any fun h => heatBusy (s.heatSt h) && s.getA (F.TEAM_H_CFG_en h) == 1 then .err "0312 HEAT RUNNING"
    else .ok [] ((s.putArg a "blat" F.BTN_CFG_blat).putArg a "ue_down" F.BTN_CFG_ue_down))

/-- BATON_ENABLE. -/
def execBatonEnable (l : Line) (s : State) : Res :=
  .next (s.command l (cmdC [("port", .list 0 11 true), ("en", .num 0 1 1), ("auto", .num 0 1 1)] ["port", "en"]) fun a s =>
    .ok [] (s.each (a.list "port") fun s p => s.portCtl p (a.nat "en" + a.nat "auto" (s.get (F.BTN_P_CTL_auto p)) * 4)))

/-! ### halyard (Table 3-12) -/

/-- The line of `halyard show` for one heat. -/
def State.halLine (s : State) (h : Nat) : String :=
  let st := s.halStatusReg h
  let k := s.getA (F.HAL_H_CFG_smxc_k h)
  let par := s.halParent h
  join [kvp "heat" h, "state=" ++ List.getD ["stopped", "running", "flushing", "failed"] (bitsOf st 0 2) "stopped",
    kvp "ranks" (s.halN h), "masthead=Q" ++ toString (s.halMq h), kvp "c" (s.halC h), kvp "lat" (88 + 48 * s.halC h),
    kvp "prov" (s.getA (F.HAL_H_CFG_prov_en h)), "k=" ++ toString (smxcK k), kvp "team" (s.getA (F.HAL_H_CFG_team h)),
    kvp "base" (s.halBase h), "parent=" ++ (if par = 15 then "top" else toString par), kvp "depth" (s.getA (F.HAL_H_TREE_depth h)),
    kvp "d" (s.halD h), kvp "inflight" (bitsOf st 2 3)]

/-- HALYARD_SHOW. -/
def execHalyardShow (l : Line) (s : State) : Res :=
  .next (s.command l (cmdR [("heat", .num 0 31 1)] []) fun a s =>
    match a.nat? "heat" with
    | some h => if s.heatExists h then .ok [s.halLine h] s else .err "0336 HEAT NOT COMMITTED"
    | none => .ok (((List.range 32).filter s.heatExists).map s.halLine) s)

/-- The lines of `halyard counters`: a heat's, and the Halyard's. -/
def State.halCountLines (s : State) (h : Nat) : List String :=
  let t := if s.on F.HAL_TAINT_HI_valid then toString (s.get48 F.HAL_TAINT_LO_lap_lo F.HAL_TAINT_HI_lap_hi) else "-"
  [join [kvp "hoist" (s.get (F.HAL_H_CNT_HOIST_count h)), kvp "fail" (s.get (F.HAL_H_CNT_FAIL_count h)),
    kvp "prov" (s.get (F.HAL_H_CNT_PROV_count h)), kvp "nomatch" (s.get (F.HAL_H_CNT_NOMATCH_count h))],
   join [kvp "checked" (s.get F.HAL_CNT_CHECKED_count), kvp "mismatch" (s.get F.HAL_CNT_MISMATCH_count),
    kvp "timeout" (s.get F.HAL_CNT_TIMEOUT_count), kvp "taint" (s.get F.HAL_CNT_TAINT_count), "taintlap=" ++ t]]

/-- HALYARD_COUNTERS. -/
def execHalyardCounters (l : Line) (s : State) : Res :=
  .next (s.command l (cmdR [("heat", .num 0 31 1)] ["heat"]) fun a s =>
    let h := a.nat "heat"
    if s.heatExists h then .ok (s.halCountLines h) s else .err "0336 HEAT NOT COMMITTED")

/-! ### kv -/

/-- The lines of `kv show`. -/
def State.kvLines (s : State) (h : Nat) : List String :=
  let c := s.kvCfg h
  [join [kvp "heat" h, kvp "d" c.d, "fmt=" ++ (if c.e = 4 then "F32" else "F16"), kvp "groups" c.g, kvp "layers" c.l,
    kvp "keepers" (s.getA (F.KV_H_CFG_keep_m1 h) + 1), kvp "far" (s.getA (F.KV_H_CFG_far_en h)), kvp "pages" (s.kvPages h),
    kvp "ready" (s.get (F.KV_H_STATUS_ready h)), kvp "layout_bad" (s.get (F.KV_H_STATUS_layout_bad h))],
   join [kvp "free1" (s.get (F.KV_H_FREE1_free h)), kvp "free2" (s.get (F.KV_H_FREE2_free h)),
    kvp "free3" (s.get (F.KV_H_FREE3_free h)), kvp "spilling" (s.get (F.KV_H_STATUS_spilling h)),
    kvp "full" (s.get (F.KV_H_STATUS_full h))],
   join [kvp "attend" (s.get (F.KV_H_CNT_ATTEND_count h)), kvp "spill" (s.get (F.KV_H_CNT_SPILL_count h)),
    kvp "replay" (s.get (F.KV_H_CNT_REPLAY_count h)), kvp "stall" (s.get (F.KV_H_CNT_STALL_count h)),
    kvp "abandon" (s.get (F.KV_H_CNT_ABANDON_count h)), kvp "empty" (s.get (F.KV_H_CNT_EMPTY_count h))]]

/-- KV_SHOW. -/
def execKvShow (l : Line) (s : State) : Res :=
  .next (s.command l (cmdR [("heat", .num 0 31 1)] ["heat"]) fun a s =>
    let h := a.nat "heat"
    if s.heatExists h then .ok (s.kvLines h) s else .err "0336 HEAT NOT COMMITTED")

/-! ### mesh (R154, R167, R172, R185) -/

/-- The module's line of `mesh show`, and a heat's. -/
def State.meshLine (s : State) : String :=
  join [kvp "eq" (s.get F.MSH_EQ_STATUS_done), "worst=" ++ sixteenthsShort (s.get F.MSH_EQ_WORST_margin),
    kvp "void" (s.get F.MSH_CNT_VOID_count), kvp "orphan" (s.get F.MSH_CNT_ORPHAN_count), kvp "corr" (s.get F.MSH_CNT_CORR_count),
    kvp "wacc_ovf" (s.get F.MSH_CNT_WACC_OVF_count), kvp "wacc_nan" (s.get F.MSH_CNT_WACC_NAN_count),
    kvp "stop" (s.get F.MSH_CNT_STOP_count), kvp "ctrl_peak" (s.get F.MSH_CTRL_PEAK_peak)]

def State.meshHeatLine (s : State) (h : Nat) : String :=
  join [kvp "heat" h, kvp "floor" (10 * s.getA (F.MSH_H_CFG_floor h)), kvp "uniform" (s.getA (F.MSH_H_CFG_uniform h)),
    kvp "void" (s.get (F.MSH_H_VOID_count h)), kvp "min_open" (s.get (F.MSH_H_OPEN_min_open h)),
    kvp "max_gap" (s.get (F.MSH_H_OPEN_max_gap h))]

/-- MESH_SHOW. -/
def execMeshShow (l : Line) (s : State) : Res :=
  .next (s.command l (cmdR [("heat", .num 0 31 1)] []) fun a s =>
    .ok [match a.nat? "heat" with | some h => s.meshHeatLine h | none => s.meshLine] s)

def distKinds : List String := ["core", "slice", "baton", "host", "reserve", "starter"]

/-- The line of `mesh dist` for a value of MSH_DIST_VAL. -/
def distLine (v : Nat) : String :=
  join [kvp "lat" (bitsOf v 0 10), kvp "hops" (bitsOf v 10 7), kvp "reg" (bitsOf v 17 5), kvp "d2d" (bitsOf v 22 2)]

/-- MESH_DIST (R172). -/
def execMeshDist (l : Line) (s : State) : Res :=
  .next (s.command l (cmdR [("src", .num 0 2047 1), ("kind", .word distKinds), ("dst", .num 0 2047 1)] ["src", "kind", "dst"]) fun a s =>
    match distSite (distKinds.findIdx (· == a.str "kind")) (a.nat "dst") with
    | none => .errAt outOfRange "dst"
    | some b => .ok [distLine (distVal (a.nat "src") b)] s)

def outNames : List String := ["n", "e", "s", "w", "core", "a0", "a1", "a2", "a3", "rn", "re", "rs", "rw"]

/-- The meaning of a slot entry (Table 4-6). -/
def slotMeaning (o e : Nat) : String :=
  if o < 9 then
    (if e = 14 then "open" else if e = 15 then "closed" else
      List.getD ["N", "E", "S", "W", "core", "A0", "A1", "A2", "A3"] e "reserved")
  else List.getD ["closed", "core", "through", "through-copy"] (e % 4) "closed"

/-- MESH_SLOT (R154). -/
def execMeshSlot (l : Line) (s : State) : Res :=
  let keys := [("router", Form.num 0 2047 1), ("output", .word outNames), ("slot", .num 0 127 1), ("view", .word ["staged", "active"])]
  .next (s.command l (cmdR keys ["router", "output", "slot"]) fun a s =>
    let r := a.nat "router"
    let o := outNames.findIdx (· == a.str "output")
    if !((meshOuts r ++ relayOuts r).contains o) then .errAt outOfRange "output"
    else
      let t := if a.str "view" = "staged" then s.mesh.slotS else s.mesh.slotA
      let e := (Tab.get (slotReset o) t (slotKey r o (a.nat "slot"))).toNat
      .ok [join [kvp "entry" e, "meaning=" ++ slotMeaning o e]] s)

/-- MESH_LATE (R167). -/
def execMeshLate (l : Line) (s : State) : Res :=
  .next (s.command l (cmdR [("cons", .num 0 278 1)] ["cons"]) fun a s =>
    .ok [kvp "count" (Tab.get 0 s.mesh.late (a.nat "cons")).toNat] s)

/-! ### num (R305, R323, R724) -/

/-- The line of `num show`. -/
def State.numLine (s : State) (k : Nat) : String :=
  join [kvp "core" k, kvp "passes" (s.get (F.NUM_CFG_passes k)), kvp "ftz32" (s.get (F.NUM_CFG_ftz32 k)),
      kvp "sat8" (s.get (F.NUM_CFG_sat8 k)), kvp "iq" (s.get (F.NUM_CFG_iq k)), "flags=0x" ++ hexN 3 (s.rd (R.NUM_FLAGS k)),
      "seed=0x" ++ hexN 8 (s.rd (R.NUM_SEED k)), kvp "sat" (s.get (F.NUM_CNT_SAT_count k)), kvp "flush" (s.get (F.NUM_CNT_FLUSH_count k)),
      kvp "nan" (s.get (F.NUM_CNT_NAN_count k)), kvp "retry" (s.get (F.NUM_CNT_RETRY_count k)),
      "pflags=0x" ++ hexN 3 (s.rd (R.NUM_PFLAGS k)), kvp "psat" (s.get (F.NUM_PCNT_SAT_count k)),
      kvp "pflush" (s.get (F.NUM_PCNT_FLUSH_count k)), kvp "pnan" (s.get (F.NUM_PCNT_NAN_count k)),
      kvp "pretry" (s.get (F.NUM_PCNT_RETRY_count k))]

/-- NUM_SHOW. -/
def execNumShow (l : Line) (s : State) : Res :=
  .next (s.command l (cmdR [("core", .num 0 2047 1)] ["core"]) fun a s => .ok [s.numLine (a.nat "core")] s)

/-- The cores of a `num` command's list: with `all`, fenced cores are passed over (R724). -/
def State.numCores (s : State) (l : Line) (a : Args) : List Nat :=
  if l.args.any fun x => lower x.key == "core" && lower x.val == "all" then (a.list "core").filter fun k => !s.fenced k else a.list "core"

/-- A `num` command on every core of its list, or on none (R724). -/
def State.numCmd (s : State) (l : Line) (a : Args) (f : State → Nat → State) : Ans :=
  let ks := s.numCores l a
  if ks.any s.fenced then .errAt outOfRange "core"
  else if ks.any fun k => (match s.coreOwner k with | some h => heatLive (s.heatSt h) | none => false) then .err "0312 HEAT RUNNING"
  else .ok [] (s.each ks f)

/-- NUM_CFG. -/
def execNumCfg (l : Line) (s : State) : Res :=
  let keys := [("core", Form.list 0 2047 true), ("passes", .num 1 3 1), ("ftz32", .num 0 1 1), ("sat8", .num 0 1 1), ("iq", .num 0 31 1)]
  .next (s.command l (cmdC keys ["core"]) fun a s =>
    s.numCmd l a fun s k =>
      (((s.putArg a "passes" (F.NUM_CFG_passes k)).putArg a "ftz32" (F.NUM_CFG_ftz32 k)).putArg a "sat8" (F.NUM_CFG_sat8 k)).putArg a
        "iq" (F.NUM_CFG_iq k))

/-- NUM_SEED. -/
def execNumSeed (l : Line) (s : State) : Res :=
  .next (s.command l (cmdC [("core", .list 0 2047 true), ("seed", .num 0 (p2 32 - 1) 1)] ["core", "seed"]) fun a s =>
    s.numCmd l a fun s k => (s.wr (R.NUM_SEED k) (a.nat "seed")).seedGens k)

/-- NUM_CLEAR. -/
def execNumClear (l : Line) (s : State) : Res :=
  .next (s.command l (cmdC [("core", .list 0 2047 true)] ["core"]) fun a s =>
    s.numCmd l a fun s k =>
      ((((s.wr (R.NUM_CNT_SAT k) 0).wr (R.NUM_CNT_FLUSH k) 0).wr (R.NUM_CNT_NAN k) 0).wr (R.NUM_CNT_RETRY k) 0).wr (R.NUM_FLAGS k)
        (s.rd (R.NUM_FLAGS k) / 512 * 512))

/-! ### team (R549, R730, R731) -/

def teamCheckName (n : Nat) : String := List.getD ["none", "passed", "mismatch", "invalid"] n "none"

/-- The line of `team show`: the active configuration. -/
def State.teamLine (s : State) (h : Nat) : String :=
  let b (f : Nat → Fld) : Nat := s.getA (f h)
  join [kvp "heat" h, kvp "team" (b F.TEAM_H_CFG_id), kvp "en" (b F.TEAM_H_CFG_en),
    "block=" ++ commaSep [b F.TEAM_H_BLOCK_ox, b F.TEAM_H_BLOCK_oy, b F.TEAM_H_BLOCK_oz, b F.TEAM_H_BLOCK_ex_m1 + 1,
      b F.TEAM_H_BLOCK_ey_m1 + 1, b F.TEAM_H_BLOCK_ez_m1 + 1],
    "root=" ++ commaSep [b F.TEAM_H_ROOT_rx, b F.TEAM_H_ROOT_ry, b F.TEAM_H_ROOT_rz], kvp "member" (s.get (F.TEAM_H_MEMBER_m h)),
    kvp "members" (s.get (F.TEAM_H_MEMBER_count_m1 h) + 1), kvp "depth" (s.get (F.TEAM_H_MEMBER_depth h)),
    "check=" ++ teamCheckName (s.get (F.TEAM_H_STATUS_check h)), "digest=0x" ++ hexN 16 (s.teamDigest h),
    kvp "ncoll" (s.get (F.TEAM_H_STATUS_ncoll h))]

/-- TEAM_SHOW. -/
def execTeamShow (l : Line) (s : State) : Res :=
  .next (s.command l (cmdR [("heat", .num 0 31 1)] ["heat"]) fun a s =>
    let h := a.nat "heat"
    if s.heatExists h then .ok [s.teamLine h] s else .err "0336 HEAT NOT COMMITTED")

/-- What `team set` leaves staged: an argument, or the staged field plus `d` where it is not given. -/
def State.teamArg (s : State) (a : Args) (k : String) (f : Fld) (d : Nat) : Nat := (a.nat? k).getD (s.get f + d)

/-- The first key of `team set` that does not fit: an offset or extent outside BTN_TOPO, a root outside the extent. -/
def State.teamMisfit (s : State) (a : Args) (h : Nat) : Option String :=
  let axis (x : String) (o e r size : Fld) : Option String :=
    let ov := s.teamArg a ("o" ++ x) o 0
    let ev := s.teamArg a ("e" ++ x) e 1
    let rv := s.teamArg a ("r" ++ x) r 0
    let n := s.get size + 1
    if n ≤ ov then some ("o" ++ x) else if n < ev then some ("e" ++ x) else if ev ≤ rv then some ("r" ++ x) else none
  ((axis "x" (F.TEAM_H_BLOCK_ox h) (F.TEAM_H_BLOCK_ex_m1 h) (F.TEAM_H_ROOT_rx h) F.BTN_TOPO_xd_m1).orElse fun _ =>
    axis "y" (F.TEAM_H_BLOCK_oy h) (F.TEAM_H_BLOCK_ey_m1 h) (F.TEAM_H_ROOT_ry h) F.BTN_TOPO_yd_m1).orElse fun _ =>
      axis "z" (F.TEAM_H_BLOCK_oz h) (F.TEAM_H_BLOCK_ez_m1 h) (F.TEAM_H_ROOT_rz h) F.BTN_TOPO_zd_m1

/-- TEAM_SET (R730): every field named, or none. -/
def execTeamSet (l : Line) (s : State) : Res :=
  let n (hi : Nat) : Form := .num 0 hi 1
  let keys := [("heat", n 31), ("id", n 63), ("en", n 1), ("ox", n 15), ("oy", n 7), ("oz", n 7), ("ex", .num 1 16 1),
    ("ey", .num 1 8 1), ("ez", .num 1 8 1), ("rx", n 15), ("ry", n 7), ("rz", n 7)]
  .next (s.command l (cmdC keys ["heat"]) fun a s =>
    let h := a.nat "heat"
    let st := s.heatSt h
    match s.teamMisfit a h with
    | some k => .errAt outOfRange k
    | none =>
      if st = 6 then .err "0335 HEAT HALTED"
      else if heatBusy st then .err "0312 HEAT RUNNING"
      else
        let sub (v : Nat) : Nat := v - 1
        let s := (s.putArg a "id" (F.TEAM_H_CFG_id h)).putArg a "en" (F.TEAM_H_CFG_en h)
        let s := ((s.putArg a "ox" (F.TEAM_H_BLOCK_ox h)).putArg a "oy" (F.TEAM_H_BLOCK_oy h)).putArg a "oz" (F.TEAM_H_BLOCK_oz h)
        let s := ((s.putArg a "ex" (F.TEAM_H_BLOCK_ex_m1 h) sub).putArg a "ey" (F.TEAM_H_BLOCK_ey_m1 h) sub).putArg a "ez"
          (F.TEAM_H_BLOCK_ez_m1 h) sub
        .ok [] (((s.putArg a "rx" (F.TEAM_H_ROOT_rx h)).putArg a "ry" (F.TEAM_H_ROOT_ry h)).putArg a "rz" (F.TEAM_H_ROOT_rz h)))

/-- The words of Table 3-4, and late. -/
def runStatusName (n : Nat) : String :=
  List.getD ["ok", "provisional", "rank-reset", "member-lost", "pacer-lost", "mismatch", "checked-fault", "leaf-timeout",
    "descriptor-error", "late"] n (toString n)

def collKindName (n : Nat) : String := List.getD ["SHIFT", "PERMUTE", "RING", "EXCHANGE"] n (toString n)

/-- The line of one record (Table 12-9, R731); the kind is that of the collective's active descriptor. -/
def State.tailLine (s : State) (h : Nat) (rec_ : List Byte) : String :=
  let w (i : Nat) : Nat := leNat ((rec_.drop (4 * i)).take 4)
  let coll := bitsOf (w 0) 16 6
  let kind := bitsOf (s.rdA (R.TEAM_H_CD h coll 0)) 0 4
  let valid := bitsOf (w 3) 31 1 == 1
  join ([kvp "seq" (bitsOf (w 0) 0 16), kvp "coll" coll, "kind=" ++ collKindName kind,
    "at=" ++ posStr (bitsOf (w 1) 0 16 * p2 32 + w 2) (bitsOf (w 1) 16 11), "status=" ++ runStatusName (bitsOf (w 0) 22 4),
    "tail=" ++ (if valid then toString (bitsOf (w 3) 21 10) else "none")] ++
    (if valid then [kvp "rank" (bitsOf (w 3) 0 21), kvp "phase" (w 4)] else []) ++ [kvp "late" (w 5)] ++
    (if kind = 3 then [kvp "drops" (w 6)] else []))

/-- The lines of the last records of the record area, newest last (R731). -/
def State.tailLines (s : State) (h last : Nat) : List String :=
  let base := s.getA (F.TEAM_H_REC_LO_rec h) * 32 + s.getA (F.TEAM_H_REC_HI_rec h) * p2 32
  let sl := s.heatSlices h
  let head := s.uGet sl base 32
  let n := min last (min 255 (leNat (head.take 4)))
  let next := leNat ((head.drop 12).take 4) % 255
  (List.range n).map fun i => s.tailLine h (s.uGet sl (base + 32 + 32 * ((next + 255 - n + i) % 255)) 32)

/-- TEAM_TAIL. -/
def execTeamTail (l : Line) (s : State) : Res :=
  .next (s.command l (cmdR [("heat", .num 0 31 1), ("last", .num 1 255 1)] ["heat"]) fun a s =>
    let h := a.nat "heat"
    if !s.heatExists h then .err "0336 HEAT NOT COMMITTED"
    else if s.getA (F.TEAM_H_CFG_en h) ≠ 1 then .errAt outOfRange "heat"
    else .ok (s.tailLines h (a.nat "last" 1)) s)

end Sys2Proof.Machine
end

