-- ==== Sys2Proof/Machine/Execute.lean ====
section
/-! DEFINITION. A queued console line begins: ordering, the checks of Table 16-6, and the command it names (R684, R690 to
R692, R700, R707, Table 17-1). -/

namespace Sys2Proof.Machine

/-- The states of Table 17-1 that admit a verb with some object of its own. -/
def verbModes (v : String) : List CMode :=
  if ["status", "journal"].contains v then allModes
  else if v = "hold" then [.boot, .hold, .ready]
  else if ["log", "marshal", "reboot"].contains v then [.hold, .ready, .black]
  else if ["claim", "get", "help", "update"].contains v then [.hold, .ready]
  else [.ready]

/-- The row of the table that each verb and object names, by its meaning. -/
def lineTable : List (String × String × (Line → State → Res)) :=
  [("baton", "show", execBatonShow), ("baton", "topo", execBatonTopo), ("baton", "retrain", execBatonRetrain),
   ("baton", "eq", execBatonEq), ("baton", "set", execBatonSet), ("baton", "enable", execBatonEnable),
   ("claim", "", execClaimCmd), ("unclaim", "", execUnclaim), ("get", "reg", execGetReg),
   ("get", "session", execGetSession), ("halyard", "show", execHalyardShow), ("halyard", "counters", execHalyardCounters),
   ("heat", "show", execHeatShow), ("heat", "set", execHeatSet), ("heat", "reset", execHeatReset),
   ("heat", "commit", execHeatCommit), ("heat", "recall", execHeatRecall), ("heat", "start", execHeatStart),
   ("help", "", execHelpCmd), ("hold", "", execHoldCmd), ("hold", "release", execHoldRelease),
   ("image", "show", execImageShow), ("image", "load", execImageLoad), ("journal", "", execJournalCmd),
   ("journal", "show", execJournalShow), ("journal", "clear", execJournalClear), ("kv", "show", execKvShow)] ++
  [("lap", "status", execLapStatus), ("lap", "counters", execLapCounters), ("lap", "set", execLapSet),
   ("lap", "out", execLapOut), ("lap", "realign", execLapRealign), ("lap", "pacer adopt", execLapPacerAdopt),
   ("log", "", execLogCmd), ("marshal", "show", execMarshalShow), ("marshal", "lock", execMarshalLock),
   ("marshal", "service", execMarshalService), ("marshal", "inject", execMarshalInject),
   ("marshal", "restore", execMarshalRestore), ("mesh", "show", execMeshShow), ("mesh", "dist", execMeshDist),
   ("mesh", "slot", execMeshSlot), ("mesh", "late", execMeshLate), ("num", "show", execNumShow),
   ("num", "cfg", execNumCfg), ("num", "seed", execNumSeed), ("num", "clear", execNumClear)] ++
  [("power", "show", execPowerShow), ("power", "clock", execPowerClock), ("reboot", "", execRebootCmd),
   ("set", "reg", execSetReg), ("set", "session", execSetSession), ("status", "", execStatusCmd),
   ("status", "fence", execStatusFence), ("stop", "", execStopCmd), ("team", "show", execTeamShow),
   ("team", "tail", execTeamTail), ("team", "set", execTeamSet), ("thermal", "show", execThermalShow),
   ("thermal", "warn", execThermalWarn), ("update", "show", execUpdateShow), ("update", "begin", execUpdateBegin),
   ("update", "data", execUpdateData), ("update", "end", execUpdateEnd), ("update", "apply", execUpdateApply)]

/-- A `claim` line whose force is 1. -/
def forced (l : Line) : Bool :=
  l.args.any fun a => lower a.key == "force" && number a.val.toList == some 1

/-- The command that a verb and object name runs on the line. -/
def runVerb (q : QLine) (v o : String) (l : Line) (s : State) : Res :=
  if v = "stop" then .next (s.stopLine l q.stopped)
  else if v = "claim" && forced l then execClaimForce l s
  else
    match List.find? (fun x => x.1 == v && x.2.1 == o) lineTable with
    | some (_, _, f) => f l s
    | none => .next s

/-- The line of a queue entry, with the arguments of its tokens. -/
def lineOf (sess : SessId) (p : Parsed) (ts : List Tok) : Line :=
  { sess := sess, gen := p.gen, args := ts.map argOf, endCol := endColOf p.toks,
    route := match p.route with
      | .ok (some a) => some (a, p.forward)
      | _ => none }

/-- The error of step 2 of Table 16-6 for a line whose verb is not admitted with any object; an unknown verb is not
admitted in boot, in hold or under a black pennant. -/
def State.verbErr (s : State) (toks : List Tok) : Option String :=
  if s.cmode = .ready then none
  else
    match toks with
    | [] => some s.notAdmitted
    | t :: _ =>
      match resolveVerb false t.text with
      | .ok v => if (verbModes v).contains s.cmode then none else some s.notAdmitted
      | .error _ => some s.notAdmitted

/-- The error of step 1 of Table 16-6. -/
def Parsed.stepOne (p : Parsed) (self : Nat) : Option String :=
  p.err.orElse fun _ =>
    match p.route with
    | .ok (some a) => if a.toNat ≠ self && decide (480 < p.forward.length) then some "ERR 0114 TUNNEL LINE TOO LONG" else none
    | _ => none

/-- A line that has left the queue is checked and runs, or is answered with its first error. -/
def State.runLine (s : State) (q : QLine) (sess : SessId) (x : Session) : Res :=
  let p := parseLine x.mailbox q.long_ q.text
  let fail (e : String) : Res :=
    let l := lineOf sess p []
    .next ((s.modSession q.sess fun x => { x with line := some l }).reply l [] e)
  match (p.stepOne s.selfAddr).orElse fun _ => s.verbErr p.toks with
  | some e => fail e
  | none =>
    match verbOf p.gen.isSome p.toks with
    | .error e => fail e
    | .ok (v, o, ts) =>
      match p.route with
      | .error e => fail (errCol e 1)
      | .ok _ => runVerb q v o (lineOf sess p ts) s

/-- Whether a queued line may begin: no line of its session is unfinished, none of its session is ahead of it, and, for a
class C line, none of class C is (R690). -/
def State.mayBegin (s : State) (ahead : List QLine) (q : QLine) : Bool :=
  let isC (q : QLine) : Bool := match s.session q.sess with
    | some x => classC (parseLine x.mailbox q.long_ q.text)
    | none => false
  (match s.session q.sess with | some x => x.line.isNone | none => true) &&
    !(ahead.any fun y => y.sess == q.sess) && !(isC q && ahead.any isC)

/-- The first queued line that may begin, with its place. -/
def State.nextLine (s : State) : Option (QLine × Nat) :=
  (s.con.queue.zipIdx).find? fun (q : QLine × Nat) => s.mayBegin (s.con.queue.take q.2) q.1

/-- LINE_EXECUTE (R684, R690). -/
def execLineExecute (s : State) : Res :=
  match s.nextLine with
  | none => .next s
  | some (q, j) =>
    let s := { s with con := { s.con with queue := s.con.queue.eraseIdx j } }
    if h : q.sess < 4 then
      match s.session q.sess with
      | none => .next s
      | some x =>
        match s.runLine q ⟨q.sess, h⟩ x with
        | .next t => .next ((t.mailTake 0 512).mailTake 1 512).rts
        | r => r
    else .next s

end Sys2Proof.Machine
end

