-- ==== Sys2Proof/Machine/Fabric.lean ====
section
/-! DEFINITION. The mesh and the relay lanes, one router and one fc at a time: slots, voids, packets in arrival and control
flits (R154 to R166, R174 to R176, R192, R193). -/

namespace Sys2Proof.Machine

/-! ### Control flits (R174, R175, R193) -/

/-- The output that a control flit needs at a router: along columns (N, S) first, then along rows (E, W), then its port;
none where it acts in the router (log entry 59). -/
def ctlOut (r : Nat) (f : Flit) : Option Nat :=
  let d := Ctl.dst f
  let p := Ctl.dport f
  if coreRow r < coreRow d then some 2
  else if coreRow d < coreRow r then some 0
  else if coreCol r < coreCol d then some 1
  else if coreCol d < coreCol r then some 3
  else if p = 1 then some 4
  else if 2 ≤ p && p ≤ 5 then some (3 + p)
  else none

/-- Control flits other than stops that wait at an output. -/
def State.ctlWaits (s : State) (r o : Nat) : Nat :=
  ((Tab.get [] s.mesh.ctrl r).filter fun c => c.output == o && Ctl.kind c.flit != 4).length

/-- A flit waits at an output of a router; one that the router lacks discards it, a full queue of four leaves it at the
input for the next fc. -/
def State.ctlQueue (s : State) (r o : Nat) (f : Flit) : State :=
  if !(meshOuts r).contains o then s
  else if 4 ≤ s.ctlWaits r o then
    { s with mesh := { s.mesh with flights := s.mesh.flights ++ [⟨s.now + 1, r, 4, ⟨true, true, 0, f, false, 0⟩, true⟩] } }
  else { s with mesh := { s.mesh with ctrl := Tab.put r (Tab.get [] s.mesh.ctrl r ++ [⟨o, f, s.now⟩]) s.mesh.ctrl } }

/-- The reply of a register read enters the router. -/
def State.ctlReply (s : State) (r : Nat) (f : Flit) (v : Nat) : State :=
  let g := Ctl.make 2 (Ctl.src f) (Ctl.sport f) r 0 (Ctl.off f) v 0
  match ctlOut r g with
  | some o => s.ctlQueue r o g
  | none => s

/-- A register read or write by control flit (R797, R798). -/
def State.ctlReg (s : State) (r : Nat) (f : Flit) : State :=
  let path := Path.ctrl (BitVec.ofNat 11 (Ctl.src f))
  if Ctl.kind f = 0 then
    let (v, s) := s.regRead path (Ctl.off f)
    s.ctlReply r f v
  else if Ctl.kind f = 1 then s.regWrite path (Ctl.off f) (Ctl.data f)
  else s

/-- A control flit is taken at a router: a stop floods, another waits for its output or acts in the router. -/
def State.ctlTake (s : State) (r : Nat) (f : Flit) : State :=
  if Ctl.kind f = 4 then s.stopFlit r f
  else
    match ctlOut r f with
    | some o => s.ctlQueue r o f
    | none => if Ctl.dport f = 0 then s.ctlReg r f else s

/-- A control flit leaves by a router's port to its core or to an attachment. -/
def State.ctlPort (s : State) (r o : Nat) (f : Flit) : State :=
  if Ctl.kind f ≤ 1 then s.ctlReg r f
  else if o = 4 then (if Ctl.kind f = 3 then s.doorbellIn r (Ctl.src f) (Ctl.off f) else s)
  else
    match attachAt r with
    | some (.host a) => if Ctl.kind f = 3 && o = 5 then s.relBell a (Ctl.src f) (Ctl.off f) else s.send (.control f)
    | _ => s.send (.control f)

/-- The running heat of a router (R192). -/
def State.liveOwner (s : State) (r : Nat) : Option Nat := (s.coreOwner r).filter fun h => heatLive (s.heatSt h)

/-- The heat at whose boundary a control flit of one of its cores would leave it from `r` to `nb` (R193). -/
def State.ctlLeaves (s : State) (r nb : Nat) (f : Flit) : Option Nat :=
  if Ctl.kind f = 4 || Ctl.sport f ≠ 1 then none
  else
    (s.liveOwner r).filter fun h => s.coreOwner (Ctl.src f) == some h && s.coreOwner (Ctl.dst f) != some h && s.coreOwner nb != some h

/-- Room at the neighbour for a control flit, those on their way to it counted (R175). -/
def State.ctlRoom (s : State) (nb : Nat) (f : Flit) : Bool :=
  Ctl.kind f == 4 || (match ctlOut nb f with
    | some o => decide (s.ctlWaits nb o +
        (s.mesh.flights.filter fun g => g.router == nb && g.ctl && ctlOut nb g.flit.data == some o).length < 4)
    | none => true)

/-- Remove the first waiting flit of an output. -/
def dropWait (o : Nat) : List CtrlWait → List CtrlWait
  | [] => []
  | c :: cs => if c.output = o then cs else c :: dropWait o cs

/-- An open entry of output `o`: the flit at the head of its control queue leaves, a stop first. -/
def State.openSlot (s : State) (r o : Nat) : State :=
  match (Tab.get [] s.mesh.ctrl r).find? fun c => c.output == o with
  | none => s
  | some c =>
    let f := c.flit
    let popped : State := { s with mesh := { s.mesh with ctrl := Tab.put r (dropWait o (Tab.get [] s.mesh.ctrl r)) s.mesh.ctrl } }
    let left := popped.put F.MSH_CTRL_PEAK_peak (max (s.get F.MSH_CTRL_PEAK_peak) (min 65535 (s.now - c.since)))
    if 4 ≤ o then left.ctlPort r o f
    else
      match neighbour r o with
      | none => s
      | some nb =>
        match s.ctlLeaves r nb f with
        | some h =>
          let t := popped.countDiscard h (F.HEAT_H_DISCARD_flit h)
          if Ctl.kind f = 0 then t.ctlReply r f 0xFFFFFFFF else t
        | none =>
          if s.ctlRoom nb f then
            { left with mesh := { left.mesh with flights := left.mesh.flights ++
                [⟨s.now + meshHop r nb, nb, opposite o, ⟨true, true, 0, f, false, 0⟩, true⟩] } }
          else s

/-- CONTROL_MESSAGE (R174): a control flit is taken at a router. -/
def execControlMessage (r : CoreId) (flit : Flit) (s : State) : Res := .next (s.ctlTake r.toNat flit)

/-! ### What a core gives its slots (R162 to R166, R253 to R257, R274) -/

/-- The stream that owns an outbound slot of a core. -/
def State.outStream (s : State) (r slot : Nat) : Option Nat :=
  let e := (Tab.get 0 s.mesh.smapA ((r * 2) * 128 + slot)).toNat
  if bitsOf e 4 1 = 1 then some (e % 16) else none

/-- One slot of an outbound queue at `now`: what leaves, idle for a released slot, and the queue after it; none where
nothing claims the slot. A packet that entered in this very fc is too late for its slot (R184), and all of it goes void
(R164). A stopped core sends voids with reason source stopped. -/
def outSlot (now strm : Nat) (stopped : Bool) : List OutItem → Option (Option MFlit × List OutItem)
  | [] => none
  | .skip n :: q => if n = 0 then outSlot now strm stopped q else some (none, if n = 1 then q else .skip (n - 1) :: q)
  | .pkt p :: q =>
    let void (v : Nat) (p : OutPkt) : Option (Option MFlit × List OutItem) :=
      some (some ⟨p.left == p.total, p.left == 1, v, 0, false, strm⟩, .pkt { p with left := p.left - 1 } :: q)
    if p.left = 0 then (outSlot now strm stopped q).map fun r => (r.1, .pkt p :: r.2)
    else if stopped then void 3 { p with flits := p.flits.drop 1 }
    else if p.late || p.refused || p.at_ = now then void 1 { p with late := true, flits := [] }
    else
      match p.flits with
      | [] => void 1 { p with late := true }
      | f :: fs =>
        some (some ⟨p.left == p.total, p.left == 1, 0, f, false, strm⟩,
          .pkt { p with left := p.left - 1, units := p.units + 1, flits := fs } :: q)

/-- The core's slots carry voids with reason source stopped: it has trapped, or its heat drains (R201, R274). -/
def State.slotsStopped (s : State) (r : Nat) : Bool :=
  (s.core r).run == .trapped ||
    match s.coreOwner r with
    | some h => s.heatSt h == 5
    | none => false

/-- What the core of router `r` sends in a slot named by an entry of code 4. In a slot of a stream that its DMA engine
owns the replies of its port leave (log entry 59); the engine, whose moves the model makes at once, releases the slots
(R386, log entry 41). -/
def State.coreSlot (s : State) (r slot : Nat) : Option MFlit × State :=
  match s.outStream r slot with
  | none => (none, s)
  | some st =>
    let c := s.core r
    let strm := r * 64 + st
    let void (v : Nat) : Option MFlit := some ⟨true, true, v, 0, false, strm⟩
    let dma := bitsOf (s.getA (F.DMA_C_CFG_streams r)) st 1 = 1
    if s.fenced r then (none, s)
    else
      match if dma then s.replySlot (512 + r) 0 else (none, s) with
      | (some f, s) => (some f, s)
      | (none, s) =>
        if c.run = .inReset then (void 2, s)
        else if dma then (none, s)
        else
          let stopped := s.slotsStopped r
          match outSlot s.now strm stopped (Tab.get [] c.outQ st) with
          | some (f, q) => (f, s.setCore r { c with outQ := Tab.put st q c.outQ })
          | none =>
            if stopped then (void 3, s)
            else (void 1, s.setCore r { c with missed := Tab.put st (Tab.get 0 c.missed st + 1) c.missed })

/-- One slot of a relay send queue, as `outSlot`. -/
def relaySlot (now : Nat) (stopped : Bool) : List RelaySend → Option (RFlit × List RelaySend)
  | [] => none
  | x :: q =>
    let send (v : Nat) (f : BitVec 1024) (x : RelaySend) : Option (RFlit × List RelaySend) :=
      some (⟨x.left == x.total, x.left == 1, v, f⟩, { x with left := x.left - 1 } :: q)
    if x.left = 0 then (relaySlot now stopped q).map fun r => (r.1, x :: r.2)
    else if stopped then send 3 0 { x with flits := x.flits.drop 1 }
    else if x.late || x.at_ = now then send 1 0 { x with late := true, flits := [] }
    else
      match x.flits with
      | [] => send 1 0 { x with late := true }
      | f :: fs => send 0 f { x with units := x.units + 1, flits := fs }

/-- What the core of router `r` sends in a relay slot of direction `d`. -/
def State.coreRelay (s : State) (r d : Nat) : Option RFlit × State :=
  let c := s.core r
  let stopped := s.slotsStopped r
  let void (v : Nat) : Option RFlit := some ⟨true, true, v, 0⟩
  if s.fenced r then (none, s)
  else if c.run = .inReset then (void 2, s)
  else
    match relaySlot s.now stopped (Tab.get [] c.relQ d) with
    | some (x, q) => (some x, s.setCore r { c with relQ := Tab.put d q c.relQ })
    | none =>
      if stopped then (void 3, s)
      else (void 1, s.setCore r { c with missedR := Tab.put d (Tab.get 0 c.missedR d + 1) c.missedR })

/-! ### What an attachment gives its lanes (R364 to R367, R496) -/

/-- A target's reply flit for a lane's slot, in the offsets of the requester that the reply map names. -/
def State.targetSlot (s : State) (t lane slot : Nat) : Option MFlit × State :=
  let e := (Tab.get 0 s.mesh.rmapA ((t * 4 + lane) * 128 + slot)).toNat
  if e < 2048 then (none, s) else s.replySlot t (e % 2048)

/-- The mesh flit that a Baton port hands to a lane of its router. -/
def ofLink (p lane : Nat) (f : LinkFlit) : MFlit :=
  ⟨bitsOf f.side 2 1 == 1, bitsOf f.side 3 1 == 1, if f.side % 4 = 2 then bitsOf f.side 4 2 + 1 else 0, f.data, false, p2 24 + p * 4 + lane⟩

/-- The sideband of a mesh flit (Table 4-3). -/
def MFlit.side (f : MFlit) : Nat :=
  (if f.void = 0 then 1 else 2) + f.head.toNat * 4 + f.tail.toNat * 8 + (f.void - 1) * 16

/-- The flits that arrive on the attach lanes of a router: code and flit. A Baton port fills the lanes `named` by
entries, one with a late void where it has none due (R496); what else is due there comes on the other lanes. -/
def State.laneInputs (s : State) (r slot : Nat) (named : List Nat) : List (Nat × MFlit) × State :=
  match attachAt r with
  | some (.baton p) =>
    let (fs, s) := s.fromLink p named
    let unnamed := (s.port p).rxBuf.filter fun f => decide (f.at_ ≤ s.now)
    let free := (List.range 4).filter fun l => !named.contains l
    let s := s.modPort p fun b => { b with rxBuf := b.rxBuf.filter fun f => !decide (f.at_ ≤ s.now) }
    ((fs ++ unnamed.zipIdx.map fun x => (free.getD x.2 3, x.1)).map fun x => (5 + x.1, ofLink p x.1 x.2), s)
  | some a =>
    match a.target with
    | some t => (List.range a.lanes).foldl (fun acc l =>
        let (f, s) := acc.2.targetSlot t l slot
        (acc.1 ++ (f.toList.map fun f => (5 + l, f)), s)) ([], s)
    | none => ([], s)
  | none => ([], s)

/-! ### Packets in arrival (R161, R165, R177, R258) -/

def MFlit.toV (f : MFlit) : VFlit := ⟨BitVec.ofNat 2 f.void, f.data, f.bad⟩

/-- A flit arrives at target `t` on output `o` of router `r`: it begins a packet or goes on with the one in arrival on its
stream. A packet whose head is a void ends at its tail. A void in a slot of a read request is a void request of the core
whose stream it is; a data flit with no packet in arrival is lost (log entry 59). -/
def State.arrive (s : State) (r o t strm : Nat) (f : MFlit) : State :=
  let key := (r * 13 + o) * p2 32 + strm
  let v := f.toV
  let keep (s : State) (a : Arrival) : State := { s with mesh := { s.mesh with asm := Tab.put key a s.mesh.asm } }
  match Tab.find s.mesh.asm key with
  | some a =>
    let (a, s) := s.arrFlit t a v
    if (if a.head.void = 0 then decide (Hd.flits a.head.data ≤ a.n) else f.tail) then
      ({ s with mesh := { s.mesh with asm := Tab.del key s.mesh.asm } } : State).arrEnd t a
    else keep s a
  | none =>
    let len := Config.replyFlits t f.strm % 129
    if f.void = 0 && !f.head then s
    else if f.void = 0 && Hd.op f.data = 2 then s.readRequest t v len
    else if f.void ≠ 0 && Config.readSlot t f.strm s.fcIn then
      s.readRequest t { v with data := Hd.make 2 0 0 (f.strm / 64 % 2048) 4 0 0 } len
    else
      let (a, s) := s.arrBegin t s.fcIn v (Hd.flits f.data)
      if (if f.void = 0 then Hd.flits f.data == 0 else f.tail) then s.arrEnd t a else keep s a

/-- A data flit or void leaves by an output of router `r` (R167, R192). -/
def State.leave (s : State) (r o : Nat) (f : MFlit) : State :=
  if o < 4 then
    match neighbour r o with
    | none => s
    | some nb =>
      match (s.liveOwner r).filter fun h => s.coreOwner nb != some h with
      | some h => s.countDiscard h (F.HEAT_H_DISCARD_flit h)
      | none => { s with mesh := { s.mesh with flights := s.mesh.flights ++ [⟨s.now + meshHop r nb, nb, opposite o, f, false⟩] } }
  else if o = 4 then
    let m := s.inMap r s.fcIn
    s.arrive r 4 (512 + r) (if bitsOf m 4 1 = 1 then m % 16 else 16 + f.strm) f
  else
    match attachAt r with
    | some (.baton p) =>
      let s := if f.void = 1 then (s.lateAt (256 + p)).countVoid (s.coreOwner r) else s
      s.toLink p f.side f.data
    | some .starter => if f.void = 1 then (s.lateAt 278).countVoid (s.coreOwner r) else s
    | some a =>
      match a.target with
      | some t => s.arrive r o t f.strm f
      | none => s
    | none => s

/-! ### Uncorrectable flits (R147) -/

/-- A router reports an uncorrectable flit: a red pennant for the heat that owns it. -/
def State.flitReport (s : State) (r : Nat) : State :=
  (s.flag F.MSH_EVT_uncorrectable).red { code := 0x20B, heat := s.coreOwner r, site := r, flap := s.lapBack 128 }

/-- `n` free values of 64 bits, side by side (log entry 1). -/
def State.drawMany (s : State) : Nat → Nat × State
  | 0 => (0, s)
  | n + 1 =>
    let (x, s) := s.draw 64
    let (y, s) := State.drawMany s n
    (x.toNat + y * p2 64, s)

/-- A flit that arrives at router `r` on an input that `bad` names is uncorrectable: it is reported, and the data that go on
are a free value. -/
def State.spoil (s : State) (r inp : Nat) (bad : BitVec 13) (f : MFlit) : MFlit × State :=
  if bitsOf bad.toNat inp 1 = 0 then (f, s)
  else
    let (x, s) := (s.flitReport r).drawMany 4
    ({ f with data := BitVec.ofNat 256 x, bad := true }, s)

def State.spoilRelay (s : State) (r inp : Nat) (bad : BitVec 13) (f : RFlit) : RFlit × State :=
  if bitsOf bad.toNat (9 + inp) 1 = 0 then (f, s)
  else
    let (x, s) := (s.flitReport r).drawMany 16
    ({ f with data := BitVec.ofNat 1024 x }, s)

/-! ### One router in one fc -/

/-- The mesh outputs of router `r` act. -/
def State.meshSlot (s : State) (r : Nat) (bad : BitVec 13) : State :=
  let slot := s.fcIn
  let rows := (meshOuts r).map fun o => (o, s.slotEntry r o slot)
  let named (e : Nat) : Bool := rows.any fun x => x.2 == e
  let here := s.mesh.flights.filter fun f => f.router == r && f.at_ == s.now && !f.ctl
  let s := { s with mesh := { s.mesh with flights := s.mesh.flights.filter fun f => !(f.router == r && decide (f.at_ ≤ s.now) && !f.ctl) } }
  let (own, s) := if named 4 then s.coreSlot r slot else (none, s)
  let (lanes, s) := s.laneInputs r slot ((List.range 4).filter fun l => named (5 + l))
  let (ins, s) := ((here.map fun f => (f.input, f.flit)) ++ lanes).foldl (fun acc i =>
      let (f, s) := acc.2.spoil r i.1 bad i.2
      (acc.1 ++ [(i.1, f)], s)) (([] : List (Nat × MFlit)), s)
  let s := s.each (ins.filter fun i => !named i.1) fun s _ =>
    (((s.bump F.MSH_CNT_ORPHAN_count).flag F.MSH_EVT_orphan).yellow { code := 0x10A, heat := s.coreOwner r, site := r })
  let ins := (own.toList.map fun f => (4, f)) ++ ins
  s.each rows fun s x =>
    if x.2 = 14 then s.openSlot r x.1
    else
      match List.find? (fun (i : Nat × MFlit) => i.1 == x.2) ins with
      | some i => s.leave r x.1 i.2
      | none => s

/-- The relay outputs of router `r` act, and relay flits that end here reach its core. -/
def State.relayStep (s : State) (r : Nat) (bad : BitVec 13) : State :=
  let slot := s.fcIn
  let here := s.mesh.relays.filter fun f => f.router == r && f.at_ == s.now
  let s := { s with mesh := { s.mesh with relays := s.mesh.relays.filter fun f => !(f.router == r && decide (f.at_ ≤ s.now)) } }
  let rows := (relayOuts r).map fun o => (o, s.slotEntry r o slot)
  let entry (o : Nat) : Nat := match List.find? (fun (x : Nat × Nat) => x.1 == o) rows with | some x => x.2 | none => 0
  let (ins, s) := here.foldl (fun acc f =>
      let (x, s) := acc.2.spoilRelay r f.input bad f.flit
      (acc.1 ++ [(f.input, x)], s)) (([] : List (Nat × RFlit)), s)
  let s := s.each ins fun s f => if entry (9 + opposite f.1) = 2 then s else s.relayIn r f.1 f.2.void f.2.data
  s.each rows fun s x =>
    let d := x.1 - 9
    let (unit, s) := if x.2 = 1 then s.coreRelay r d
      else if x.2 = 0 then (none, s)
      else ((List.find? (fun (i : Nat × RFlit) => i.1 == opposite d) ins).map (·.2), s)
    match unit, neighbour r d with
    | some f, some nb =>
      match (s.liveOwner r).filter fun h => s.coreOwner nb != some h with
      | some h => s.countDiscard h (F.HEAT_H_DISCARD_flit h)
      | none => { s with mesh := { s.mesh with relays := s.mesh.relays ++ [⟨s.now + relayHop r nb, nb, opposite d, f⟩] } }
    | _, _ => s

/-- Router `r` in the present fc: the control flits that have arrived, the mesh outputs, the relay outputs; once in each
fc, from S-09 onward (R159). `bad` names the inputs, numbered as outputs are, whose flit of this fc is uncorrectable. -/
def State.routerSlot (s : State) (r : Nat) (bad : BitVec 13) : State :=
  if Tab.get 0 s.mesh.acted r = s.now + 1 || s.boot.step < 9 then s
  else
    let s := { s with mesh := { s.mesh with acted := Tab.put r (s.now + 1) s.mesh.acted } }
    let ctl := s.mesh.flights.filter fun f => f.router == r && f.ctl && decide (f.at_ ≤ s.now)
    let s := { s with mesh := { s.mesh with flights := s.mesh.flights.filter fun f => !(f.router == r && f.ctl && decide (f.at_ ≤ s.now)) } }
    let s := s.each ctl fun s f =>
      let (x, s) := if f.at_ = s.now then s.spoil r f.input bad f.flit else (f.flit, s)
      s.ctlTake r x.data
    (s.meshSlot r bad).relayStep r bad

/-- ROUTER_FC_SLOT (R147, R154): router `r` acts in the present fc, corrects single-bit errors in so many flits and finds
those on the inputs of `bad` uncorrectable. -/
def execRouterFcSlot (r : CoreId) (corrected : BitVec 4) (bad : BitVec 13) (s : State) : Res :=
  let s := if corrected = 0 then s else (s.bump F.MSH_CNT_CORR_count corrected.toNat).flag F.MSH_EVT_corrected
  .next (s.routerSlot r.toNat bad)

end Sys2Proof.Machine
end

