-- ==== Sys2Proof/Machine/Mgt.lean ====
section
/-! DEFINITION. The management port: its transactions, write queue and fetch (R739 to R759). A transaction's command carries
its fields and the number of rising SCLK edges of it; a transaction on a port that is not active does nothing (R757). -/

namespace Sys2Proof.Machine

/-- The offset of word `i` of a transaction at a word address, which wraps at 24 bits (log entry 58). -/
def mgtOff (addr i : Nat) : Nat := 4 * ((addr + i) % p2 24)

/-- A word's bytes, most significant first (R738). -/
def beBytes (w : Word) : List Nat := [bitsOf w.toNat 24 8, bitsOf w.toNat 16 8, bitsOf w.toNat 8 8, bitsOf w.toNat 0 8]

/-- The trailer over a command, an address and data words (R744). -/
def mgtCrc (op : Nat) (crc : Bool) (nM1 addr : Nat) (ws : List Word) : Nat :=
  crc8 ((op * 64 + crc.toNat * 32 + nM1) :: [bitsOf addr 16 8, bitsOf addr 8 8, bitsOf addr 0 8] ++ ws.flatMap beBytes)

/-- Declared length in bits (Table 18-3). -/
def mgtLen (op : Nat) (crc : Bool) (n : Nat) : Nat :=
  (if op = 0 then 40 + 32 * n else if op = 1 then 32 + 32 * n else 32) + 8 * crc.toNat

/-- What every transaction with a valid op counts and marks: its number, a cut, edges beyond its length (R742, R743). -/
def State.mgtCount (s : State) (edges len : Nat) : State :=
  let s := if edges < 8 then s else s.bump F.MGT_CNT_TRANS_count
  if edges < len then s.mgtFlag F.MGT_STATUS_trunc
  else if len < edges then
    let s := s.bump F.MGT_STATUS_overrun
    s.raise R.MGT_STATUS (s.get F.MGT_STATUS_overrun * p2 8)
  else s

/-! ### Reads (R747) -/

/-- Whether the blocks behind the fabric are closed to the port: before S-15, and in the black safe state (R749, R751). -/
def State.mgtClosed (s : State) : Bool := !s.boot.s15 || s.black

/-- STA_BOOT's value. -/
def State.staBoot (s : State) : Nat := (s.liveReg R.STA_BOOT.off 0).getD 0

/-- One word of a direct read. -/
def State.mgtWord (s : State) (off : Nat) : Nat × State :=
  if (regNamed off).isNone then (0xFFFFFFFF, s)
  else if standby off then s.regRead .mgt off
  else if !s.boot.s15 then (s.staBoot, s)
  else (0xFFFFFFFF, s.flag F.MGT_STATUS_indirect)

/-- The words of a direct read, from word `i`. -/
def State.mgtWords (s : State) (addr i : Nat) : Nat → List Word × State
  | 0 => ([], s)
  | n + 1 =>
    let (v, s) := s.mgtWord (mgtOff addr i)
    let (ws, s) := State.mgtWords s addr (i + 1) n
    (BitVec.ofNat 32 v :: ws, s)

/-- MGT_READ: the words begun are read; those shifted out whole are sent, then the trailer and the fill (R742 to R744). -/
def execMgtRead (crc : Bool) (nM1 : BitVec 5) (addr : BitVec 24) (edges : BitVec 16) (s : State) : Res :=
  if !s.mgt.active then .next s
  else
    let n := nM1.toNat + 1
    let e := edges.toNat
    let len := mgtLen 0 crc n
    let s := s.mgtCount e len
    let (ws, s) := s.mgtWords addr.toNat 0 (min n ((e - 40 + 31) / 32))
    let sent := ws.take ((e - 40) / 32)
    let trailer := if crc && len ≤ e then some (BitVec.ofNat 8 (mgtCrc 0 crc nM1.toNat addr.toNat ws)) else none
    .next (s.send (.spi sent trailer ((e - len) / 32)))

/-! ### Writes (R741, R745, R750, R751, R755) -/

/-- A word is committed. -/
def State.mgtCommit (s : State) (off : Nat) (v : Word) : State :=
  if s.locked && !(decide (0x3FF0000 ≤ off) && decide (off < 0x3FF1000)) then
    (s.bump F.MGT_CNT_REFUSED_count).mgtFlag F.MGT_STATUS_refused
  else if standby off then s.regWrite .mgt off v.toNat
  else if s.mgtClosed then s.mgtFlag F.MGT_STATUS_early
  else if 64 ≤ s.mgt.queue.length then s.mgtFlag F.MGT_STATUS_qfull
  else { s with mgt := { s.mgt with queue := s.mgt.queue ++ [(off / 4, v)] } }

/-- Words committed in address order. -/
def State.mgtCommits (s : State) (addr i : Nat) : List Word → State
  | [] => s
  | w :: ws => State.mgtCommits (s.mgtCommit (mgtOff addr i) w) addr (i + 1) ws

/-- MGT_WRITE: `words` are the words of the transaction, whole or not. -/
def execMgtWrite (crc : Bool) (addr : BitVec 24) (words : List Word) (trailer : BitVec 8) (edges : BitVec 16) (s : State) : Res :=
  if !s.mgt.active then .next s
  else
    let n := words.length
    let e := edges.toNat
    let len := mgtLen 1 crc n
    let s := s.mgtCount e len
    if !crc then .next (s.mgtCommits addr.toNat 0 (words.take ((e - 32) / 32)))
    else if e < len then .next s
    else if mgtCrc 1 crc (n - 1) addr.toNat words ≠ trailer.toNat then .next (s.mgtFlag F.MGT_STATUS_crc_err)
    else .next (s.mgtCommits addr.toNat 0 words)

/-- MGT_WRITE_QUEUE_APPLY: the oldest queued word goes through the path of BAR0. -/
def execMgtWriteQueueApply (s : State) : Res :=
  match s.mgt.queue with
  | [] => .next s
  | (a, v) :: rest =>
    let mgt := { s.mgt with queue := rest, fetch := s.mgt.fetch.map fun f => (f.1, f.2.1, f.2.2 - 1) }
    .next (({ s with mgt := mgt } : State).regWrite .mgt (4 * a) v.toNat)

/-! ### Fetches (R745, R748, R749, R758) -/

/-- MGT_FETCH: it starts, behind the words queued before it, or is discarded. -/
def execMgtFetch (crc : Bool) (nM1 : BitVec 5) (addr : BitVec 24) (trailer : BitVec 8) (edges : BitVec 16) (s : State) : Res :=
  if !s.mgt.active then .next s
  else
    let e := edges.toNat
    let len := mgtLen 2 crc 0
    let s := s.mgtCount e len
    if e < len then .next s
    else if crc && mgtCrc 2 crc nM1.toNat addr.toNat [] ≠ trailer.toNat then .next (s.mgtFlag F.MGT_STATUS_crc_err)
    else if s.mgt.fetch.isSome then .next (s.flag F.MGT_STATUS_fbusy)
    else
      let s := s.wr R.MGT_FETCH (addr.toNat + nM1.toNat * p2 24 + p2 31)
      .next { s with mgt := { s.mgt with fetch := some (addr.toNat, nM1.toNat + 1, s.mgt.queue.length) } }

/-- Word `i` of a fetch into MGT_FBUF; `late` when nothing answered within 1 ms. -/
def State.mgtFill (s : State) (addr i : Nat) (late : Bool) : State :=
  let off := mgtOff addr i
  if !standby off && s.mgtClosed then s.wr (R.MGT_FBUF i) s.staBoot
  else if late then (s.wr (R.MGT_FBUF i) 0xFFFFFFFF).put F.MGT_FETCH_err 1
  else
    let (v, s) := s.regRead .mgt off
    s.wr (R.MGT_FBUF i) v

/-- MGT_FETCH_COMPLETE: every word of the fetch, once the words before it have been applied; bit `i` of `late` when word `i`
had no answer. -/
def execMgtFetchComplete (late : BitVec 32) (s : State) : Res :=
  match s.mgt.fetch with
  | some (addr, n, 0) =>
    let s := s.each (List.range n) fun s i => s.mgtFill addr i (late.getLsbD i)
    let s := (s.put F.MGT_FETCH_busy 0).put F.MGT_FETCH_done 1
    let s := s.raise R.MGT_ALERT 16
    .next { s with mgt := { s.mgt with fetch := none } }
  | _ => .next s

/-- MGT_BAD_COMMAND (R740). -/
def execMgtBadCommand (s : State) : Res := .next (if s.mgt.active then s.mgtFlag F.MGT_STATUS_badcmd else s)

end Sys2Proof.Machine
end

