-- ==== Sys2Proof/Machine/Tick.lean ====
section
/-! DEFINITION. The passing of time: a lap boundary, and the fc that passes while no command waits (R4, R41, R61, R196,
R199, R558, R571, R580, R654; log entry 60). -/

namespace Sys2Proof.Machine

/-- Whether the fabric clock runs: S-07 has locked its PLL. -/
def State.fabricOn (s : State) : Bool := s.boot.main && decide (7 < s.boot.step)

/-- fc in a millisecond of the standby clock. -/
def msFc : Nat := 1200000

/-- Each core whose next instruction waits at issue counts the cc that pass (R234). -/
def State.stallPass (s : State) (n : Nat) : State :=
  s.each (s.cores.filter fun (e : Nat × Core) => e.2.stall.isSome) fun s e =>
    let t := e.2.stall.getD 0 + n * Tab.get MeshSt.nominalClk s.mesh.clk (regionOf e.1)
    (s.modCore e.1 fun c => { c with stall := some (t % 1200) }).bump (F.CORE_CNT_STALL_count e.1) (t / 1200)

/-- `n` fc of standby time pass (R757); what was set before them is no longer of the present fc (R18). -/
def State.standby (s : State) (n : Nat) : State :=
  let s := { s with sets := [], was := [], mem := { s.mem with posted := [] } }
  if s.boot.aux then
    let t := s.boot.sub + n
    let s := { s with boot := { s.boot with ms := s.boot.ms + t / msFc, sub := t % msFc } }
    s.each [0, 1] fun s pf => if (s.mailbox pf).irqDue then s.mailSignal pf else s
  else s

/-- Heats whose windows the Marshal keeps at the boundary of the present lap: started two laps before it, or more. Those
of a stopped heat close up to the lap B in which it drained (R203). -/
def State.windowed (s : State) : List Nat :=
  (List.range 32).filter fun h => s.mar.armed &&
    (decide (2 ≤ s.heatSt h) || (s.heatSt h == 1 && decide (s.lapN ≤ s.stopLap h + 2))) && decide (2 ≤ s.lapN) &&
    decide (s.get48 (F.HEAT_H_START_LO_lap_lo h) (F.HEAT_H_START_HI_lap_hi h) + 2 ≤ s.lapN)

/-- What is counted within a lap begins again: signatures are latched, and the first events of the new lap are awaited. -/
def State.lapCounts (s : State) : State :=
  let s := { s with mar := { s.mar with stops := [] }, mesh := { s.mesh with discLogged := [] } }
  let s := { s with cores := s.cores.map fun (c : Nat × Core) => (c.1, { c.2 with sigLatched := c.2.sig, sigShadowLatched := c.2.sigShadow }) }
  { s with btn := s.btn.map fun (p : Nat × BtnPort) => (p.1, { p.2 with ueLap := 0 }) }

/-- The lap ends and the next begins: the journal takes the pennants of the lap that ends; then the time base, the check
windows, recalls, and what is counted in a lap. -/
def State.lapTurn (s : State) : State :=
  let s := if s.boot.restarting then s else s.jPennants 160
  let s := s.lapBase
  let s := s.framesExpire s.now
  let s := s.each s.windowed fun s h => s.closeWindow h (s.lapN - 2)
  let s := s.each (List.range 32) fun s h => s.recallTick h
  s.lapCounts

/-- LAP_BOUNDARY (R41): the rest of the present lap passes, and the next lap begins. -/
def execLapBoundary (s : State) : Res :=
  if s.fabricOn then .next (((s.halUpTo (s.now / lapFc * lapFc + lapFc - 1)).standby (lapFc - s.pos.toNat)).stallPass (lapFc - s.pos.toNat)).lapTurn else .next s

/-- One fc passes (log entry 60): at its end the mastheads have done what its position asks. -/
def State.tick (s : State) : State :=
  let s := if s.fabricOn then s.halUpTo s.now else s
  let s := s.standby 1
  if !s.fabricOn then s
  else
  let s := s.stallPass 1
  if s.pos.toNat + 1 < lapFc then (({ s with pos := s.pos + 1 } : State).allExpire (16 * (s.now + 1))).framesExpire (s.now + 1)
  else s.lapTurn

end Sys2Proof.Machine
end

