-- ==== Sys2Proof/Machine/Dispatch.lean ====
section
/-! DEFINITION. One arm per command: the meaning it calls. -/

namespace Sys2Proof.Machine

def exec (i : Instr) (s : State) : Host.Outcome State Fault Refusal :=
  match i with
  | .registerWrite p a off v => Sys2Proof.Machine.execRegisterWrite p a off v s
  | .loReadCapture p a off => Sys2Proof.Machine.execLoReadCapture p a off s
  | .bidReceived port blk => Sys2Proof.Machine.execBidReceived port blk s
  | .electionWindowEnd => Sys2Proof.Machine.execElectionWindowEnd s
  | .lapBoundary => Sys2Proof.Machine.execLapBoundary s
  | .lapMarkerReceived port pos sub blk => Sys2Proof.Machine.execLapMarkerReceived port pos sub blk s
  | .markerMissing port => Sys2Proof.Machine.execMarkerMissing port s
  | .holdoverExpired => Sys2Proof.Machine.execHoldoverExpired s
  | .delayProbeSend => Sys2Proof.Machine.execDelayProbeSend s
  | .delayProbeReceived port pos sub blk => Sys2Proof.Machine.execDelayProbeReceived port pos sub blk s
  | .probeEchoReceived port rtt blk => Sys2Proof.Machine.execProbeEchoReceived port rtt blk s
  | .lapInQualified => Sys2Proof.Machine.execLapInQualified s
  | .lapInLost => Sys2Proof.Machine.execLapInLost s
  | .adoptRequestReceived port x => Sys2Proof.Machine.execAdoptRequestReceived port x s
  | .adoptAnnounceTimeout => Sys2Proof.Machine.execAdoptAnnounceTimeout s
  | .lapStatus l => Sys2Proof.Machine.execLapStatus l s
  | .lapCounters l => Sys2Proof.Machine.execLapCounters l s
  | .lapSet l => Sys2Proof.Machine.execLapSet l s
  | .lapOut l => Sys2Proof.Machine.execLapOut l s
  | .lapRealign l => Sys2Proof.Machine.execLapRealign l s
  | .lapPacerAdopt l => Sys2Proof.Machine.execLapPacerAdopt l s
  | .halyardRecord k => Sys2Proof.Machine.execHalyardRecord k s
  | .provisionalLowering h => Sys2Proof.Machine.execProvisionalLowering h s
  | .loweringDelivered h => Sys2Proof.Machine.execLoweringDelivered h s
  | .barrierComplete h => Sys2Proof.Machine.execBarrierComplete h s
  | .leafTimeout h => Sys2Proof.Machine.execLeafTimeout h s
  | .memberLostTimeout h => Sys2Proof.Machine.execMemberLostTimeout h s
  | .taintRecord port h lap => Sys2Proof.Machine.execTaintRecord port h lap s
  | .halyardShow l => Sys2Proof.Machine.execHalyardShow l s
  | .halyardCounters l => Sys2Proof.Machine.execHalyardCounters l s
  | .routerFcSlot r corrected bad => Sys2Proof.Machine.execRouterFcSlot r corrected bad s
  | .controlMessage r flit => Sys2Proof.Machine.execControlMessage r flit s
  | .stopFlit r flit => Sys2Proof.Machine.execStopFlit r flit s
  | .regionClockChange => Sys2Proof.Machine.execRegionClockChange s
  | .heatCommit l => Sys2Proof.Machine.execHeatCommit l s
  | .commitActivate h => Sys2Proof.Machine.execCommitActivate h s
  | .heatStart l => Sys2Proof.Machine.execHeatStart l s
  | .teamCheckDeadline h => Sys2Proof.Machine.execTeamCheckDeadline h s
  | .heatStartLap h => Sys2Proof.Machine.execHeatStartLap h s
  | .heatRecall l => Sys2Proof.Machine.execHeatRecall l s
  | .recallStop h => Sys2Proof.Machine.execRecallStop h s
  | .drainEnd h => Sys2Proof.Machine.execDrainEnd h s
  | .heatReset l => Sys2Proof.Machine.execHeatReset l s
  | .scrubComplete h => Sys2Proof.Machine.execScrubComplete h s
  | .heatShow l => Sys2Proof.Machine.execHeatShow l s
  | .heatSet l => Sys2Proof.Machine.execHeatSet l s
  | .add k g d a b => Sys2Proof.Machine.execAdd k g d a b s
  | .sub k g d a b => Sys2Proof.Machine.execSub k g d a b s
  | .andR k g d a b => Sys2Proof.Machine.execAndR k g d a b s
  | .orR k g d a b => Sys2Proof.Machine.execOrR k g d a b s
  | .xorR k g d a b => Sys2Proof.Machine.execXorR k g d a b s
  | .shl k g d a b => Sys2Proof.Machine.execShl k g d a b s
  | .shr k g d a b => Sys2Proof.Machine.execShr k g d a b s
  | .sra k g d a b => Sys2Proof.Machine.execSra k g d a b s
  | .mul k g d a b => Sys2Proof.Machine.execMul k g d a b s
  | .mulh k g d a b => Sys2Proof.Machine.execMulh k g d a b s
  | .mulhu k g d a b => Sys2Proof.Machine.execMulhu k g d a b s
  | .div k g d a b => Sys2Proof.Machine.execDiv k g d a b s
  | .divu k g d a b => Sys2Proof.Machine.execDivu k g d a b s
  | .rem k g d a b => Sys2Proof.Machine.execRem k g d a b s
  | .remu k g d a b => Sys2Proof.Machine.execRemu k g d a b s
  | .minR k g d a b => Sys2Proof.Machine.execMinR k g d a b s
  | .maxR k g d a b => Sys2Proof.Machine.execMaxR k g d a b s
  | .minu k g d a b => Sys2Proof.Machine.execMinu k g d a b s
  | .maxu k g d a b => Sys2Proof.Machine.execMaxu k g d a b s
  | .seq k g d a b => Sys2Proof.Machine.execSeq k g d a b s
  | .slt k g d a b => Sys2Proof.Machine.execSlt k g d a b s
  | .sltu k g d a b => Sys2Proof.Machine.execSltu k g d a b s
  | .pand k g d a b => Sys2Proof.Machine.execPand k g d a b s
  | .por k g d a b => Sys2Proof.Machine.execPor k g d a b s
  | .pnot k g d a => Sys2Proof.Machine.execPnot k g d a s
  | .addi k g d a imm => Sys2Proof.Machine.execAddi k g d a imm s
  | .andi k g d a imm => Sys2Proof.Machine.execAndi k g d a imm s
  | .ori k g d a imm => Sys2Proof.Machine.execOri k g d a imm s
  | .xori k g d a imm => Sys2Proof.Machine.execXori k g d a imm s
  | .shli k g d a imm => Sys2Proof.Machine.execShli k g d a imm s
  | .shri k g d a imm => Sys2Proof.Machine.execShri k g d a imm s
  | .srai k g d a imm => Sys2Proof.Machine.execSrai k g d a imm s
  | .seqi k g d a imm => Sys2Proof.Machine.execSeqi k g d a imm s
  | .slti k g d a imm => Sys2Proof.Machine.execSlti k g d a imm s
  | .sltui k g d a imm => Sys2Proof.Machine.execSltui k g d a imm s
  | .li k g d a imm => Sys2Proof.Machine.execLi k g d a imm s
  | .lis k g d a imm => Sys2Proof.Machine.execLis k g d a imm s
  | .ld8u k g d a imm => Sys2Proof.Machine.execLd8u k g d a imm s
  | .ld16u k g d a imm => Sys2Proof.Machine.execLd16u k g d a imm s
  | .ld32u k g d a imm => Sys2Proof.Machine.execLd32u k g d a imm s
  | .ld64 k g d a imm => Sys2Proof.Machine.execLd64 k g d a imm s
  | .ld8s k g d a imm => Sys2Proof.Machine.execLd8s k g d a imm s
  | .ld16s k g d a imm => Sys2Proof.Machine.execLd16s k g d a imm s
  | .ld32s k g d a imm => Sys2Proof.Machine.execLd32s k g d a imm s
  | .st8 k g d a imm => Sys2Proof.Machine.execSt8 k g d a imm s
  | .st16 k g d a imm => Sys2Proof.Machine.execSt16 k g d a imm s
  | .st32 k g d a imm => Sys2Proof.Machine.execSt32 k g d a imm s
  | .st64 k g d a imm => Sys2Proof.Machine.execSt64 k g d a imm s
  | .tld k g d a imm => Sys2Proof.Machine.execTld k g d a imm s
  | .tst k g d a imm => Sys2Proof.Machine.execTst k g d a imm s
  | .csrr k g d imm => Sys2Proof.Machine.execCsrr k g d imm s
  | .csrw k g d imm => Sys2Proof.Machine.execCsrw k g d imm s
  | .br k g imm => Sys2Proof.Machine.execBr k g imm s
  | .call k g imm => Sys2Proof.Machine.execCall k g imm s
  | .jr k g a => Sys2Proof.Machine.execJr k g a s
  | .waitPos k g a b => Sys2Proof.Machine.execWaitPos k g a b s
  | .waitCq k g => Sys2Proof.Machine.execWaitCq k g s
  | .waitHq k g => Sys2Proof.Machine.execWaitHq k g s
  | .waitOp k g a => Sys2Proof.Machine.execWaitOp k g a s
  | .waitCyc k g a => Sys2Proof.Machine.execWaitCyc k g a s
  | .waitStride k g => Sys2Proof.Machine.execWaitStride k g s
  | .waitEnd k => Sys2Proof.Machine.execWaitEnd k s
  | .ckpt k g imm => Sys2Proof.Machine.execCkpt k g imm s
  | .presOpen k g a b => Sys2Proof.Machine.execPresOpen k g a b s
  | .presClose k g => Sys2Proof.Machine.execPresClose k g s
  | .presDiscard k g => Sys2Proof.Machine.execPresDiscard k g s
  | .halt k g => Sys2Proof.Machine.execHalt k g s
  | .nop k g => Sys2Proof.Machine.execNop k g s
  | .fence k g => Sys2Proof.Machine.execFence k g s
  | .syncu k g => Sys2Proof.Machine.execSyncu k g s
  | .vadd k g st d a b => Sys2Proof.Machine.execVadd k g st d a b s
  | .vsub k g st d a b => Sys2Proof.Machine.execVsub k g st d a b s
  | .vmul k g st d a b => Sys2Proof.Machine.execVmul k g st d a b s
  | .vfma k g st d a b c => Sys2Proof.Machine.execVfma k g st d a b c s
  | .vmax k g st d a b => Sys2Proof.Machine.execVmax k g st d a b s
  | .vmin k g st d a b => Sys2Proof.Machine.execVmin k g st d a b s
  | .vabs k g st d a => Sys2Proof.Machine.execVabs k g st d a s
  | .vneg k g st d a => Sys2Proof.Machine.execVneg k g st d a s
  | .vexp2 k g st d a => Sys2Proof.Machine.execVexp2 k g st d a s
  | .vlog2 k g st d a => Sys2Proof.Machine.execVlog2 k g st d a s
  | .vdiv k g st d a b => Sys2Proof.Machine.execVdiv k g st d a b s
  | .vsqrt k g st d a => Sys2Proof.Machine.execVsqrt k g st d a s
  | .vcmpeq k g st d a b => Sys2Proof.Machine.execVcmpeq k g st d a b s
  | .vcmplt k g st d a b => Sys2Proof.Machine.execVcmplt k g st d a b s
  | .vsel k g st d a b c => Sys2Proof.Machine.execVsel k g st d a b c s
  | .vand k g st d a b => Sys2Proof.Machine.execVand k g st d a b s
  | .vor k g st d a b => Sys2Proof.Machine.execVor k g st d a b s
  | .vxor k g st d a b => Sys2Proof.Machine.execVxor k g st d a b s
  | .vsum k g st d a => Sys2Proof.Machine.execVsum k g st d a s
  | .vrmax k g st d a => Sys2Proof.Machine.execVrmax k g st d a s
  | .vbc k g st d a => Sys2Proof.Machine.execVbc k g st d a s
  | .vext k g st d a b => Sys2Proof.Machine.execVext k g st d a b s
  | .vld k g st d a => Sys2Proof.Machine.execVld k g st d a s
  | .vst k g st d a => Sys2Proof.Machine.execVst k g st d a s
  | .vcvt k g st d a b c => Sys2Proof.Machine.execVcvt k g st d a b c s
  | .vunpk k g st d a b => Sys2Proof.Machine.execVunpk k g st d a b s
  | .vmxq k g st d a b c => Sys2Proof.Machine.execVmxq k g st d a b c s
  | .mma k g x ta tb => Sys2Proof.Machine.execMma k g x ta tb s
  | .agopen k g x tc imm => Sys2Proof.Machine.execAgopen k g x tc imm s
  | .agclose k g x ta tb tc imm => Sys2Proof.Machine.execAgclose k g x ta tb tc imm s
  | .agrd k g x tc => Sys2Proof.Machine.execAgrd k g x tc s
  | .agwr k g x ta => Sys2Proof.Machine.execAgwr k g x ta s
  | .agsave k g x tc => Sys2Proof.Machine.execAgsave k g x tc s
  | .agload k g x ta => Sys2Proof.Machine.execAgload k g x ta s
  | .agdrop k g x => Sys2Proof.Machine.execAgdrop k g x s
  | .attend k g ta => Sys2Proof.Machine.execAttend k g ta s
  | .attendComplete k replay late => Sys2Proof.Machine.execAttendComplete k replay late s
  | .keeperCommit k g ta => Sys2Proof.Machine.execKeeperCommit k g ta s
  | .keeperFork k g ta => Sys2Proof.Machine.execKeeperFork k g ta s
  | .keeperRelease k g ta => Sys2Proof.Machine.execKeeperRelease k g ta s
  | .pinPage k g ta => Sys2Proof.Machine.execPinPage k g ta s
  | .keeperGrow k g ta => Sys2Proof.Machine.execKeeperGrow k g ta s
  | .send k g a b imm => Sys2Proof.Machine.execSend k g a b imm s
  | .sendComplete k stream => Sys2Proof.Machine.execSendComplete k stream s
  | .rqpop k g a b imm => Sys2Proof.Machine.execRqpop k g a b imm s
  | .skip k g a b imm => Sys2Proof.Machine.execSkip k g a b imm s
  | .rsend k g a b imm => Sys2Proof.Machine.execRsend k g a b imm s
  | .rsendComplete k dir => Sys2Proof.Machine.execRsendComplete k dir s
  | .rrecv k g a b imm => Sys2Proof.Machine.execRrecv k g a b imm s
  | .rrecvComplete k dir => Sys2Proof.Machine.execRrecvComplete k dir s
  | .hoist k g a b imm => Sys2Proof.Machine.execHoist k g a b imm s
  | .hqpop k g a b imm => Sys2Proof.Machine.execHqpop k g a b imm s
  | .dma k g a b imm => Sys2Proof.Machine.execDma k g a b imm s
  | .cqpop k g a b imm => Sys2Proof.Machine.execCqpop k g a b imm s
  | .dbell k g a b imm => Sys2Proof.Machine.execDbell k g a b imm s
  | .packetArrival k slot head data => Sys2Proof.Machine.execPacketArrival k slot head data s
  | .doorbellArrival k src v => Sys2Proof.Machine.execDoorbellArrival k src v s
  | .relayFlitArrival k dir void data => Sys2Proof.Machine.execRelayFlitArrival k dir void data s
  | .coreReset k => Sys2Proof.Machine.execCoreReset k s
  | .imageLoad l => Sys2Proof.Machine.execImageLoad l s
  | .imageShow l => Sys2Proof.Machine.execImageShow l s
  | .sliceReadRequest t head n => Sys2Proof.Machine.execSliceReadRequest t head n s
  | .sliceReply t => Sys2Proof.Machine.execSliceReply t s
  | .sliceWritePacket t head data => Sys2Proof.Machine.execSliceWritePacket t head data s
  | .ceWindow => Sys2Proof.Machine.execCeWindow s
  | .patrolGranule t found => Sys2Proof.Machine.execPatrolGranule t found s
  | .dmaDescriptor k => Sys2Proof.Machine.execDmaDescriptor k s
  | .dmaChainComplete k => Sys2Proof.Machine.execDmaChainComplete k s
  | .stageRequest att k unit => Sys2Proof.Machine.execStageRequest att k unit s
  | .farReadCompletion att unit status bytes => Sys2Proof.Machine.execFarReadCompletion att unit status bytes s
  | .stageTimeout att unit => Sys2Proof.Machine.execStageTimeout att unit s
  | .bar2Read pf off len => Sys2Proof.Machine.execBar2Read pf off len s
  | .bar2Write pf off bytes poison => Sys2Proof.Machine.execBar2Write pf off bytes poison s
  | .bar2Resize pf size => Sys2Proof.Machine.execBar2Resize pf size s
  | .dmaBar2BaseWrite p pf hi v => Sys2Proof.Machine.execDmaBar2BaseWrite p pf hi v s
  | .keeperCheck h => Sys2Proof.Machine.execKeeperCheck h s
  | .keeperMoveCopyDone h j => Sys2Proof.Machine.execKeeperMoveCopyDone h j s
  | .kvShow l => Sys2Proof.Machine.execKvShow l s
  | .codewordReceived port lanes => Sys2Proof.Machine.execCodewordReceived port lanes s
  | .frameHeaderReceived port slot blocks hdr => Sys2Proof.Machine.execFrameHeaderReceived port slot blocks hdr s
  | .bulkFrameReceived port x => Sys2Proof.Machine.execBulkFrameReceived port x s
  | .halyardFrame port x => Sys2Proof.Machine.execHalyardFrame port x s
  | .identityFrame port x => Sys2Proof.Machine.execIdentityFrame port x s
  | .goingDownFrame port x => Sys2Proof.Machine.execGoingDownFrame port x s
  | .retrainRequest port x => Sys2Proof.Machine.execRetrainRequest port x s
  | .tunnelFrame port x => Sys2Proof.Machine.execTunnelFrame port x s
  | .ackTimeout port express => Sys2Proof.Machine.execAckTimeout port express s
  | .lossOfSignal port => Sys2Proof.Machine.execLossOfSignal port s
  | .frameLockTimeout port => Sys2Proof.Machine.execFrameLockTimeout port s
  | .portTraining port => Sys2Proof.Machine.execPortTraining port s
  | .trainingTimeout port => Sys2Proof.Machine.execTrainingTimeout port s
  | .transceiverInserted port long_ => Sys2Proof.Machine.execTransceiverInserted port long_ s
  | .btnPCtlRetrain p port v => Sys2Proof.Machine.execBtnPCtlRetrain p port v s
  | .batonShow l => Sys2Proof.Machine.execBatonShow l s
  | .batonTopo l => Sys2Proof.Machine.execBatonTopo l s
  | .batonRetrain l => Sys2Proof.Machine.execBatonRetrain l s
  | .batonEq l => Sys2Proof.Machine.execBatonEq l s
  | .batonSet l => Sys2Proof.Machine.execBatonSet l s
  | .batonEnable l => Sys2Proof.Machine.execBatonEnable l s
  | .teamShow l => Sys2Proof.Machine.execTeamShow l s
  | .teamSet l => Sys2Proof.Machine.execTeamSet l s
  | .teamTail l => Sys2Proof.Machine.execTeamTail l s
  | .checkerReport code site detail ev => Sys2Proof.Machine.execCheckerReport code site detail ev s
  | .starterHeartbeat => Sys2Proof.Machine.execStarterHeartbeat s
  | .heartbeatTimeout => Sys2Proof.Machine.execHeartbeatTimeout s
  | .signatureCollection => Sys2Proof.Machine.execSignatureCollection s
  | .latentFaultAudit silent restored => Sys2Proof.Machine.execLatentFaultAudit silent restored s
  | .monitorSelfTest trips => Sys2Proof.Machine.execMonitorSelfTest trips s
  | .monitorExcursion m => Sys2Proof.Machine.execMonitorExcursion m s
  | .safeStopN => Sys2Proof.Machine.execSafeStopN s
  | .safeStopNReleased => Sys2Proof.Machine.execSafeStopNReleased s
  | .teamStopFrame port x => Sys2Proof.Machine.execTeamStopFrame port x s
  | .marLockWrite p v => Sys2Proof.Machine.execMarLockWrite p v s
  | .marSvcWrite p v => Sys2Proof.Machine.execMarSvcWrite p v s
  | .injectionArm p v => Sys2Proof.Machine.execInjectionArm p v s
  | .injectionActs => Sys2Proof.Machine.execInjectionActs s
  | .marshalShow l => Sys2Proof.Machine.execMarshalShow l s
  | .marshalLock l => Sys2Proof.Machine.execMarshalLock l s
  | .marshalService l => Sys2Proof.Machine.execMarshalService l s
  | .marshalInject l => Sys2Proof.Machine.execMarshalInject l s
  | .marshalRestore l => Sys2Proof.Machine.execMarshalRestore l s
  | .releaseDoorbell att src v => Sys2Proof.Machine.execReleaseDoorbell att src v s
  | .releaseDrain h => Sys2Proof.Machine.execReleaseDrain h s
  | .hconsWrite p h v => Sys2Proof.Machine.execHconsWrite p h v s
  | .powerUp => Sys2Proof.Machine.execPowerUp s
  | .auxApplied => Sys2Proof.Machine.execAuxApplied s
  | .mgtPortActive => Sys2Proof.Machine.execMgtPortActive s
  | .auxLoss => Sys2Proof.Machine.execAuxLoss s
  | .mateNOpen => Sys2Proof.Machine.execMateNOpen s
  | .bootStep r => Sys2Proof.Machine.execBootStep r s
  | .sectorEraseDone => Sys2Proof.Machine.execSectorEraseDone s
  | .perstNAsserted => Sys2Proof.Machine.execPerstNAsserted s
  | .perstNDeasserted => Sys2Proof.Machine.execPerstNDeasserted s
  | .configRequest pf => Sys2Proof.Machine.execConfigRequest pf s
  | .configDeadline => Sys2Proof.Machine.execConfigDeadline s
  | .functionLevelReset pf => Sys2Proof.Machine.execFunctionLevelReset pf s
  | .starterRestart => Sys2Proof.Machine.execStarterRestart s
  | .staCtlHoldReq p => Sys2Proof.Machine.execStaCtlHoldReq p s
  | .staCtlRelease p => Sys2Proof.Machine.execStaCtlRelease p s
  | .holdCmd l => Sys2Proof.Machine.execHoldCmd l s
  | .holdRelease l => Sys2Proof.Machine.execHoldRelease l s
  | .statusCmd l => Sys2Proof.Machine.execStatusCmd l s
  | .statusFence l => Sys2Proof.Machine.execStatusFence l s
  | .journalCmd l => Sys2Proof.Machine.execJournalCmd l s
  | .journalShow l => Sys2Proof.Machine.execJournalShow l s
  | .journalClear l => Sys2Proof.Machine.execJournalClear l s
  | .rebootCmd l => Sys2Proof.Machine.execRebootCmd l s
  | .updateShow l => Sys2Proof.Machine.execUpdateShow l s
  | .updateBegin l => Sys2Proof.Machine.execUpdateBegin l s
  | .updateData l => Sys2Proof.Machine.execUpdateData l s
  | .updateEnd l => Sys2Proof.Machine.execUpdateEnd l s
  | .updateApply l => Sys2Proof.Machine.execUpdateApply l s
  | .uartByte usb b => Sys2Proof.Machine.execUartByte usb b s
  | .uartBreak => Sys2Proof.Machine.execUartBreak s
  | .consoleLine sess text => Sys2Proof.Machine.execConsoleLine sess text s
  | .lineExecute => Sys2Proof.Machine.execLineExecute s
  | .outputSpaceFree sess n => Sys2Proof.Machine.execOutputSpaceFree sess n s
  | .usbOpen => Sys2Proof.Machine.execUsbOpen s
  | .usbClose => Sys2Proof.Machine.execUsbClose s
  | .mailboxHctlWrite pf v => Sys2Proof.Machine.execMailboxHctlWrite pf v s
  | .mailboxDoorbell pf bytes => Sys2Proof.Machine.execMailboxDoorbell pf bytes s
  | .mailboxOutputTimeout pf => Sys2Proof.Machine.execMailboxOutputTimeout pf s
  | .tunnelIdleTimeout sess => Sys2Proof.Machine.execTunnelIdleTimeout sess s
  | .tunnelTimeout sess => Sys2Proof.Machine.execTunnelTimeout sess s
  | .claimCmd l => Sys2Proof.Machine.execClaimCmd l s
  | .claimForce l => Sys2Proof.Machine.execClaimForce l s
  | .unclaim l => Sys2Proof.Machine.execUnclaim l s
  | .setSession l => Sys2Proof.Machine.execSetSession l s
  | .getSession l => Sys2Proof.Machine.execGetSession l s
  | .helpCmd l => Sys2Proof.Machine.execHelpCmd l s
  | .getReg l => Sys2Proof.Machine.execGetReg l s
  | .setReg l => Sys2Proof.Machine.execSetReg l s
  | .logCmd l => Sys2Proof.Machine.execLogCmd l s
  | .meshShow l => Sys2Proof.Machine.execMeshShow l s
  | .meshDist l => Sys2Proof.Machine.execMeshDist l s
  | .meshSlot l => Sys2Proof.Machine.execMeshSlot l s
  | .meshLate l => Sys2Proof.Machine.execMeshLate l s
  | .numShow l => Sys2Proof.Machine.execNumShow l s
  | .numCfg l => Sys2Proof.Machine.execNumCfg l s
  | .numSeed l => Sys2Proof.Machine.execNumSeed l s
  | .numClear l => Sys2Proof.Machine.execNumClear l s
  | .numSeedWrite p k v => Sys2Proof.Machine.execNumSeedWrite p k v s
  | .powerShow l => Sys2Proof.Machine.execPowerShow l s
  | .powerClock l => Sys2Proof.Machine.execPowerClock l s
  | .stopCmd l => Sys2Proof.Machine.execStopCmd l s
  | .thermalShow l => Sys2Proof.Machine.execThermalShow l s
  | .thermalWarn l => Sys2Proof.Machine.execThermalWarn l s
  | .throttleStep => Sys2Proof.Machine.execThrottleStep s
  | .throttleRaise => Sys2Proof.Machine.execThrottleRaise s
  | .mgtRead crc nM1 addr edges => Sys2Proof.Machine.execMgtRead crc nM1 addr edges s
  | .mgtWrite crc addr words trailer edges => Sys2Proof.Machine.execMgtWrite crc addr words trailer edges s
  | .mgtFetch crc nM1 addr trailer edges => Sys2Proof.Machine.execMgtFetch crc nM1 addr trailer edges s
  | .mgtFetchComplete late => Sys2Proof.Machine.execMgtFetchComplete late s
  | .mgtWriteQueueApply => Sys2Proof.Machine.execMgtWriteQueueApply s
  | .mgtBadCommand => Sys2Proof.Machine.execMgtBadCommand s
  | .batonFlitSlot port sub => Sys2Proof.Machine.execBatonFlitSlot port sub s
  | .reserveScrubComplete h => Sys2Proof.Machine.execReserveScrubComplete h s
  | .hostLinkTrained => Sys2Proof.Machine.execHostLinkTrained s
  | .uartCtsChange off => Sys2Proof.Machine.execUartCtsChange off s
  | .mainInputPowerCycle => Sys2Proof.Machine.execMainInputPowerCycle s
  | .marshalUpdateArmed => Sys2Proof.Machine.execMarshalUpdateArmed s
  | .starterRestartComplete failed => Sys2Proof.Machine.execStarterRestartComplete failed s
  | .imageLoadComplete => Sys2Proof.Machine.execImageLoadComplete s

end Sys2Proof.Machine
end

