-- ==== Sys2Proof/Machine/Step.lean ====
section
/-! DEFINITION. One step of the module: it takes the command at the front of its queue, or idles for one fc. -/

namespace Sys2Proof.Machine

/-- The command at the front of the queue takes effect, with the rest of the queue waiting; with none waiting, one fc passes
(log entry 60). -/
def step (s : State) : Host.Outcome State Fault Refusal :=
  match s.pending with
  | [] => .next s.tick
  | c :: rest => exec c { s with pending := rest }

/-- The state with the command that a word of the table spells at the front of its queue. -/
def State.withFetchWord (s : State) (nbits w : Nat) : State :=
  match decodeTableWord nbits w with
  | some c => { s with pending := c :: s.pending }
  | none => s

end Sys2Proof.Machine
end

