-- ==== Sys2Proof/Safety.lean ====
section
/-! DEFINITION. What claims call a safe run of the module, and the form its data keep. -/

namespace Sys2Proof.Machine

/-- Memory lists its bytes by strictly rising address, and none that reads as an unlisted address does. -/
def State.memWf (s : State) : Prop := Cells.wf s.mem.cells = true

/-- Registers, their active copies and their captured halves are listed by strictly rising offset. -/
def State.regsWf (s : State) : Prop := Tab.wf s.regs = true ∧ Tab.wf s.act = true ∧ Tab.wf s.caps = true

/-- A step that neither faults nor refuses. -/
def Goes (s : State) : Prop := ∃ t, step s = .next t

/-- A run of `n` steps that neither faults nor refuses. -/
def SafeRun : Nat → State → Prop
  | 0, _ => True
  | n + 1, s => ∃ t, step s = .next t ∧ SafeRun n t

/-! ### Terms of the claims about core instructions -/

/-- Core `k` issues an instruction guarded by `g`: not fenced, running, its pc inside the code, its guard one, and no
word in its instruction memory there that the tables do not give (R228, R236, R237). -/
structure Issues (s : State) (k : CoreId) (g : BitVec 3) : Prop where
  unfenced : s.fenced k.toNat = false
  running : (s.core k.toNat).run = .running
  inCode : (s.core k.toNat).pc.toNat < 4 * s.getA (F.CORE_ENTRY_size k.toNat)
  guarded : (s.core k.toNat).pv g.toNat = true
  legal : (s.core k.toNat).badWord k = false

/-- Core `k` issues an instruction of class VEC or MAT: none waits for an ATTEND of the core (R457). -/
structure IssuesUnit (s : State) (k : CoreId) (g : BitVec 3) : Prop extends Issues s k g where
  idle : (s.core k.toNat).attend = none

/-- From `s` to `t`, core `k` retired instruction `i` and stands at `pc`: both signatures folded its word, the count of
retired instructions rose and saturates (R570). -/
structure Retired (s t : State) (k : CoreId) (i : Instr) (pc : BitVec 16) : Prop where
  atPc : (t.core k.toNat).pc = pc
  signed : ∃ w, encodeCore i = some (k, w) ∧
    (t.core k.toNat).sig = sigStep (s.core k.toNat).sig (s.core k.toNat).pc w ∧
    (t.core k.toNat).sigShadow = sigStep (s.core k.toNat).sigShadow (s.core k.toNat).pc w
  counted : t.get (F.CORE_CNT_RETIRE_count k.toNat) = min (s.get (F.CORE_CNT_RETIRE_count k.toNat) + 1) 0xFFFFFFFF

/-- Between `s` and `t` only core `k`'s record and the registers at `offs` may differ: everything else of the module,
every other core and every other register is the same. -/
structure OnlyCore (s t : State) (k : CoreId) (offs : List Nat) : Prop where
  rest : t = { s with cores := t.cores, regs := t.regs }
  cores : ∀ j, j ≠ k.toNat → t.core j = s.core j
  regs : ∀ q : Reg, q.off ∉ offs → t.rd q = s.rd q

/-- Offset of a core's count of retired instructions. -/
def retireOff (k : CoreId) : Nat := (R.CORE_CNT_RETIRE k.toNat).off

/-- From core state `c` to `c'`, scalar register `d` takes value `v` and tag `tag`, s0 discards both, and nothing of the
core but its pc and signatures changes beside (Table 6-1, R266). -/
structure WritesScalar (c c' : Core) (d : BitVec 5) (v : DWord) (tag : Bool) : Prop where
  values : ∀ r, c'.sv r = if r = d ∧ d ≠ 0 then v else c.sv r
  tags : ∀ r, c'.tagOfS r = if r = d ∧ d ≠ 0 then tag else c.tagOfS r
  rest : c' = { c with pc := c'.pc, stall := none, sig := c'.sig, sigShadow := c'.sigShadow, s := c'.s, tagS := c'.tagS }

/-- From core state `c` to `c'`, predicate `d` takes value `v` and tag `tag`, p0 discards both, and nothing of the core
but its pc and signatures changes beside. -/
structure WritesPred (c c' : Core) (d : Nat) (v tag : Bool) : Prop where
  values : ∀ i, i < 8 → c'.pv i = if i = d ∧ d ≠ 0 then v else c.pv i
  tags : ∀ i, i < 8 → c'.tagOfP i = if i = d ∧ d ≠ 0 then tag else c.tagOfP i
  rest : c' = { c with pc := c'.pc, stall := none, sig := c'.sig, sigShadow := c'.sigShadow, p := c'.p, tagP := c'.tagP }

/-- From core state `c` to `c'`, vector register `d` takes lanes `v` and tag `tag`, and nothing of the core but its pc and
signatures changes beside. -/
structure WritesVec (c c' : Core) (d : BitVec 5) (v : List Word) (tag : Bool) : Prop where
  values : ∀ r, c'.vv r = if r = d then v else c.vv r
  tags : ∀ r, c'.tagOfV r = if r = d then tag else c.tagOfV r
  rest : c' = { c with pc := c'.pc, stall := none, sig := c'.sig, sigShadow := c'.sigShadow, v := c'.v, tagV := c'.tagV }

/-- Nothing of a core changes from `c` to `c'` but its pc and signatures: it waits at issue no longer. -/
def OnlyPc (c c' : Core) : Prop := c' = { c with pc := c'.pc, stall := none, sig := c'.sig, sigShadow := c'.sigShadow }

/-- Between `s` and `t` only core `k`'s record, the registers at `offs`, the count of free values drawn and bytes of module
memory in `[lo, lo + n)` may differ. -/
structure OnlyCoreMem (s t : State) (k : CoreId) (offs : List Nat) (lo n : Nat) : Prop where
  rest : t = { s with cores := t.cores, regs := t.regs, freeCtr := t.freeCtr, mem := { s.mem with cells := t.mem.cells } }
  cores : ∀ j, j ≠ k.toNat → t.core j = s.core j
  regs : ∀ q : Reg, q.off ∉ offs → t.rd q = s.rd q
  bytes : ∀ x, x < lo ∨ lo + n ≤ x → Cells.get t.mem.cells x = Cells.get s.mem.cells x

/-- The numeric registers that VEC and MAT instructions of core `k` change. -/
def numOffs (k : CoreId) : List Nat :=
  [R.NUM_FLAGS k.toNat, R.NUM_LAST k.toNat, R.NUM_CNT_SAT k.toNat, R.NUM_CNT_FLUSH k.toNat, R.NUM_CNT_NAN k.toNat,
    R.NUM_CNT_RETRY k.toNat, R.NUM_PFLAGS k.toNat, R.NUM_PCNT_SAT k.toNat, R.NUM_PCNT_FLUSH k.toNat, R.NUM_PCNT_NAN k.toNat,
    R.NUM_PCNT_RETRY k.toNat].map (·.off)

/-- The events `e` of an instruction of core `k` are in NUM_LAST and have joined its final counts and flags, or the shadow
ones where its result is tagged (R318, R319). -/
structure NumCounted (s t : State) (k : CoreId) (tag : Bool) (e : NumEv) : Prop where
  last : t.rd (R.NUM_LAST k.toNat) = min e.sat 255 + 2 ^ 8 * min e.flush 255 + 2 ^ 16 * min e.nan 255 + 2 ^ 24 * min e.retry 4
  final : ∀ p ∈ [(F.NUM_CNT_SAT_count k.toNat, e.sat), (F.NUM_CNT_FLUSH_count k.toNat, e.flush),
      (F.NUM_CNT_NAN_count k.toNat, e.nan), (F.NUM_CNT_RETRY_count k.toNat, e.retry)],
    t.get p.1 = if tag then s.get p.1 else min (s.get p.1 + p.2) 0xFFFFFFFF
  shadow : ∀ p ∈ [(F.NUM_PCNT_SAT_count k.toNat, e.sat), (F.NUM_PCNT_FLUSH_count k.toNat, e.flush),
      (F.NUM_PCNT_NAN_count k.toNat, e.nan), (F.NUM_PCNT_RETRY_count k.toNat, e.retry)],
    t.get p.1 = if tag then min (s.get p.1 + p.2) 0xFFFFFFFF else s.get p.1
  flags : t.rd (R.NUM_FLAGS k.toNat) =
    if tag then s.rd (R.NUM_FLAGS k.toNat) else Nat.lor (s.rd (R.NUM_FLAGS k.toNat)) e.flags % 2 ^ 32
  pflags : t.rd (R.NUM_PFLAGS k.toNat) =
    if tag then Nat.lor (s.rd (R.NUM_PFLAGS k.toNat)) e.flags % 2 ^ 32 else s.rd (R.NUM_PFLAGS k.toNat)

/-- A store of tagged data to scratchpad bytes `off` to `off + n - 1` of core `k` lies in its quarantine area (R267). -/
def QuarantineOk (s : State) (k : CoreId) (tag : Bool) (off n : Nat) : Prop :=
  tag = true → ∀ x, off ≤ x → x < off + n →
    s.getA (F.CORE_QUAR_base k.toNat) ≤ x / 64 ∧ x / 64 < s.getA (F.CORE_QUAR_base k.toNat) + s.getA (F.CORE_QUAR_lines k.toNat)

/-- No granule of module memory has an error. -/
def NoErrors (s : State) : Prop := s.mem.bad = []

/-- Byte `x` of core `k`'s scratchpad. -/
def spByte (s : State) (k : CoreId) (x : Nat) : Byte := Cells.get s.mem.cells (spBase k.toNat + x)

/-- Some byte of a scratchpad range lies in a line that carries a tag. -/
def rangeTag (c : Core) (off n : Nat) : Bool := (List.range n).any fun i => c.tagL.contains ((off + i) / 64)

/-- SR instructions of Table 6-5 that write a scalar register from two, with what they write. -/
def scalarThree : List ((CoreId → BitVec 3 → BitVec 5 → BitVec 5 → BitVec 5 → Instr) × (DWord → DWord → DWord)) :=
  [(Instr.add, fun a b => a + b), (Instr.sub, fun a b => a - b), (Instr.andR, fun a b => a &&& b),
    (Instr.orR, fun a b => a ||| b), (Instr.xorR, fun a b => a ^^^ b),
    (Instr.shl, fun a b => a <<< (b.toNat % 64)), (Instr.shr, fun a b => a >>> (b.toNat % 64)),
    (Instr.sra, fun a b => BitVec.ofInt 64 (a.toInt / (2 ^ (b.toNat % 64) : Nat))), (Instr.mul, fun a b => a * b),
    (Instr.mulh, fun a b => BitVec.ofInt 64 (a.toInt * b.toInt / 2 ^ 64)),
    (Instr.mulhu, fun a b => BitVec.ofNat 64 (a.toNat * b.toNat / 2 ^ 64)),
    (Instr.div, fun a b => if b = 0 then BitVec.allOnes 64 else BitVec.ofInt 64 (a.toInt.tdiv b.toInt)),
    (Instr.divu, fun a b => if b = 0 then BitVec.allOnes 64 else BitVec.ofNat 64 (a.toNat / b.toNat)),
    (Instr.rem, fun a b => if b = 0 then a else BitVec.ofInt 64 (a.toInt - b.toInt * a.toInt.tdiv b.toInt)),
    (Instr.remu, fun a b => if b = 0 then a else BitVec.ofNat 64 (a.toNat % b.toNat)),
    (Instr.minR, fun a b => BitVec.ofInt 64 (min a.toInt b.toInt)),
    (Instr.maxR, fun a b => BitVec.ofInt 64 (max a.toInt b.toInt)),
    (Instr.minu, fun a b => BitVec.ofNat 64 (min a.toNat b.toNat)),
    (Instr.maxu, fun a b => BitVec.ofNat 64 (max a.toNat b.toNat))]

/-- SI instructions of Table 6-6 that write a scalar register from one and the sign-extended immediate. -/
def scalarImm : List ((CoreId → BitVec 3 → BitVec 5 → BitVec 5 → BitVec 12 → Instr) × (DWord → DWord → DWord)) :=
  [(Instr.addi, fun a i => a + i), (Instr.andi, fun a i => a &&& i), (Instr.ori, fun a i => a ||| i),
    (Instr.xori, fun a i => a ^^^ i)]

/-- SI shifts of Table 6-6, by an amount below 64. -/
def scalarShift : List ((CoreId → BitVec 3 → BitVec 5 → BitVec 5 → BitVec 12 → Instr) × (DWord → Nat → DWord)) :=
  [(Instr.shli, fun a n => a <<< n), (Instr.shri, fun a n => a >>> n),
    (Instr.srai, fun a n => BitVec.ofInt 64 (a.toInt / (2 ^ n : Nat)))]

/-- Comparisons of Table 6-5. -/
def scalarCompare : List ((CoreId → BitVec 3 → BitVec 5 → BitVec 5 → BitVec 5 → Instr) × (DWord → DWord → Bool)) :=
  [(Instr.seq, fun a b => decide (a = b)), (Instr.slt, fun a b => decide (a.toInt < b.toInt)),
    (Instr.sltu, fun a b => decide (a.toNat < b.toNat))]

/-- Comparisons of Table 6-6 with the sign-extended immediate. -/
def scalarCompareImm : List ((CoreId → BitVec 3 → BitVec 5 → BitVec 5 → BitVec 12 → Instr) × (DWord → DWord → Bool)) :=
  [(Instr.seqi, fun a b => decide (a = b)), (Instr.slti, fun a b => decide (a.toInt < b.toInt)),
    (Instr.sltui, fun a b => decide (a.toNat < b.toNat))]

/-- Predicate logic of Table 6-5 on two predicates. -/
def predLogic : List ((CoreId → BitVec 3 → BitVec 5 → BitVec 5 → BitVec 5 → Instr) × (Bool → Bool → Bool)) :=
  [(Instr.pand, fun x y => x && y), (Instr.por, fun x y => x || y)]

/-- Loads of Table 6-7: how many bytes, and whether their value is sign-extended. -/
def scalarLoads : List ((CoreId → BitVec 3 → BitVec 5 → BitVec 5 → BitVec 12 → Instr) × Nat × Bool) :=
  [(Instr.ld8u, 1, false), (Instr.ld16u, 2, false), (Instr.ld32u, 4, false), (Instr.ld64, 8, false),
    (Instr.ld8s, 1, true), (Instr.ld16s, 2, true), (Instr.ld32s, 4, true)]

/-- Stores of Table 6-7: how many bytes. -/
def scalarStores : List ((CoreId → BitVec 3 → BitVec 5 → BitVec 5 → BitVec 12 → Instr) × Nat) :=
  [(Instr.st8, 1), (Instr.st16, 2), (Instr.st32, 4), (Instr.st64, 8)]

/-- A little-endian value of `n` bytes, zero- or sign-extended to 64 bits. -/
def extend (signed : Bool) (n v : Nat) : DWord :=
  if signed && decide (2 ^ (8 * n - 1) ≤ v) then BitVec.ofInt 64 ((v : Int) - 2 ^ (8 * n)) else BitVec.ofNat 64 v


/-- Table 6-3: the numbers of CSRs with the value each reads, but for the heat of a core that no heat owns, which the spec
leaves open. -/
def csrWords (s : State) (k : CoreId) : List (Nat × Nat) :=
  let c := s.core k.toNat
  [(0x000, k.toNat), (0x002, (s.rankOf k.toNat).getD 0xFFFFFFFF), (0x003, s.lap.toNat), (0x004, c.posCap),
    (0x005, c.recallFlag.toNat + 2 * c.lateWait.toNat + 4 * c.replayed.toNat), (0x006, c.opNext),
    (0x007, c.cq.length % 64 + 2 ^ 8 * min 8 c.hq.length + 2 ^ 12 * (c.rq.length % 128)),
    (0x008, s.rd (R.CORE_LATE k.toNat)), (0x009, c.prov % 16 + 16 * c.anyTag.toNat),
    (0x00A, match c.ckpt with | some pc => pc.toNat + 2 ^ 31 | none => 0),
    (0x010, s.rd (R.NUM_CFG k.toNat)), (0x011, s.rd (R.NUM_FLAGS k.toNat)), (0x012, s.rd (R.NUM_SEED k.toNat)),
    (0x013, s.rd (R.NUM_LAST k.toNat)), (0x014, s.rd (R.NUM_CNT_SAT k.toNat)), (0x015, s.rd (R.NUM_CNT_FLUSH k.toNat)),
    (0x016, s.rd (R.NUM_CNT_NAN k.toNat)), (0x017, s.rd (R.NUM_CNT_RETRY k.toNat)), (0x018, s.rd (R.NUM_PFLAGS k.toNat)),
    (0x019, s.rd (R.NUM_PCNT_SAT k.toNat)), (0x01A, s.rd (R.NUM_PCNT_FLUSH k.toNat)), (0x01B, s.rd (R.NUM_PCNT_NAN k.toNat)),
    (0x01C, s.rd (R.NUM_PCNT_RETRY k.toNat))] ++
    (match s.coreOwner k.toNat with | some h => [(0x001, h)] | none => [])

/-- A lane operation on bits: no event. -/
def bitLane (f : Word → Word → Word) (_z : Bool) (x y : Word) : Word × NumEv := (f x y, NumEv.none)

/-- Two-source vector instructions with a strict bit that has a meaning (Table 6-10), and the lane operation under
NUM_CFG.ftz32. -/
def vecTwo : List ((CoreId → BitVec 3 → Bool → BitVec 5 → BitVec 5 → BitVec 5 → Instr) × Bool ×
    (Bool → Word → Word → Word × NumEv)) :=
  [(Instr.vadd, false, fun z => fast2 z FV.add), (Instr.vadd, true, fun _ => strictAdd),
    (Instr.vsub, false, fun z => fast2 z fun x y => FV.add x (FV.neg y)), (Instr.vsub, true, fun _ => strictSub),
    (Instr.vmul, false, fun z => fast2 z FV.mul), (Instr.vmul, true, fun _ => strictMul),
    (Instr.vmax, false, fun z => fast2 z maxV), (Instr.vmin, false, fun z => fast2 z minV),
    (Instr.vdiv, true, fun _ => strictDiv), (Instr.vcmpeq, false, fun z => fastCmp z FV.eqv),
    (Instr.vcmplt, false, fun z => fastCmp z FV.lt), (Instr.vand, false, bitLane fun x y => x &&& y),
    (Instr.vor, false, bitLane fun x y => x ||| y), (Instr.vxor, false, bitLane fun x y => x ^^^ y)]

/-- One-source vector instructions. -/
def vecOne : List ((CoreId → BitVec 3 → Bool → BitVec 5 → BitVec 5 → Instr) × Bool × (Bool → Word → Word × NumEv)) :=
  [(Instr.vabs, false, fun _ x => (x &&& 0x7FFFFFFF, NumEv.none)), (Instr.vneg, false, fun _ x => (x ^^^ 0x80000000, NumEv.none)),
    (Instr.vexp2, false, fun z => fast1 z exp2V), (Instr.vexp2, true, fun _ => strictExp2),
    (Instr.vlog2, false, fun z => fast1 z log2V), (Instr.vlog2, true, fun _ => strictLog2),
    (Instr.vsqrt, true, fun _ => strictSqrt)]

/-- Three-source vector instructions. -/
def vecThree : List ((CoreId → BitVec 3 → Bool → BitVec 5 → BitVec 5 → BitVec 5 → BitVec 5 → Instr) × Bool ×
    (Bool → Word → Word → Word → Word × NumEv)) :=
  [(Instr.vfma, false, fastFma), (Instr.vfma, true, fun _ => strictFma),
    (Instr.vsel, false, fun _ x y z => (if z ≠ 0 then x else y, NumEv.none))]

/-- A level of the canonical pairwise order on lanes with their events (R243). -/
def pairLevel (f : Word → Word → Word × NumEv) : List (Word × NumEv) → List (Word × NumEv)
  | x :: y :: l => ((f x.1 y.1).1, (x.2.join y.2).join (f x.1 y.1).2) :: pairLevel f l
  | l => l

/-! ### Terms of the claims about console commands -/

/-- Table 17-1: the verb and object of each console command, `claim force=1` and the recognised `stop` apart. -/
def VerbRow (v o : String) (c : Line → Instr) : Prop :=
  (v, o, c) ∈ ([("baton", "show", Instr.batonShow), ("baton", "topo", Instr.batonTopo), ("baton", "retrain", Instr.batonRetrain),
   ("baton", "eq", Instr.batonEq), ("baton", "set", Instr.batonSet), ("baton", "enable", Instr.batonEnable),
   ("claim", "", Instr.claimCmd), ("unclaim", "", Instr.unclaim), ("get", "reg", Instr.getReg),
   ("get", "session", Instr.getSession), ("halyard", "show", Instr.halyardShow),
   ("halyard", "counters", Instr.halyardCounters), ("heat", "show", Instr.heatShow),
   ("heat", "set", Instr.heatSet), ("heat", "reset", Instr.heatReset), ("heat", "commit", Instr.heatCommit)] ++
  [("heat", "recall", Instr.heatRecall), ("heat", "start", Instr.heatStart), ("help", "", Instr.helpCmd),
   ("hold", "", Instr.holdCmd), ("hold", "release", Instr.holdRelease), ("image", "show", Instr.imageShow),
   ("image", "load", Instr.imageLoad), ("journal", "", Instr.journalCmd), ("journal", "show", Instr.journalShow),
   ("journal", "clear", Instr.journalClear), ("kv", "show", Instr.kvShow), ("lap", "status", Instr.lapStatus),
   ("lap", "counters", Instr.lapCounters), ("lap", "set", Instr.lapSet), ("lap", "out", Instr.lapOut),
   ("lap", "realign", Instr.lapRealign)] ++
  [("lap", "pacer adopt", Instr.lapPacerAdopt), ("log", "", Instr.logCmd), ("marshal", "show", Instr.marshalShow),
   ("marshal", "lock", Instr.marshalLock), ("marshal", "service", Instr.marshalService),
   ("marshal", "inject", Instr.marshalInject), ("marshal", "restore", Instr.marshalRestore),
   ("mesh", "show", Instr.meshShow), ("mesh", "dist", Instr.meshDist), ("mesh", "slot", Instr.meshSlot),
   ("mesh", "late", Instr.meshLate), ("num", "show", Instr.numShow), ("num", "cfg", Instr.numCfg),
   ("num", "seed", Instr.numSeed), ("num", "clear", Instr.numClear), ("power", "show", Instr.powerShow)] ++
  [("power", "clock", Instr.powerClock), ("reboot", "", Instr.rebootCmd), ("set", "reg", Instr.setReg),
   ("set", "session", Instr.setSession), ("status", "", Instr.statusCmd), ("status", "fence", Instr.statusFence),
   ("stop", "", Instr.stopCmd), ("team", "show", Instr.teamShow), ("team", "tail", Instr.teamTail),
   ("team", "set", Instr.teamSet), ("thermal", "show", Instr.thermalShow), ("thermal", "warn", Instr.thermalWarn),
   ("update", "show", Instr.updateShow), ("update", "begin", Instr.updateBegin),
   ("update", "data", Instr.updateData), ("update", "end", Instr.updateEnd)] ++
  [("update", "apply", Instr.updateApply)] : List (String × String × (Line → Instr)))

/-- Line `l` of an open session is executed here as a command of the kind `c`: the state admits it, its arguments parse
to `a` with every required key, it is no repetition of a line answered before, and its session holds the claim where the
command needs it (Table 16-6, R679, R685). -/
structure Admitted (s : State) (l : Line) (c : Cmd) (a : Args) : Prop where
  opened : (s.session l.sess.val).isSome = true
  here : s.elsewhere l = none
  fresh : c.classC = true → s.keptFor l = none
  mode : s.cmode ∈ c.modes
  args : parseArgs c.keys [] 16 l.args = .ok a
  needed : ∀ k ∈ c.req, a.has k = true
  claimed : c.classC = true → s.cmode ∉ c.anyIn → s.con.claim = some l.sess.val

/-- The state in which a line's session waits for its answer (R690, R691). -/
def State.begun (s : State) (l : Line) : State := s.modSession l.sess.val fun x => { x with line := some l }

/-- Commands of class C that take no part in the exceptions of R685, with their arguments. -/
def ClaimedRow (f : Line → Instr) (c : Cmd) : Prop :=
  (f, c) ∈ ([(Instr.lapSet, cmdC [("role", Form.word ["follower", "eligible", "forced"]), ("pri", .num 0 15 1), ("ref", .num 0 1 1)] []),
   (Instr.lapOut, cmdC [("en", .num 0 1 1), ("div", .num 0 12 1)] []), (Instr.lapRealign, cmdC [] []),
   (Instr.heatCommit, cmdC [heatKey] ["id"]), (Instr.heatStart, cmdC [heatKey, ("at", .lap), ("resume", .num 0 1 1)] ["id", "at"]),
   (Instr.heatRecall, cmdC [heatKey, ("at", .lap)] ["id"]), (Instr.heatReset, cmdC [heatKey] ["id"]),
   (Instr.heatSet, cmdC heatSetKeys ["id"]), (Instr.imageLoad, cmdC [("addr", Form.num 0 (p2 64) 32), ("len", .num 256 (p2 32) 1)] ["addr", "len"]),
   (Instr.marshalService, cmdC [("on", .num 0 1 1)] ["on"]), (Instr.marshalLock, cmdC [("persist", .num 0 1 1)] []),
   (Instr.marshalRestore, cmdC [("region", .num 0 255 1)] ["region"])] ++
  [(Instr.batonRetrain, cmdC [("port", .list 0 11 true)] ["port"]), (Instr.batonEq, cmdC [("port", .list 0 11 true), ("preset", .num 0 11 1)] ["port", "preset"]),
   (Instr.batonSet, cmdC [("blat", .num 256 1792 1), ("ue_down", .num 0 255 1)] []),
   (Instr.batonEnable, cmdC [("port", .list 0 11 true), ("en", .num 0 1 1), ("auto", .num 0 1 1)] ["port", "en"]),
   (Instr.numSeed, cmdC [("core", .list 0 2047 true), ("seed", .num 0 (p2 32 - 1) 1)] ["core", "seed"]), (Instr.numClear, cmdC [("core", .list 0 2047 true)] ["core"]),
   (Instr.powerClock, cmdC [("region", Form.list 0 255 true), ("mhz", .num 800 1800 10)] ["region", "mhz"]), (Instr.thermalWarn, cmdC [("t", .num 80 105 1)] ["t"]),
   (Instr.setReg, cmdC [("reg", Form.name), ("value", .sgn (-(p2 63 : Nat)) (p2 64 : Nat)), ("field", .name), ("persist", .num 0 1 1)] ["reg", "value"])] : List ((Line → Instr) × Cmd))

/-- A class R command: where `ok` holds of its arguments and the state, it answers with the data lines `d` and `OK`, and
changes nothing else (R681, R691). -/
def Shows (f : Line → Instr) (c : Cmd) (ok : Args → State → Prop) (d : Args → State → List String) : Prop :=
  ∀ s l a b, Admitted s l c a → b = s.begun l → ok a b → exec (f l) s = .next (b.ok l (d a b))

/-- A class C command: where `ok` holds of its arguments and the state, it acts, comes to a state `t` of which `post` holds,
and answers with data lines and `OK`. -/
def Acts (f : Line → Instr) (c : Cmd) (ok : Args → State → Prop) (post : Args → State → State → List String → Prop) : Prop :=
  ∀ s l a b, Admitted s l c a → b = s.begun l → ok a b → ∃ t ds, exec (f l) s = .next (t.okC l ds) ∧ post a b t ds

/-- A class C command: where `bad` holds, it is answered with the error `e`, and changes nothing else. -/
def Turned (f : Line → Instr) (c : Cmd) (bad : Args → State → Prop) (e : String) : Prop :=
  ∀ s l a b, Admitted s l c a → b = s.begun l → bad a b → exec (f l) s = .next (b.replyC l [] ("ERR " ++ e))

/-- A field after a command that sets it to the value of key `k`, where that is given. -/
def Taken (a : Args) (k : String) (f : Fld) (s t : State) : Prop := t.get f = (a.nat? k).getD (s.get f) % 2 ^ f.n

/-- Between `s` and `t` only the registers at `offs` may differ. -/
structure OnlyRegs (s t : State) (offs : List Nat) : Prop where
  rest : t = { s with regs := t.regs }
  regs : ∀ q : Reg, q.off ∉ offs → t.rd q = s.rd q

end Sys2Proof.Machine
end

