-- ==== Sys2Proof/Certificates/Slice0/Obligations.lean ====
section
/-! DEFINITION. The statements about the model, for the provers: one `def` per obligation, in terms of `exec`, `step`
and the terms of Safety. -/

open Sys2Proof Sys2Proof.Machine

/-- Every instruction of Tables 6-5 and 6-6 that writes a scalar register (ADD to MAXU, ADDI to XORI, SHLI to SRAI
with imm[11:6] zero, LI, LIS with a[4] zero), when it issues, completes: d takes the table's value, s0 discarding it,
d's tag is the or of the tags of what the instruction reads and of its guard, the core retires it and goes on at pc +
4, and nothing else of the module changes. -/
def Obligations.ScalarArithmetic : Prop :=
  (∀ p ∈ scalarThree, ∀ k g d a b s, Issues s k g → ∃ t, exec (p.1 k g d a b) s = .next t ∧
    Retired s t k (p.1 k g d a b) ((s.core k.toNat).pc + 4) ∧ OnlyCore s t k [retireOff k] ∧
    WritesScalar (s.core k.toNat) (t.core k.toNat) d (p.2 ((s.core k.toNat).sv a) ((s.core k.toNat).sv b))
      ((s.core k.toNat).tagOfP g.toNat || (s.core k.toNat).tagOfS a || (s.core k.toNat).tagOfS b)) ∧
  (∀ p ∈ scalarImm, ∀ k g d a imm s, Issues s k g → ∃ t, exec (p.1 k g d a imm) s = .next t ∧
    Retired s t k (p.1 k g d a imm) ((s.core k.toNat).pc + 4) ∧ OnlyCore s t k [retireOff k] ∧
    WritesScalar (s.core k.toNat) (t.core k.toNat) d (p.2 ((s.core k.toNat).sv a) (BitVec.ofInt 64 imm.toInt))
      ((s.core k.toNat).tagOfP g.toNat || (s.core k.toNat).tagOfS a)) ∧
  (∀ p ∈ scalarShift, ∀ k g d a imm s, Issues s k g → imm.toNat < 64 → ∃ t, exec (p.1 k g d a imm) s = .next t ∧
    Retired s t k (p.1 k g d a imm) ((s.core k.toNat).pc + 4) ∧ OnlyCore s t k [retireOff k] ∧
    WritesScalar (s.core k.toNat) (t.core k.toNat) d (p.2 ((s.core k.toNat).sv a) imm.toNat)
      ((s.core k.toNat).tagOfP g.toNat || (s.core k.toNat).tagOfS a)) ∧
  (∀ k g d a imm s, Issues s k g → ∃ t, exec (.li k g d a imm) s = .next t ∧
    Retired s t k (.li k g d a imm) ((s.core k.toNat).pc + 4) ∧ OnlyCore s t k [retireOff k] ∧
    WritesScalar (s.core k.toNat) (t.core k.toNat) d (BitVec.ofInt 64 (a ++ imm).toInt) ((s.core k.toNat).tagOfP g.toNat)) ∧
  ∀ k g d a imm s, Issues s k g → a.toNat < 16 → ∃ t, exec (.lis k g d a imm) s = .next t ∧
    Retired s t k (.lis k g d a imm) ((s.core k.toNat).pc + 4) ∧ OnlyCore s t k [retireOff k] ∧
    WritesScalar (s.core k.toNat) (t.core k.toNat) d ((s.core k.toNat).sv d * 65536 + BitVec.ofNat 64 (a.toNat * 4096 + imm.toNat))
      ((s.core k.toNat).tagOfP g.toNat || (s.core k.toNat).tagOfS d)

/-- Every instruction of Tables 6-5 and 6-6 that writes a predicate (SEQ, SLT, SLTU, SEQI, SLTI, SLTUI, PAND, POR,
PNOT), when it issues with d[4:3] zero, completes: predicate d takes the table's value, p0 discarding it, with the
tags of what it reads and of its guard, and nothing else of the module changes but the core's pc, signatures and count
of retired instructions. -/
def Obligations.PredicateResults : Prop :=
  (∀ p ∈ scalarCompare, ∀ k g d a b s, Issues s k g → d.toNat < 8 → ∃ t, exec (p.1 k g d a b) s = .next t ∧
    Retired s t k (p.1 k g d a b) ((s.core k.toNat).pc + 4) ∧ OnlyCore s t k [retireOff k] ∧
    WritesPred (s.core k.toNat) (t.core k.toNat) d.toNat (p.2 ((s.core k.toNat).sv a) ((s.core k.toNat).sv b))
      ((s.core k.toNat).tagOfP g.toNat || (s.core k.toNat).tagOfS a || (s.core k.toNat).tagOfS b)) ∧
  (∀ p ∈ scalarCompareImm, ∀ k g d a imm s, Issues s k g → d.toNat < 8 → ∃ t, exec (p.1 k g d a imm) s = .next t ∧
    Retired s t k (p.1 k g d a imm) ((s.core k.toNat).pc + 4) ∧ OnlyCore s t k [retireOff k] ∧
    WritesPred (s.core k.toNat) (t.core k.toNat) d.toNat (p.2 ((s.core k.toNat).sv a) (BitVec.ofInt 64 imm.toInt))
      ((s.core k.toNat).tagOfP g.toNat || (s.core k.toNat).tagOfS a)) ∧
  (∀ p ∈ predLogic, ∀ k g d a b s, Issues s k g → d.toNat < 8 → ∃ t, exec (p.1 k g d a b) s = .next t ∧
    Retired s t k (p.1 k g d a b) ((s.core k.toNat).pc + 4) ∧ OnlyCore s t k [retireOff k] ∧
    WritesPred (s.core k.toNat) (t.core k.toNat) d.toNat (p.2 ((s.core k.toNat).pv (a.toNat % 8)) ((s.core k.toNat).pv (b.toNat % 8)))
      ((s.core k.toNat).tagOfP g.toNat || (s.core k.toNat).tagOfP (a.toNat % 8) || (s.core k.toNat).tagOfP (b.toNat % 8))) ∧
  ∀ k g d a s, Issues s k g → d.toNat < 8 → ∃ t, exec (.pnot k g d a) s = .next t ∧
    Retired s t k (.pnot k g d a) ((s.core k.toNat).pc + 4) ∧ OnlyCore s t k [retireOff k] ∧
    WritesPred (s.core k.toNat) (t.core k.toNat) d.toNat (!(s.core k.toNat).pv (a.toNat % 8))
      ((s.core k.toNat).tagOfP g.toNat || (s.core k.toNat).tagOfP (a.toNat % 8))

/-- LD8U, LD16U, LD32U, LD64, LD8S, LD16S, LD32S and TLD, when they issue with a naturally aligned range inside the
scratchpad at a + sext(imm), complete: d (or descriptor d[3:0], d[4] being zero) takes the little-endian bytes there,
extended as the table says, tagged as the address, the lines and the guard are; nothing else of the module changes but
retirement and what the memory errors do that the read meets: it corrects the correctable ones first (readFirst) and
records what it found at its end (readFound); where no granule has an error both change nothing. -/
def Obligations.ScratchpadLoads : Prop :=
  (∀ p ∈ scalarLoads, ∀ k g d a imm s, Issues s k g →
    ∀ off, off = ((s.core k.toNat).sv a + BitVec.ofInt 64 imm.toInt).toNat → off % p.2.1 = 0 → off + p.2.1 ≤ 0xC0000 →
    ∃ u w, encodeCore (p.1 k g d a imm) = some (k, w) ∧ exec (p.1 k g d a imm) s = .next (u.readFound s k.toNat w) ∧
      (NoErrors s → s.readFirst k.toNat w = s ∧ u.readFound s k.toNat w = u) ∧
      Retired s u k (p.1 k g d a imm) ((s.core k.toNat).pc + 4) ∧ OnlyCore (s.readFirst k.toNat w) u k [retireOff k] ∧
      WritesScalar (s.core k.toNat) (u.core k.toNat) d
        (extend p.2.2 p.2.1 (leNat ((List.range p.2.1).map fun i => spByte s k (off + i))))
        ((s.core k.toNat).tagOfP g.toNat || (s.core k.toNat).tagOfS a || rangeTag (s.core k.toNat) off p.2.1)) ∧
  ∀ k g d a imm s, Issues s k g → d.toNat < 16 →
    ∀ off, off = ((s.core k.toNat).sv a + BitVec.ofInt 64 imm.toInt).toNat → off % 16 = 0 → off + 16 ≤ 0xC0000 →
    ∃ u w, encodeCore (.tld k g d a imm) = some (k, w) ∧ exec (.tld k g d a imm) s = .next (u.readFound s k.toNat w) ∧
      (NoErrors s → s.readFirst k.toNat w = s ∧ u.readFound s k.toNat w = u) ∧
      Retired s u k (.tld k g d a imm) ((s.core k.toNat).pc + 4) ∧ OnlyCore (s.readFirst k.toNat w) u k [retireOff k] ∧
      (∀ r : BitVec 4, (u.core k.toNat).tv r = if r.toNat = d.toNat
        then BitVec.ofNat 128 (leNat ((List.range 16).map fun i => spByte s k (off + i))) else (s.core k.toNat).tv r) ∧
      OnlyPc { s.core k.toNat with t := (u.core k.toNat).t } (u.core k.toNat)

/-- ST8, ST16, ST32, ST64 and TST, when they issue with a naturally aligned range inside the scratchpad at a +
sext(imm), no granule of which has an error, and, for tagged data, inside the quarantine area, complete: exactly those
bytes of memory take the low bytes of d (of descriptor d[3:0]), little-endian; the lines they lie in take the tag of
tagged data; an open accumulation group whose region they meet becomes undefined; every other byte of memory and
everything else of the module is unchanged but for retirement. -/
def Obligations.ScratchpadStores : Prop :=
  (∀ p ∈ scalarStores, ∀ k g d a imm s, Issues s k g → s.memWf →
    ∀ off tag, off = ((s.core k.toNat).sv a + BitVec.ofInt 64 imm.toInt).toNat →
      tag = ((s.core k.toNat).tagOfP g.toNat || (s.core k.toNat).tagOfS a || (s.core k.toNat).tagOfS d) →
      off % p.2 = 0 → off + p.2 ≤ 0xC0000 → QuarantineOk s k tag off p.2 → s.badIn (spBase k.toNat + off) p.2 = [] →
    ∃ t, exec (p.1 k g d a imm) s = .next t ∧ Retired s t k (p.1 k g d a imm) ((s.core k.toNat).pc + 4) ∧
      OnlyCoreMem s t k [retireOff k] (spBase k.toNat + off) p.2 ∧ t.freeCtr = s.freeCtr ∧
      (∀ i, i < p.2 → spByte t k (off + i) = BitVec.ofNat 8 (((s.core k.toNat).sv d).toNat / 256 ^ i)) ∧
      (∀ l, l ∈ (t.core k.toNat).tagL ↔ l ∈ (s.core k.toNat).tagL ∨ (tag = true ∧ l = off / 64)) ∧
      (∀ x, (t.core k.toNat).agAt x = ((s.core k.toNat).agAt x).map fun ag =>
        if meets off p.2 (16 * ag.rbase) ag.bytes then { ag with dirty := true } else ag) ∧
      OnlyPc { s.core k.toNat with tagL := (t.core k.toNat).tagL, ag := (t.core k.toNat).ag } (t.core k.toNat)) ∧
  ∀ k g d a imm s, Issues s k g → s.memWf → d.toNat < 16 →
    ∀ off tag, off = ((s.core k.toNat).sv a + BitVec.ofInt 64 imm.toInt).toNat →
      tag = ((s.core k.toNat).tagOfP g.toNat || (s.core k.toNat).tagOfS a) →
      off % 16 = 0 → off + 16 ≤ 0xC0000 → QuarantineOk s k tag off 16 → s.badIn (spBase k.toNat + off) 16 = [] →
    ∃ t, exec (.tst k g d a imm) s = .next t ∧ Retired s t k (.tst k g d a imm) ((s.core k.toNat).pc + 4) ∧
      OnlyCoreMem s t k [retireOff k] (spBase k.toNat + off) 16 ∧ t.freeCtr = s.freeCtr ∧
      (∀ i, i < 16 → spByte t k (off + i) = BitVec.ofNat 8 (((s.core k.toNat).tv (d.setWidth 4)).toNat / 256 ^ i)) ∧
      (∀ l, l ∈ (t.core k.toNat).tagL ↔ l ∈ (s.core k.toNat).tagL ∨ (tag = true ∧ l = off / 64)) ∧
      (∀ x, (t.core k.toNat).agAt x = ((s.core k.toNat).agAt x).map fun ag =>
        if meets off 16 (16 * ag.rbase) ag.bytes then { ag with dirty := true } else ag) ∧
      OnlyPc { s.core k.toNat with tagL := (t.core k.toNat).tagL, ag := (t.core k.toNat).ag } (t.core k.toNat)

/-- CSRR of any number of Table 6-3 or Table 7-8, when it issues, completes: d takes the register's value,
zero-extended, with the tag of the guard (a NUM_ register where no ATTEND of the core is in flight); a read of lap also
captures pos; nothing else changes but retirement. Number 0x00B, cycles, reads the core cycles since the heat's start at
the region's clock. -/
def Obligations.CsrRead : Prop :=
  (∀ k g d imm s, Issues s k g → (0x010 ≤ imm.toNat → (s.core k.toNat).attend = none) → ∀ v, (imm.toNat, v) ∈ csrWords s k →
    ∃ t, exec (.csrr k g d imm) s = .next t ∧ Retired s t k (.csrr k g d imm) ((s.core k.toNat).pc + 4) ∧
      OnlyCore s t k [retireOff k] ∧
      WritesScalar { s.core k.toNat with posCap := if imm.toNat = 3 then s.pos.toNat else (s.core k.toNat).posCap }
        (t.core k.toNat) d (BitVec.ofNat 64 v) ((s.core k.toNat).tagOfP g.toNat)) ∧
  ∀ k g d s, Issues s k g → ∃ t, exec (.csrr k g d 0x00B) s = .next t ∧
      Retired s t k (.csrr k g d 0x00B) ((s.core k.toNat).pc + 4) ∧ OnlyCore s t k [retireOff k] ∧
      WritesScalar (s.core k.toNat) (t.core k.toNat) d
        (BitVec.ofNat 64 ((s.now - (s.core k.toNat).startFc) * Tab.get MeshSt.nominalClk s.mesh.clk (regionOf k.toNat) / 1200))
        ((s.core k.toNat).tagOfP g.toNat)

/-- CSRW, when it issues (to a NUM_ register: where no ATTEND of the core is in flight, else it waits), completes: it
writes the low 32 bits of d to late or to a count, clears the NUM_FLAGS bits that d has at one, writes the fields of
NUM_CFG where passes is not 0, and a write of NUM_SEED reseeds every generator of the core from the seed and the core's
rank, or its id plus 2,048; a write of a read-only CSR changes nothing but retirement. -/
def Obligations.CsrWrite : Prop :=
  ∀ k g d imm s w, Issues s k g → (0x010 ≤ imm.toNat → (s.core k.toNat).attend = none) → w = ((s.core k.toNat).sv d).toNat % 2 ^ 32 →
    (∀ p ∈ [(0x008, R.CORE_LATE k.toNat), (0x014, R.NUM_CNT_SAT k.toNat), (0x015, R.NUM_CNT_FLUSH k.toNat),
        (0x016, R.NUM_CNT_NAN k.toNat), (0x017, R.NUM_CNT_RETRY k.toNat)], imm.toNat = p.1 →
      ∃ t, exec (.csrw k g d imm) s = .next t ∧ Retired s t k (.csrw k g d imm) ((s.core k.toNat).pc + 4) ∧
        OnlyCore s t k [retireOff k, p.2.off] ∧ OnlyPc (s.core k.toNat) (t.core k.toNat) ∧ t.rd p.2 = w) ∧
    (imm.toNat = 0x011 →
      ∃ t, exec (.csrw k g d imm) s = .next t ∧ Retired s t k (.csrw k g d imm) ((s.core k.toNat).pc + 4) ∧
        OnlyCore s t k [retireOff k, (R.NUM_FLAGS k.toNat).off] ∧ OnlyPc (s.core k.toNat) (t.core k.toNat) ∧
        ∀ i, i < 32 → (t.rd (R.NUM_FLAGS k.toNat)).testBit i = ((s.rd (R.NUM_FLAGS k.toNat)).testBit i && !w.testBit i)) ∧
    (imm.toNat = 0x010 → w % 4 ≠ 0 →
      ∃ t, exec (.csrw k g d imm) s = .next t ∧ Retired s t k (.csrw k g d imm) ((s.core k.toNat).pc + 4) ∧
        OnlyCore s t k [retireOff k, (R.NUM_CFG k.toNat).off] ∧ OnlyPc (s.core k.toNat) (t.core k.toNat) ∧
        t.rd (R.NUM_CFG k.toNat) = w % 2 ^ 9) ∧
    (imm.toNat = 0x012 →
      ∃ t, exec (.csrw k g d imm) s = .next t ∧ Retired s t k (.csrw k g d imm) ((s.core k.toNat).pc + 4) ∧
        OnlyCore s t k [retireOff k, (R.NUM_SEED k.toNat).off] ∧ t.rd (R.NUM_SEED k.toNat) = w ∧
        (∀ i, (t.core k.toNat).gen i = genSeed (BitVec.ofNat 32 w) ((s.rankOf k.toNat).getD (k.toNat + 2048)) i) ∧
        OnlyPc { s.core k.toNat with gens := (t.core k.toNat).gens, seed := (t.core k.toNat).seed, genId := (t.core k.toNat).genId } (t.core k.toNat)) ∧
    (imm.toNat ∈ [0, 1, 2, 3, 4, 5, 6, 7, 9, 0x00A, 0x00B, 0x013, 0x018, 0x019, 0x01A, 0x01B, 0x01C] →
      ∃ t, exec (.csrw k g d imm) s = .next t ∧ Retired s t k (.csrw k g d imm) ((s.core k.toNat).pc + 4) ∧
        OnlyCore s t k [retireOff k] ∧ OnlyPc (s.core k.toNat) (t.core k.toNat))

/-- When it issues, BR goes to pc + 4 × sext(imm); CALL also writes pc + 4 to s31; JR goes to a[15:2] × 4; CKPT
records pc + 4 × sext(imm) as the checkpoint; NOP only goes on; FENCE goes on where no earlier instruction still writes
the scratchpad, SYNCU where no ATTEND holds the units, and either waits at issue otherwise; HALT ends the program. Each
retires and changes nothing else of the module. -/
def Obligations.ControlFlow : Prop :=
  (∀ k g imm s, Issues s k g → ∃ t, exec (.br k g imm) s = .next t ∧
    Retired s t k (.br k g imm) (BitVec.ofInt 16 ((s.core k.toNat).pc.toNat + 4 * imm.toInt)) ∧
    OnlyCore s t k [retireOff k] ∧ OnlyPc (s.core k.toNat) (t.core k.toNat)) ∧
  (∀ k g imm s, Issues s k g → ∃ t, exec (.call k g imm) s = .next t ∧
    Retired s t k (.call k g imm) (BitVec.ofInt 16 ((s.core k.toNat).pc.toNat + 4 * imm.toInt)) ∧
    OnlyCore s t k [retireOff k] ∧
    WritesScalar (s.core k.toNat) (t.core k.toNat) 31 (((s.core k.toNat).pc + 4).setWidth 64) ((s.core k.toNat).tagOfP g.toNat)) ∧
  (∀ k g a s, Issues s k g → ∃ t, exec (.jr k g a) s = .next t ∧
    Retired s t k (.jr k g a) (((s.core k.toNat).sv a).setWidth 16 &&& 0xFFFC) ∧
    OnlyCore s t k [retireOff k] ∧ OnlyPc (s.core k.toNat) (t.core k.toNat)) ∧
  (∀ k g imm s, Issues s k g → ∃ t, exec (.ckpt k g imm) s = .next t ∧
    Retired s t k (.ckpt k g imm) ((s.core k.toNat).pc + 4) ∧ OnlyCore s t k [retireOff k] ∧
    OnlyPc { s.core k.toNat with ckpt := some (BitVec.ofInt 16 ((s.core k.toNat).pc.toNat + 4 * imm.toInt)) } (t.core k.toNat)) ∧
  (∀ k g s, ∀ p ∈ [(Instr.nop k g, false), (Instr.fence k g, (s.core k.toNat).writesDue), (Instr.syncu k g, (s.core k.toNat).attend.isSome)],
    Issues s k g →
    (p.2 = false → ∃ t, exec p.1 s = .next t ∧ Retired s t k p.1 ((s.core k.toNat).pc + 4) ∧ OnlyCore s t k [retireOff k] ∧
      OnlyPc (s.core k.toNat) (t.core k.toNat)) ∧
    (p.2 = true → exec p.1 s = .next (s.modCore k.toNat fun c => { c with stall := some (c.stall.getD 0) }))) ∧
  ∀ k g s, Issues s k g → ∃ t, exec (.halt k g) s = .next t ∧
    Retired s t k (.halt k g) ((s.core k.toNat).pc + 4) ∧ OnlyCore s t k [retireOff k] ∧
    OnlyPc { s.core k.toNat with run := .done } (t.core k.toNat)

/-- A WAIT that issues retires and goes on at once where its condition of Table 6-9 holds (a position already passed
also sets late_wait), and otherwise the core waits at pc + 4 for that condition; WAIT_END lets a waiting core issue
again where its condition holds. Nothing else of the module changes. -/
def Obligations.WaitKinds : Prop :=
  (∀ k g a b s fc, Issues s k g →
    fc = ((s.core k.toNat).sv a).toNat % 2 ^ 48 * 2 ^ 18 + ((s.core k.toNat).sv b).toNat % 2 ^ 18 →
    ∃ t, exec (.waitPos k g a b) s = .next t ∧ Retired s t k (.waitPos k g a b) ((s.core k.toNat).pc + 4) ∧
      OnlyCore s t k [retireOff k] ∧
      OnlyPc (if fc < s.now then { s.core k.toNat with lateWait := true } else if fc = s.now then s.core k.toNat
        else { s.core k.toNat with run := .waiting, wait := some (.pos fc), waitFrom := s.now }) (t.core k.toNat)) ∧
  (∀ k g a s, ∀ p ∈ [(Instr.waitCq k g, WaitCond.cq, !(s.core k.toNat).cq.isEmpty),
      (Instr.waitHq k g, WaitCond.hq, !(s.core k.toNat).hq.isEmpty),
      (Instr.waitOp k g a, WaitCond.op (((s.core k.toNat).sv a).toNat % 32),
        (s.core k.toNat).cq.any (fun r => decide (r.toNat % 32 = ((s.core k.toNat).sv a).toNat % 32)) ||
          ((s.core k.toNat).hq.take 8).any fun d => decide (d.op = ((s.core k.toNat).sv a).toNat % 32)),
      (Instr.waitCyc k g a, WaitCond.cyc s.now ((s.core k.toNat).sv a).toNat, decide (((s.core k.toNat).sv a).toNat = 0)),
      (Instr.waitStride k g, WaitCond.stride (s.now / 128 * 128 + 128), false)], Issues s k g →
    ∃ t, exec p.1 s = .next t ∧ Retired s t k p.1 ((s.core k.toNat).pc + 4) ∧ OnlyCore s t k [retireOff k] ∧
      OnlyPc (if p.2.2 then s.core k.toNat else { s.core k.toNat with run := .waiting, wait := some p.2.1, waitFrom := s.now }) (t.core k.toNat)) ∧
  ∀ k s w, (s.core k.toNat).run = .waiting → (s.core k.toNat).wait = some w → s.condMet k.toNat w = true →
    ∃ t, exec (.waitEnd k) s = .next t ∧ OnlyCore s t k [] ∧
      t.core k.toNat = { s.core k.toNat with run := .running, wait := none }

/-- PRES kind 0 on a range of lines in the quarantine area, with fewer than 15 sources open, tags those lines and
opens one source. PRES kind 1 closes one source; closing the last clears every tag of the core and adds the shadow
counts and flags to the final ones. Each retires and changes nothing else. -/
def Obligations.ProvisionalSources : Prop :=
  (∀ k g a b s off n, Issues s k g → off = ((s.core k.toNat).sv a).toNat → n = ((s.core k.toNat).sv b).toNat →
    off < 0xC0000 → off + n ≤ 0xC0000 → QuarantineOk s k true off n → (s.core k.toNat).prov < 15 →
    ∃ t, exec (.presOpen k g a b) s = .next t ∧ Retired s t k (.presOpen k g a b) ((s.core k.toNat).pc + 4) ∧
      OnlyCore s t k [retireOff k] ∧
      (∀ l, l ∈ (t.core k.toNat).tagL ↔ l ∈ (s.core k.toNat).tagL ∨ ∃ x, off ≤ x ∧ x < off + n ∧ l = x / 64) ∧
      OnlyPc { s.core k.toNat with prov := (s.core k.toNat).prov + 1, tagL := (t.core k.toNat).tagL } (t.core k.toNat)) ∧
  (∀ k g s, Issues s k g → (s.core k.toNat).prov ≠ 1 →
    ∃ t, exec (.presClose k g) s = .next t ∧ Retired s t k (.presClose k g) ((s.core k.toNat).pc + 4) ∧
      OnlyCore s t k [retireOff k] ∧ OnlyPc { s.core k.toNat with prov := (s.core k.toNat).prov - 1 } (t.core k.toNat)) ∧
  ∀ k g s, Issues s k g → (s.core k.toNat).prov = 1 →
    ∃ t, exec (.presClose k g) s = .next t ∧ Retired s t k (.presClose k g) ((s.core k.toNat).pc + 4) ∧
      OnlyCore s t k (retireOff k :: numOffs k) ∧
      OnlyPc { s.core k.toNat with prov := 0, tagS := 0, tagP := 0, tagV := 0, tagL := [], ag := (t.core k.toNat).ag } (t.core k.toNat) ∧
      (∀ x, (t.core k.toNat).agAt x = ((s.core k.toNat).agAt x).map fun ag => { ag with tagged := false }) ∧
      t.rd (R.NUM_LAST k.toNat) = s.rd (R.NUM_LAST k.toNat) ∧
      t.rd (R.NUM_FLAGS k.toNat) = Nat.lor (s.rd (R.NUM_FLAGS k.toNat)) (s.rd (R.NUM_PFLAGS k.toNat)) ∧
      t.rd (R.NUM_PFLAGS k.toNat) = 0 ∧
      ∀ p ∈ [(R.NUM_CNT_SAT k.toNat, R.NUM_PCNT_SAT k.toNat), (R.NUM_CNT_FLUSH k.toNat, R.NUM_PCNT_FLUSH k.toNat),
        (R.NUM_CNT_NAN k.toNat, R.NUM_PCNT_NAN k.toNat), (R.NUM_CNT_RETRY k.toNat, R.NUM_PCNT_RETRY k.toNat)],
        t.rd p.1 = min (s.rd p.1 + s.rd p.2) 0xFFFFFFFF ∧ t.rd p.2 = 0

/-- PRES kind 2 of a core that holds a checkpoint, with no memory error recorded: every tagged scalar, predicate and
vector register becomes zero, every tagged scratchpad line becomes zero and every other byte stays, every tagged
accumulation group is dropped and no other, every tag clears, the open count becomes zero, flags.replayed is set,
CORE_CNT_REPLAY rises, and the core continues at the checkpoint; without a checkpoint it traps with cause 9. The costs
in cc are out of the model's scope. -/
def Obligations.ProvisionalDiscard : Prop :=
  (∀ k g s pc, Issues s k g → s.memWf → NoErrors s → (s.core k.toNat).ckpt = some pc →
    ∃ t, exec (.presDiscard k g) s = .next t ∧ Retired s t k (.presDiscard k g) pc ∧
      (∀ r, (t.core k.toNat).sv r = if (s.core k.toNat).tagOfS r then 0 else (s.core k.toNat).sv r) ∧
      (∀ i, 0 < i → i < 8 → (t.core k.toNat).pv i = ((s.core k.toNat).pv i && !(s.core k.toNat).tagOfP i)) ∧
      (∀ r, (t.core k.toNat).vv r = if (s.core k.toNat).tagOfV r then List.replicate 64 0 else (s.core k.toNat).vv r) ∧
      (∀ x, spByte t k x = if x / 64 ∈ (s.core k.toNat).tagL then 0 else spByte s k x) ∧
      (∀ p ∈ (t.core k.toNat).ag, ∃ q ∈ (s.core k.toNat).ag, q.1 = p.1 ∧ q.2.tagged = false) ∧
      (∀ q ∈ (s.core k.toNat).ag, q.2.tagged = false → ∃ p ∈ (t.core k.toNat).ag, p.1 = q.1) ∧
      (t.core k.toNat).anyTag = false ∧ (t.core k.toNat).prov = 0 ∧ (t.core k.toNat).replayed = true ∧
      t.get (F.CORE_CNT_REPLAY_count k.toNat) = min (s.get (F.CORE_CNT_REPLAY_count k.toNat) + 1) 0xFFFFFFFF ∧
      (∀ j, j ≠ k.toNat → t.core j = s.core j)) ∧
  ∀ k g s, Issues s k g → (s.core k.toNat).ckpt = none → exec (.presDiscard k g) s = .next (s.trap k.toNat 9)

/-- VADD, VSUB, VMUL, VFMA (both lanes), VMAX, VMIN, VCMPEQ, VCMPLT, VSEL, VAND, VOR, VXOR (fast path) and VDIV
(strict lane), when they issue, complete: every lane of d is the table's operation on the same lanes of the sources,
tagged as the sources and the guard are, the events of the lanes are counted, and nothing else changes but retirement.
-/
def Obligations.VectorTwoAndThreeSources : Prop :=
  (∀ p ∈ vecTwo, ∀ k g d a b s, IssuesUnit s k g → ∀ tag z,
      tag = ((s.core k.toNat).tagOfP g.toNat || (s.core k.toNat).tagOfV a || (s.core k.toNat).tagOfV b) →
      z = s.on (F.NUM_CFG_ftz32 k.toNat) →
    ∃ t, exec (p.1 k g p.2.1 d a b) s = .next t ∧ Retired s t k (p.1 k g p.2.1 d a b) ((s.core k.toNat).pc + 4) ∧
      OnlyCore s t k (retireOff k :: numOffs k) ∧
      WritesVec (s.core k.toNat) (t.core k.toNat) d
        (List.zipWith (fun x y => (p.2.2 z x y).1) ((s.core k.toNat).vv a) ((s.core k.toNat).vv b)) tag ∧
      NumCounted s t k tag
        (NumEv.all (List.zipWith (fun x y => (p.2.2 z x y).2) ((s.core k.toNat).vv a) ((s.core k.toNat).vv b)))) ∧
  ∀ p ∈ vecThree, ∀ k g d a b c s, IssuesUnit s k g → ∀ tag z,
      tag = ((s.core k.toNat).tagOfP g.toNat || (s.core k.toNat).tagOfV a || (s.core k.toNat).tagOfV b || (s.core k.toNat).tagOfV c) →
      z = s.on (F.NUM_CFG_ftz32 k.toNat) →
    ∃ t, exec (p.1 k g p.2.1 d a b c) s = .next t ∧ Retired s t k (p.1 k g p.2.1 d a b c) ((s.core k.toNat).pc + 4) ∧
      OnlyCore s t k (retireOff k :: numOffs k) ∧
      WritesVec (s.core k.toNat) (t.core k.toNat) d
        ((lanes3 (p.2.2 z) ((s.core k.toNat).vv a) ((s.core k.toNat).vv b) ((s.core k.toNat).vv c)).map (·.1)) tag ∧
      NumCounted s t k tag
        (NumEv.all ((lanes3 (p.2.2 z) ((s.core k.toNat).vv a) ((s.core k.toNat).vv b) ((s.core k.toNat).vv c)).map (·.2)))

/-- VABS, VNEG, VEXP2, VLOG2 and VSQRT, when they issue, complete with every lane of d the table's operation on that
lane of a; VSUM and VRMAX complete with lane 0 the reduction of the lanes of a in six levels of canonical pairwise
order and the other lanes +0; d is tagged as a and the guard are, the events are counted, and nothing else changes but
retirement. -/
def Obligations.VectorOneSourceAndReductions : Prop :=
  (∀ p ∈ vecOne, ∀ k g d a s, IssuesUnit s k g → ∀ tag z,
      tag = ((s.core k.toNat).tagOfP g.toNat || (s.core k.toNat).tagOfV a) → z = s.on (F.NUM_CFG_ftz32 k.toNat) →
    ∃ t, exec (p.1 k g p.2.1 d a) s = .next t ∧ Retired s t k (p.1 k g p.2.1 d a) ((s.core k.toNat).pc + 4) ∧
      OnlyCore s t k (retireOff k :: numOffs k) ∧
      WritesVec (s.core k.toNat) (t.core k.toNat) d (((s.core k.toNat).vv a).map fun x => (p.2.2 z x).1) tag ∧
      NumCounted s t k tag (NumEv.all (((s.core k.toNat).vv a).map fun x => (p.2.2 z x).2))) ∧
  ∀ p ∈ [(Instr.vsum, fun z => fast2 z FV.add), (Instr.vrmax, fun z => fast2 z maxV)], ∀ k g d a s, IssuesUnit s k g → ∀ tag r,
      tag = ((s.core k.toNat).tagOfP g.toNat || (s.core k.toNat).tagOfV a) →
      r = (Nat.repeat (pairLevel (p.2 (s.on (F.NUM_CFG_ftz32 k.toNat)))) 6
        (((s.core k.toNat).vv a).map fun w => (w, NumEv.none))).headD (0, NumEv.none) →
    ∃ t, exec (p.1 k g false d a) s = .next t ∧ Retired s t k (p.1 k g false d a) ((s.core k.toNat).pc + 4) ∧
      OnlyCore s t k (retireOff k :: numOffs k) ∧
      WritesVec (s.core k.toNat) (t.core k.toNat) d (r.1 :: List.replicate 63 0) tag ∧ NumCounted s t k tag r.2

/-- VBC writes bits [31:0] of a scalar register to every lane; VEXT writes lane (s[b] mod 64) of a, zero-extended, to
scalar register d; VLD and VST move 256 bytes, 64-byte aligned, between scratchpad offset s[a] and vector register d,
four bytes a lane, little-endian (for VST as many bytes as the register has lanes, 64 lanes being 256). Tags,
retirement and numeric counts (no event) follow, and nothing else changes: for VST no byte of memory outside the 256
and no register but those. -/
def Obligations.VectorMoves : Prop :=
  (∀ k g d a s, IssuesUnit s k g → ∃ t, exec (.vbc k g false d a) s = .next t ∧
    Retired s t k (.vbc k g false d a) ((s.core k.toNat).pc + 4) ∧ OnlyCore s t k (retireOff k :: numOffs k) ∧
    WritesVec (s.core k.toNat) (t.core k.toNat) d (List.replicate 64 (((s.core k.toNat).sv a).setWidth 32))
      ((s.core k.toNat).tagOfP g.toNat || (s.core k.toNat).tagOfS a) ∧
    NumCounted s t k ((s.core k.toNat).tagOfP g.toNat || (s.core k.toNat).tagOfS a) NumEv.none) ∧
  (∀ k g d a b s tag, IssuesUnit s k g →
    tag = ((s.core k.toNat).tagOfP g.toNat || (s.core k.toNat).tagOfV a || (s.core k.toNat).tagOfS b) →
    ∃ t, exec (.vext k g false d a b) s = .next t ∧
    Retired s t k (.vext k g false d a b) ((s.core k.toNat).pc + 4) ∧ OnlyCore s t k (retireOff k :: numOffs k) ∧
    WritesScalar (s.core k.toNat) (t.core k.toNat) d
      ((((s.core k.toNat).vv a).getD (((s.core k.toNat).sv b).toNat % 64) 0).setWidth 64) tag ∧
    NumCounted s t k tag NumEv.none) ∧
  (∀ k g d a s off tag, IssuesUnit s k g → off = ((s.core k.toNat).sv a).toNat → off % 64 = 0 → off + 256 ≤ 0xC0000 →
    tag = ((s.core k.toNat).tagOfP g.toNat || (s.core k.toNat).tagOfS a || rangeTag (s.core k.toNat) off 256) →
    ∃ u w, encodeCore (.vld k g false d a) = some (k, w) ∧ exec (.vld k g false d a) s = .next (u.readFound s k.toNat w) ∧
    (NoErrors s → s.readFirst k.toNat w = s ∧ u.readFound s k.toNat w = u) ∧
    Retired s u k (.vld k g false d a) ((s.core k.toNat).pc + 4) ∧ OnlyCore (s.readFirst k.toNat w) u k (retireOff k :: numOffs k) ∧
    WritesVec (s.core k.toNat) (u.core k.toNat) d ((List.range 64).map fun i =>
      BitVec.ofNat 32 (leNat ((List.range 4).map fun j => spByte s k (off + 4 * i + j)))) tag ∧
    NumCounted s u k tag NumEv.none) ∧
  ∀ k g d a s off n tag, IssuesUnit s k g → s.memWf → off = ((s.core k.toNat).sv a).toNat → off % 64 = 0 → off + 256 ≤ 0xC0000 →
    tag = ((s.core k.toNat).tagOfP g.toNat || (s.core k.toNat).tagOfS a || (s.core k.toNat).tagOfV d) →
    QuarantineOk s k tag off 256 → n = 4 * ((s.core k.toNat).vv d).length → s.badIn (spBase k.toNat + off) n = [] →
    ∃ t, exec (.vst k g false d a) s = .next t ∧ Retired s t k (.vst k g false d a) ((s.core k.toNat).pc + 4) ∧
    OnlyCoreMem s t k (retireOff k :: numOffs k) (spBase k.toNat + off) n ∧ t.freeCtr = s.freeCtr ∧
    (∀ i j, i < ((s.core k.toNat).vv d).length → j < 4 → spByte t k (off + 4 * i + j) =
      BitVec.ofNat 8 ((((s.core k.toNat).vv d).getD i 0).toNat / 256 ^ j)) ∧
    (∀ l, l ∈ (t.core k.toNat).tagL ↔ l ∈ (s.core k.toNat).tagL ∨ (tag = true ∧ ∃ x, off ≤ x ∧ x < off + n ∧ l = x / 64)) ∧
    OnlyPc { s.core k.toNat with tagL := (t.core k.toNat).tagL, ag := (t.core k.toNat).ag } (t.core k.toNat) ∧
    NumCounted s t k tag NumEv.none

/-- VCVT to formats 1 to 3, VUNPK of formats 1 to 3 and VMXQ to formats 4 to 9, with rounding codes 0 to 2, complete
when they issue. VCVT with rounding 0 packs each lane's conversion to nearest from bit 0, the rest zero; with rounding
1 or 2 the generator of every converted lane advances exactly once. VUNPK writes the expansion of each packed element.
VMXQ writes two blocks' codes and, in the last 2 bytes, their scales. With rounding 0 no generator moves. Results are
tagged as a and the guard are, and nothing else changes but the numeric registers and retirement. -/
def Obligations.VectorConversions : Prop :=
  (∀ k g st d a b c s f conv tag, IssuesUnit s k g → f = b.toNat → 1 ≤ f → f ≤ 3 → c.toNat ≤ 2 →
    conv = (if st then cvtStrict f (s.sat8 k.toNat) else cvtFast f (s.ftz k.toNat) (s.sat8 k.toNat)) →
    tag = ((s.core k.toNat).tagOfP g.toNat || (s.core k.toNat).tagOfV a) →
    ∃ t v ev, exec (.vcvt k g st d a b c) s = .next t ∧ Retired s t k (.vcvt k g st d a b c) ((s.core k.toNat).pc + 4) ∧
      OnlyCore s t k (retireOff k :: numOffs k) ∧
      WritesVec { s.core k.toNat with gens := (t.core k.toNat).gens } (t.core k.toNat) d v tag ∧ NumCounted s t k tag ev ∧
      (c = 0 → (t.core k.toNat).gens = (s.core k.toNat).gens ∧
        v = vecOfNat (packCodes (elemBits f) (((s.core k.toNat).vv a).map fun w => (conv .nearest w).1)) ∧
        ev = NumEv.all (((s.core k.toNat).vv a).map fun w => (conv .nearest w).2)) ∧
      (c ≠ 0 → ∀ i, (t.core k.toNat).gen i = if i < ((s.core k.toNat).vv a).length then genStep ((s.core k.toNat).gen i)
        else (s.core k.toNat).gen i)) ∧
  (∀ k g st d a b s f tag, IssuesUnit s k g → f = b.toNat → 1 ≤ f → f ≤ 3 →
    tag = ((s.core k.toNat).tagOfP g.toNat || (s.core k.toNat).tagOfV a) →
    ∃ t ev, exec (.vunpk k g st d a b) s = .next t ∧ Retired s t k (.vunpk k g st d a b) ((s.core k.toNat).pc + 4) ∧
      OnlyCore s t k (retireOff k :: numOffs k) ∧
      WritesVec (s.core k.toNat) (t.core k.toNat) d ((List.range 64).map fun j =>
        (unpk f st (natOfVec ((s.core k.toNat).vv a) / 2 ^ (j * elemBits f) % 2 ^ elemBits f)).1) tag ∧ NumCounted s t k tag ev) ∧
  ∀ k g d a b c s f tag, IssuesUnit s k g → f = b.toNat → 4 ≤ f → f ≤ 9 → c.toNat ≤ 2 →
    tag = ((s.core k.toNat).tagOfP g.toNat || (s.core k.toNat).tagOfV a) →
    ∃ t ev, exec (.vmxq k g false d a b c) s = .next t ∧ Retired s t k (.vmxq k g false d a b c) ((s.core k.toNat).pc + 4) ∧
      OnlyCore s t k (retireOff k :: numOffs k) ∧ NumCounted s t k tag ev ∧
      (∀ r, (t.core k.toNat).tagOfV r = if r = d then tag else (s.core k.toNat).tagOfV r) ∧
      (∀ r, r ≠ d → (t.core k.toNat).vv r = (s.core k.toNat).vv r) ∧
      (c = 0 → (t.core k.toNat).gens = (s.core k.toNat).gens ∧
        ∀ p q, p = mxBlock f 0 (s.ftz k.toNat) (((s.core k.toNat).vv a).take 32) 0 (s.core k.toNat) →
          q = mxBlock f 0 (s.ftz k.toNat) (((s.core k.toNat).vv a).drop 32) 32 (s.core k.toNat) →
          (t.core k.toNat).vv d = vecOfNat (packCodes (elemBits f) (p.1 ++ q.1) + (p.2.1 + 256 * q.2.1) * 2 ^ 2032)) ∧
      OnlyPc { s.core k.toNat with v := (t.core k.toNat).v, tagV := (t.core k.toNat).tagV, gens := (t.core k.toNat).gens } (t.core k.toNat)

/-- AGOPEN of a group that is not open, in mode 0 to 2 (levels above 1 in mode 0 only), on a region inside the
scratchpad that meets no other open group's, opens it empty with the mode, rows and levels given, tagged as the guard
is. AGDROP of an open group closes it. Each completes, retires, leaves every other group, every byte of memory and
everything else unchanged, and counts no numeric event. -/
def Obligations.AccumulationOpenAndDrop : Prop :=
  (∀ k g x tc imm s ag, IssuesUnit s k g → (s.core k.toNat).agAt x = none → imm.toNat / 16 < 3 →
    (imm.toNat / 16 ≠ 0 → imm.toNat % 16 = 0) →
    ag = { mode := imm.toNat / 16, m := TD.rows ((s.core k.toNat).tv tc), levels := imm.toNat % 16 + 1, retries := 0, tagged := (s.core k.toNat).tagOfP g.toNat, occ := 0, steps := 0, rbase := TD.base ((s.core k.toNat).tv tc) / 16, chan := none, fresh := true, dirty := false } →
    16 * ag.rbase + ag.bytes ≤ 0xC0000 → (∀ p ∈ (s.core k.toNat).ag, meets (16 * ag.rbase) ag.bytes (16 * p.2.rbase) p.2.bytes = false) →
    ∃ t, exec (.agopen k g x tc imm) s = .next t ∧ Retired s t k (.agopen k g x tc imm) ((s.core k.toNat).pc + 4) ∧
      OnlyCore s t k (retireOff k :: numOffs k) ∧ (∀ y, (t.core k.toNat).agAt y = if y = x then some ag else (s.core k.toNat).agAt y) ∧
      OnlyPc { s.core k.toNat with ag := (t.core k.toNat).ag } (t.core k.toNat) ∧
      NumCounted s t k ((s.core k.toNat).tagOfP g.toNat) NumEv.none) ∧
  ∀ k g x s ag, IssuesUnit s k g → (s.core k.toNat).agAt x = some ag →
    ∃ t, exec (.agdrop k g x) s = .next t ∧ Retired s t k (.agdrop k g x) ((s.core k.toNat).pc + 4) ∧
      OnlyCore s t k (retireOff k :: numOffs k) ∧ (∀ y, y ≠ x → (t.core k.toNat).agAt y = (s.core k.toNat).agAt y) ∧
      (Tab.wf (s.core k.toNat).ag = true → (t.core k.toNat).agAt x = none) ∧
      OnlyPc { s.core k.toNat with ag := (t.core k.toNat).ag } (t.core k.toNat) ∧
      NumCounted s t k ((s.core k.toNat).tagOfP g.toNat) NumEv.none

/-- MMA of an open group and two valid descriptors that meet R246 and the family rule, with no memory error recorded,
completes: the group takes one step (steps rises and saturates), keeps its mode, shape, levels and region, takes its
channel and its tag (R266), and counts at most four scale-back retries; in modes P and L of a float channel its level
stack counts up in binary, a full stack merging into its top level; the MXI8 channel uses no stack; no byte of memory
outside the group's region, no other group and nothing else changes but the numeric registers and retirement. -/
def Obligations.MatrixMultiplyAccumulate : Prop :=
  ∀ k g x ta tb s ag, IssuesUnit s k g → NoErrors s → TD.valid ((s.core k.toNat).tv ta) = true → TD.valid ((s.core k.toNat).tv tb) = true →
    (s.core k.toNat).agAt x = some ag → mmaOk ag ((s.core k.toNat).tv ta) ((s.core k.toNat).tv tb) = true →
    ∀ tag int, tag = ((s.core k.toNat).tagOfP g.toNat || ag.tagged || TD.tagged (s.core k.toNat) ((s.core k.toNat).tv ta) || TD.tagged (s.core k.toNat) ((s.core k.toNat).tv tb)) →
      int = decide (TD.fmt ((s.core k.toNat).tv ta) = 9) →
    ∃ t ag' ev, exec (.mma k g x ta tb) s = .next t ∧ Retired s t k (.mma k g x ta tb) ((s.core k.toNat).pc + 4) ∧
      OnlyCoreMem s t k (retireOff k :: numOffs k) (spBase k.toNat + 16 * ag.rbase) ag.bytes ∧ NumCounted s t k tag ev ∧
      (∀ y, (t.core k.toNat).agAt y = if y = x then some ag' else (s.core k.toNat).agAt y) ∧
      ag' = { ag with occ := ag'.occ, retries := ag'.retries, tagged := tag, steps := min (ag.steps + 1) 0xFFFFFFFF, chan := some int, fresh := false } ∧
      ag.retries ≤ ag'.retries ∧ (ag'.retries ≤ 4 ∨ ag'.retries = ag.retries) ∧
      (int = true → ag'.occ = ag.occ ∧ ag'.retries = ag.retries) ∧
      (int = false → ag.mode ≠ 2 → 1 ≤ ag.levels → ag.occ < 2 ^ ag.levels →
        ag'.occ = if ag.occ + 1 < 2 ^ ag.levels then ag.occ + 1 else 2 ^ (ag.levels - 1)) ∧
      OnlyPc { s.core k.toNat with ag := (t.core k.toNat).ag } (t.core k.toNat)

/-- AGCLOSE (rounding 0 to 2, output format F32, F16, E4M3 or E5M2) and AGRD (output F32) of an open group into a
valid descriptor of its shape, whose base leaves room for the header, with no memory error recorded and, for tagged
data, inside the quarantine area, complete: the 16 bytes before t[tc].base hold the output tile header of Table 8-3;
bytes change only there, in the tile's rows and in the group's region; AGCLOSE closes the group and AGRD keeps it
open; nothing else changes but tags, generators, the numeric registers and retirement. -/
def Obligations.AccumulationReadOut : Prop :=
  ∀ k g x ta tb tc imm s ag tc', tc' = (s.core k.toNat).tv tc → IssuesUnit s k g → NoErrors s → s.memWf → TD.valid tc' = true → TD.base tc' ≠ 0 →
    (s.core k.toNat).agAt x = some ag → TD.rows tc' = ag.m → TD.cols tc' = 32 →
    ∀ tag, tag = ((s.core k.toNat).tagOfP g.toNat || ag.tagged) →
      QuarantineOk s k tag (TD.base tc' - 16) 16 →
      (∀ r, r < ag.m → QuarantineOk s k tag (TD.base tc' + r * TD.pitch tc') (TD.rowBytes tc')) →
    ∀ p ∈ [(Instr.agclose k g x ta tb tc imm, true, toF32 (FV.mul (f32 (TD.coarse ((s.core k.toNat).tv ta))) (f32 (TD.coarse ((s.core k.toNat).tv tb))))),
        (Instr.agrd k g x tc, false, 0x3F800000#32)],
      (p.2.1 = true → imm.toNat % 4 < 3 ∧ TD.fmt tc' ≤ 3) → (p.2.1 = false → TD.fmt tc' = 0) →
    ∃ t ev inf nan, exec p.1 s = .next t ∧ Retired s t k p.1 ((s.core k.toNat).pc + 4) ∧ NumCounted s t k tag ev ∧
      leNat ((List.range 16).map fun i => spByte t k (TD.base tc' - 16 + i)) =
        tileHeader ag (!p.2.1) inf nan (TD.fmt tc') p.2.2 % 2 ^ 128 ∧
      (∀ a, ¬ (TD.base tc' - 16 ≤ a ∧ a < TD.base tc') →
        (∀ r, r < ag.m → ¬ (TD.base tc' + r * TD.pitch tc' ≤ a ∧ a < TD.base tc' + r * TD.pitch tc' + TD.rowBytes tc')) →
        ¬ (16 * ag.rbase ≤ a ∧ a < 16 * ag.rbase + ag.bytes) → spByte t k a = spByte s k a) ∧
      (∀ a, a < spBase k.toNat → Cells.get t.mem.cells a = Cells.get s.mem.cells a) ∧
      (p.2.1 = true → Tab.wf (s.core k.toNat).ag = true → (t.core k.toNat).agAt x = none) ∧
      (p.2.1 = false → ((t.core k.toNat).agAt x).isSome = true) ∧
      t = { s with cores := t.cores, regs := t.regs, freeCtr := t.freeCtr, mem := { s.mem with cells := t.mem.cells } } ∧
      (∀ j, j ≠ k.toNat → t.core j = s.core j) ∧ (∀ q : Reg, q.off ∉ retireOff k :: numOffs k → t.rd q = s.rd q) ∧
      OnlyPc { s.core k.toNat with ag := (t.core k.toNat).ag, gens := (t.core k.toNat).gens, tagL := (t.core k.toNat).tagL } (t.core k.toNat)

/-- AGWR loads an open group with an F32 tile of its shape: in mode P or L the top level holds the tile's words with
zero errors and the stack holds that level alone; in mode H the tile holds the words rounded to binary16; steps and
retries are zero. AGSAVE writes the 64-byte header of Table 6-13 and then the group's region at t[tc].base. AGLOAD
opens a group that is not open from such an image: its control state is the header's and its region takes the image's
bytes. Each completes when it issues, with no memory error recorded, on ranges inside the scratchpad (and, for tagged
data, the quarantine area), changes no byte of memory beyond those, and retires. -/
def Obligations.AccumulationTransfer : Prop :=
  (∀ k g x ta s ag t0, t0 = (s.core k.toNat).tv ta → IssuesUnit s k g → NoErrors s → s.memWf → TD.valid t0 = true → TD.fmt t0 = 0 →
    (s.core k.toNat).agAt x = some ag → ag.mode ≠ 2 → 1 ≤ ag.levels → TD.rows t0 = ag.m → TD.cols t0 = 32 →
    ∃ t, exec (.agwr k g x ta) s = .next t ∧ Retired s t k (.agwr k g x ta) ((s.core k.toNat).pc + 4) ∧
      OnlyCoreMem s t k (retireOff k :: numOffs k) (spBase k.toNat + 16 * ag.rbase) ag.bytes ∧
      (∀ r c, r < ag.m → c < 32 →
        leNat ((List.range 4).map fun i => spByte t k (16 * ag.rbase + (ag.levels - 1) * ag.m * 256 + 256 * r + 4 * c + i)) =
          leNat ((List.range 4).map fun i => spByte s k (TD.base t0 + r * TD.pitch t0 + 4 * c + i)) ∧
        leNat ((List.range 4).map fun i => spByte t k (16 * ag.rbase + (ag.levels - 1) * ag.m * 256 + 256 * r + 128 + 4 * c + i)) = 0) ∧
      (t.core k.toNat).agAt x = some { ag with occ := 2 ^ (ag.levels - 1), retries := 0, steps := 0, chan := some false, fresh := false, dirty := false, tagged := (s.core k.toNat).tagOfP g.toNat || TD.tagged (s.core k.toNat) t0 } ∧
      (∀ y, y ≠ x → (t.core k.toNat).agAt y = (s.core k.toNat).agAt y)) ∧
  (∀ k g x ta s ag t0, t0 = (s.core k.toNat).tv ta → IssuesUnit s k g → NoErrors s → s.memWf → TD.valid t0 = true → TD.fmt t0 = 0 →
    (s.core k.toNat).agAt x = some ag → ag.mode = 2 → TD.rows t0 = ag.m → TD.cols t0 = 32 →
    ∃ t, exec (.agwr k g x ta) s = .next t ∧ Retired s t k (.agwr k g x ta) ((s.core k.toNat).pc + 4) ∧
      OnlyCoreMem s t k (retireOff k :: numOffs k) (spBase k.toNat + 16 * ag.rbase) ag.bytes ∧
      (∀ r c, r < ag.m → c < 32 →
        leNat ((List.range 2).map fun i => spByte t k (16 * ag.rbase + 64 * r + 2 * c + i)) =
          fmt16.rnd (f32 (BitVec.ofNat 32 (leNat ((List.range 4).map fun i => spByte s k (TD.base t0 + r * TD.pitch t0 + 4 * c + i))))) % 2 ^ 16) ∧
      (t.core k.toNat).agAt x = some { ag with occ := 0, retries := 0, steps := 0, chan := some false, fresh := false, dirty := false, tagged := (s.core k.toNat).tagOfP g.toNat || TD.tagged (s.core k.toNat) t0 }) ∧
  (∀ k g x tc s ag off tag, IssuesUnit s k g → NoErrors s → s.memWf → (s.core k.toNat).agAt x = some ag → ag.dirty = false →
    off = TD.base ((s.core k.toNat).tv tc) → off + 64 + ag.bytes ≤ 0xC0000 → tag = ((s.core k.toNat).tagOfP g.toNat || ag.tagged) →
    QuarantineOk s k tag off (64 + ag.bytes) →
    ∃ t, exec (.agsave k g x tc) s = .next t ∧ Retired s t k (.agsave k g x tc) ((s.core k.toNat).pc + 4) ∧
      OnlyCoreMem s t k (retireOff k :: numOffs k) (spBase k.toNat + off) (64 + ag.bytes) ∧
      leNat ((List.range 64).map fun i => spByte t k (off + i)) =
        (ag.mode + ag.m * 2 ^ 2 + (ag.levels - 1) * 2 ^ 8 + ag.retries * 2 ^ 12 + ag.tagged.toNat * 2 ^ 15 +
          (if ag.mode = 2 then 0 else ag.occ) * 2 ^ 16 + ag.steps * 2 ^ 32 + ag.rbase * 2 ^ 64) % 2 ^ 512 ∧
      (∀ i, i < ag.bytes → spByte t k (off + 64 + i) = if ag.mode = 2 ∧ ag.fresh = true then 0 else spByte s k (16 * ag.rbase + i)) ∧
      NumCounted s t k tag NumEv.none) ∧
  ∀ k g x ta s off hd ag, IssuesUnit s k g → NoErrors s → s.memWf → (s.core k.toNat).agAt x = none → off = TD.base ((s.core k.toNat).tv ta) →
    hd = leNat ((List.range 64).map fun i => spByte s k (off + i)) →
    ag = { mode := hd % 4, m := hd / 2 ^ 2 % 64, levels := hd / 2 ^ 8 % 16 + 1, retries := hd / 2 ^ 12 % 8, tagged := decide (hd / 2 ^ 15 % 2 = 1), occ := hd / 2 ^ 16 % 2 ^ 16, steps := hd / 2 ^ 32 % 2 ^ 32, rbase := hd / 2 ^ 64 % 2 ^ 16, chan := none, fresh := false, dirty := false } →
    loadOk hd ag = true → off + 64 + ag.bytes ≤ 0xC0000 → (s.core k.toNat).agOverlap x ag = false →
    ∃ t tag, exec (.agload k g x ta) s = .next t ∧ Retired s t k (.agload k g x ta) ((s.core k.toNat).pc + 4) ∧
      tag = ((s.core k.toNat).tagOfP g.toNat || ag.tagged || rangeTag (s.core k.toNat) off (64 + ag.bytes)) ∧
      OnlyCoreMem s t k (retireOff k :: numOffs k) (spBase k.toNat + 16 * ag.rbase) ag.bytes ∧
      (t.core k.toNat).agAt x = some { ag with tagged := tag } ∧
      (∀ i, i < ag.bytes → spByte t k (16 * ag.rbase + i) = spByte s k (off + 64 + i)) ∧
      NumCounted s t k tag NumEv.none

/-- SEND of op 0, 1 or 4 on a stream that owns an outbound slot, with the next identifier free, aligned operands in
range and no memory error recorded, takes the identifier and, where no slot went void before it, queues a packet of its
head flit and data; a SEND that would read tagged data queues voids, and its record of status provisional refused stands
at once. SKIP queues the release of its slots. SEND_COMPLETE of a packet whose slots have all passed enters its record:
late, target reset where the core it was sent to is in reset, or ok. Each SEND and SKIP retires, and memory and every
other core stay. -/
def Obligations.StreamSend : Prop :=
  (∀ k g a b imm s stream off n, Issues s k g → NoErrors s → imm.toNat < 128 → imm.toNat / 16 % 8 ∈ [0, 1, 4] → stream = imm.toNat % 16 →
    off = ((s.core k.toNat).sv a).toNat → n = ((s.core k.toNat).sv b).toNat / 2 ^ 48 % 256 → n ≤ 128 → off < 0xC0000 → off + 32 * n ≤ 0xC0000 →
    off % 32 = 0 → ((s.core k.toNat).sv b).toNat % 32 = 0 → s.ownsSlot k.toNat stream = true → (s.core k.toNat).opFree = true →
    Tab.get 0 (s.core k.toNat).missed stream = 0 →
    ∀ refused, refused = ((s.core k.toNat).tagOfP g.toNat || (s.core k.toNat).tagOfS a || (s.core k.toNat).tagOfS b || rangeTag (s.core k.toNat) off (32 * n)) →
    ∃ t, exec (.send k g a b imm) s = .next t ∧ Retired s t k (.send k g a b imm) ((s.core k.toNat).pc + 4) ∧
      (t.core k.toNat).opNext = ((s.core k.toNat).opNext + 1) % 32 ∧ (t.core k.toNat).busy = setBit (s.core k.toNat).busy (s.core k.toNat).opNext true ∧
      Tab.get [] (t.core k.toNat).outQ stream = Tab.get [] (s.core k.toNat).outQ stream ++ [.pkt {
        op := (s.core k.toNat).opNext
        at_ := s.now
        dst := ((s.core k.toNat).sv b).toNat % 2 ^ 48
        total := n + 1
        left := n + 1
        late := false
        refused := refused
        units := 0
        flits := if refused then [] else Hd.make (imm.toNat / 16 % 8) n (((s.core k.toNat).sv b).toNat % 2 ^ 48) k.toNat 4 (s.core k.toNat).opNext 0 ::
          (List.range n).map fun j => BitVec.ofNat 256 (leNat ((List.range 32).map fun i => spByte s k (off + 32 * j + i))) }] ∧
      (t.core k.toNat).cq = (s.core k.toNat).cq ++ (if refused then [compRec (s.core k.toNat).opNext 0 6 0] else []) ∧
      (refused = true → t.get (F.CORE_CNT_PROVBLK_count k.toNat) = min (s.get (F.CORE_CNT_PROVBLK_count k.toNat) + 1) 0xFFFFFFFF) ∧
      (refused = false → OnlyCore s t k [retireOff k]) ∧ t.mem = s.mem ∧ ∀ j, j ≠ k.toNat → t.core j = s.core j) ∧
  (∀ k g imm s stream n, Issues s k g → stream = imm.toNat % 16 → n = imm.toNat / 16 → 1 ≤ n → s.ownsSlot k.toNat stream = true →
    ∃ t, exec (.skip k g 0 0 imm) s = .next t ∧ Retired s t k (.skip k g 0 0 imm) ((s.core k.toNat).pc + 4) ∧ OnlyCore s t k [retireOff k] ∧
      Tab.get 0 (t.core k.toNat).missed stream = Tab.get 0 (s.core k.toNat).missed stream - n ∧
      Tab.get [] (t.core k.toNat).outQ stream = Tab.get [] (s.core k.toNat).outQ stream ++
        (if n ≤ Tab.get 0 (s.core k.toNat).missed stream then [] else [.skip (n - Tab.get 0 (s.core k.toNat).missed stream)]) ∧
      OnlyPc { s.core k.toNat with outQ := (t.core k.toNat).outQ, missed := (t.core k.toNat).missed } (t.core k.toNat)) ∧
  ∀ k stream s p rest, ∀ gone : Bool, Tab.get [] (s.core k.toNat).outQ (BitVec.toNat (w := 4) stream) = .pkt p :: rest → p.left = 0 →
    (gone = true ↔ ∃ j, j < 2048 ∧ spBase j ≤ p.dst ∧ p.dst < spBase (j + 1) ∧ s.fenced j = false ∧ (s.core j).run = .inReset) →
    ∃ t, exec (.sendComplete k stream) s = .next t ∧ OnlyCore s t k [] ∧ Tab.get [] (t.core k.toNat).outQ stream.toNat = rest ∧
      t.core k.toNat = { s.core k.toNat with outQ := (t.core k.toNat).outQ, cq := (s.core k.toNat).cq ++ if p.refused then [] else [compRec p.op 0 (if p.late then 1 else if gone then 2 else 0) p.units] }

/-- RQPOP, CQPOP and HQPOP, when they issue, write the oldest record of their queue, or 0 where it is empty, to s[a]
with the guard's tag and take it off the queue. CQPOP frees the record's identifier. HQPOP of a provisional
completion, with fewer than 15 sources open, tags the lines its result wrote and opens a source, keeping the
identifier; of a final completion whose provisional one was not popped it frees the identifier; of one with status ok
and match = 1 whose provisional one was popped, with other sources still open, it also closes one source. -/
def Obligations.QueuePops : Prop :=
  (∀ k g a s, Issues s k g → ∃ t, exec (.rqpop k g a 0 0) s = .next t ∧ Retired s t k (.rqpop k g a 0 0) ((s.core k.toNat).pc + 4) ∧
    OnlyCore s t k [retireOff k] ∧
    WritesScalar { s.core k.toNat with rq := (s.core k.toNat).rq.tail } (t.core k.toNat) a ((s.core k.toNat).rq.headD 0) ((s.core k.toNat).tagOfP g.toNat)) ∧
  (∀ k g a s, Issues s k g → ∃ t, exec (.cqpop k g a 0 0) s = .next t ∧ Retired s t k (.cqpop k g a 0 0) ((s.core k.toNat).pc + 4) ∧
    OnlyCore s t k [retireOff k] ∧
    WritesScalar { s.core k.toNat with cq := (s.core k.toNat).cq.tail, busy := (t.core k.toNat).busy } (t.core k.toNat) a ((s.core k.toNat).cq.headD 0) ((s.core k.toNat).tagOfP g.toNat) ∧
    ∀ i, i < 32 → (t.core k.toNat).busy.getLsbD i = ((s.core k.toNat).busy.getLsbD i && ((s.core k.toNat).cq.isEmpty || decide (i ≠ ((s.core k.toNat).cq.headD 0).toNat % 32)))) ∧
  (∀ k g a s, Issues s k g → (s.core k.toNat).hq = [] → ∃ t, exec (.hqpop k g a 0 0) s = .next t ∧
    Retired s t k (.hqpop k g a 0 0) ((s.core k.toNat).pc + 4) ∧ OnlyCore s t k [retireOff k] ∧
    WritesScalar (s.core k.toNat) (t.core k.toNat) a 0 ((s.core k.toNat).tagOfP g.toNat)) ∧
  (∀ k g a s r rest, Issues s k g → (s.core k.toNat).hq = r :: rest → r.word.toNat / 2 ^ 8 % 2 = 1 → (s.core k.toNat).prov < 15 →
    ∃ t, exec (.hqpop k g a 0 0) s = .next t ∧ Retired s t k (.hqpop k g a 0 0) ((s.core k.toNat).pc + 4) ∧ OnlyCore s t k [retireOff k] ∧
    (∀ l, l ∈ (t.core k.toNat).tagL ↔ l ∈ (s.core k.toNat).tagL ∨ ∃ x, r.dst ≤ x ∧ x < r.dst + r.len ∧ l = x / 64) ∧
    WritesScalar { s.core k.toNat with hq := rest, prov := (s.core k.toNat).prov + 1, provSeq := r.seq :: (s.core k.toNat).provSeq, tagL := (t.core k.toNat).tagL } (t.core k.toNat) a r.word ((s.core k.toNat).tagOfP g.toNat)) ∧
  (∀ k g a s r rest, Issues s k g → (s.core k.toNat).hq = r :: rest → r.word.toNat / 2 ^ 8 % 2 = 0 → r.seq ∉ (s.core k.toNat).provSeq →
    ∃ t, exec (.hqpop k g a 0 0) s = .next t ∧ Retired s t k (.hqpop k g a 0 0) ((s.core k.toNat).pc + 4) ∧ OnlyCore s t k [retireOff k] ∧
    WritesScalar { s.core k.toNat with hq := rest, busy := setBit (s.core k.toNat).busy r.op false } (t.core k.toNat) a r.word ((s.core k.toNat).tagOfP g.toNat)) ∧
  ∀ k g a s r rest, Issues s k g → (s.core k.toNat).hq = r :: rest → r.word.toNat / 2 ^ 8 % 2 = 0 → r.seq ∈ (s.core k.toNat).provSeq →
    r.word.toNat % 16 = 0 → r.word.toNat / 2 ^ 9 % 2 = 1 → 1 < (s.core k.toNat).prov →
    ∃ t, exec (.hqpop k g a 0 0) s = .next t ∧ Retired s t k (.hqpop k g a 0 0) ((s.core k.toNat).pc + 4) ∧ OnlyCore s t k [retireOff k] ∧
    WritesScalar { s.core k.toNat with hq := rest, busy := setBit (s.core k.toNat).busy r.op false, prov := (s.core k.toNat).prov - 1, provSeq := (s.core k.toNat).provSeq.filter (· != r.seq) } (t.core k.toNat) a r.word ((s.core k.toNat).tagOfP g.toNat)

/-- RSEND of untagged data with its identifier free, in-range aligned operands and no memory error recorded takes the
identifier and queues its relay flits in its direction; RRECV with fewer than four buffers posted posts one;
RSEND_COMPLETE and RRECV_COMPLETE of a finished send or a full buffer enter its record, ok or late; a relay flit that
arrives with data fills the oldest posted buffer's next 128 bytes, where no granule has an error, and changes no other
byte. Nothing else changes but retirement. -/
def Obligations.RelayLanes : Prop :=
  (∀ k g a b imm s dir off n, Issues s k g → NoErrors s → imm.toNat < 4 → dir = imm.toNat → off = ((s.core k.toNat).sv a).toNat → n = ((s.core k.toNat).sv b).toNat →
    1 ≤ n → n ≤ 4096 → off + 128 * n ≤ 0xC0000 → off % 128 = 0 → (s.core k.toNat).opFree = true → Tab.get 0 (s.core k.toNat).missedR dir = 0 →
    ((s.core k.toNat).tagOfP g.toNat || (s.core k.toNat).tagOfS a || (s.core k.toNat).tagOfS b || rangeTag (s.core k.toNat) off (128 * n)) = false →
    ∃ t, exec (.rsend k g a b imm) s = .next t ∧ Retired s t k (.rsend k g a b imm) ((s.core k.toNat).pc + 4) ∧ OnlyCore s t k [retireOff k] ∧
      Tab.get [] (t.core k.toNat).relQ dir = Tab.get [] (s.core k.toNat).relQ dir ++ [{ op := (s.core k.toNat).opNext, at_ := s.now, total := n, left := n, late := false, refused := false, units := 0, flits := (List.range n).map fun j => BitVec.ofNat 1024 (leNat ((List.range 128).map fun i => spByte s k (off + 128 * j + i))) }] ∧
      OnlyPc { s.core k.toNat with relQ := (t.core k.toNat).relQ, missedR := (t.core k.toNat).missedR, opNext := ((s.core k.toNat).opNext + 1) % 32, busy := setBit (s.core k.toNat).busy (s.core k.toNat).opNext true } (t.core k.toNat)) ∧
  (∀ k g a b imm s dir off n, Issues s k g → imm.toNat < 4 → dir = imm.toNat → off = ((s.core k.toNat).sv a).toNat → n = ((s.core k.toNat).sv b).toNat →
    1 ≤ n → n ≤ 4096 → off + 128 * n ≤ 0xC0000 → off % 128 = 0 → (s.core k.toNat).opFree = true → (Tab.get [] (s.core k.toNat).relBuf dir).length < 4 →
    ∃ t, exec (.rrecv k g a b imm) s = .next t ∧ Retired s t k (.rrecv k g a b imm) ((s.core k.toNat).pc + 4) ∧ OnlyCore s t k [retireOff k] ∧
      Tab.get [] (t.core k.toNat).relBuf dir = Tab.get [] (s.core k.toNat).relBuf dir ++ [{ op := (s.core k.toNat).opNext, addr := off, n := n, filled := 0, late := false }] ∧
      OnlyPc { s.core k.toNat with relBuf := (t.core k.toNat).relBuf, opNext := ((s.core k.toNat).opNext + 1) % 32, busy := setBit (s.core k.toNat).busy (s.core k.toNat).opNext true } (t.core k.toNat)) ∧
  (∀ k dir s q rest, Tab.get [] (s.core k.toNat).relQ (BitVec.toNat (w := 2) dir) = q :: rest → q.left = 0 →
    ∃ t, exec (.rsendComplete k dir) s = .next t ∧ OnlyCore s t k [] ∧ Tab.get [] (t.core k.toNat).relQ dir.toNat = rest ∧
      t.core k.toNat = { s.core k.toNat with relQ := (t.core k.toNat).relQ, cq := (s.core k.toNat).cq ++ [compRec q.op 1 (if q.late then 1 else 0) q.units] }) ∧
  (∀ k dir s q rest, Tab.get [] (s.core k.toNat).relBuf (BitVec.toNat (w := 2) dir) = q :: rest → q.n ≤ q.filled →
    ∃ t, exec (.rrecvComplete k dir) s = .next t ∧ OnlyCore s t k [] ∧ Tab.get [] (t.core k.toNat).relBuf dir.toNat = rest ∧
      t.core k.toNat = { s.core k.toNat with relBuf := (t.core k.toNat).relBuf, cq := (s.core k.toNat).cq ++ [compRec q.op 2 (if q.late then 1 else 0) q.n] }) ∧
  ∀ k dir data s q rest, s.fenced k.toNat = false → (s.core k.toNat).run ≠ .inReset → s.memWf →
    Tab.get [] (s.core k.toNat).relBuf (BitVec.toNat (w := 2) dir) = q :: rest → q.filled < q.n →
    s.badIn (spBase k.toNat + q.addr + 128 * q.filled) 128 = [] →
    ∃ t, exec (.relayFlitArrival k dir 0 data) s = .next t ∧ OnlyCoreMem s t k [] (spBase k.toNat + q.addr + 128 * q.filled) 128 ∧
      Tab.get [] (t.core k.toNat).relBuf dir.toNat = { q with filled := q.filled + 1 } :: rest ∧
      ∀ i, i < 128 → spByte t k (q.addr + 128 * q.filled + i) = BitVec.ofNat 8 (data.toNat / 256 ^ i)

/-- HOIST by a ranked core of an untagged descriptor in range and 16-byte aligned, none of whose result need lie in
quarantine, with its identifier free, no lowering held for it or come from its team's parent and no memory error
recorded, takes the identifier and the next sequence number and enters its descriptor into the core's port. DMA with a
descriptor in range and 64-byte aligned, whose chain would read no tagged line, its identifier free and fewer than eight
chains queued queues a chain. DBELL of untagged operands
sends a doorbell control flit, kind 3, to router s[a][10:0] and port s[a][13:11] with value s[b][31:0]. Each retires.
-/
def Obligations.HoistDmaAndDoorbell : Prop :=
  (∀ k g a s off rk d, Issues s k g → NoErrors s → off = ((s.core k.toNat).sv a).toNat → off % 16 = 0 → off + 16 ≤ 0xC0000 →
    s.rankOf k.toNat = some rk → d = (List.range 4).map (fun j => BitVec.ofNat 32 (leNat ((List.range 4).map fun i => spByte s k (off + 4 * j + i)))) →
    HD.prov d = false → (s.core k.toNat).opFree = true → (s.core k.toNat).tagL = [] → (s.core k.toNat).held = [] →
    (∀ x, x = s.halH ((s.coreOwner k.toNat).getD 0) → Tab.get [] x.teamDown (x.teams % 65536) = []) →
    ((s.core k.toNat).tagOfP g.toNat || (s.core k.toNat).tagOfS a) = false →
    ∃ t iss, exec (.hoist k g a 0 0) s = .next t ∧ Retired s t k (.hoist k g a 0 0) ((s.core k.toNat).pc + 4) ∧ OnlyCore s t k [retireOff k] ∧
      iss.seq = (s.core k.toNat).halSeq ∧ iss.op = (s.core k.toNat).opNext ∧ iss.words = d ∧ iss.sent = false ∧
      OnlyPc { s.core k.toNat with halSeq := (s.core k.toNat).halSeq + 1, halOut := (t.core k.toNat).halOut, halWait := (t.core k.toNat).halWait, opNext := ((s.core k.toNat).opNext + 1) % 32, busy := setBit (s.core k.toNat).busy (s.core k.toNat).opNext true } (t.core k.toNat) ∧
      (t.core k.toNat).halOut = (s.core k.toNat).halOut ++ (if s.halFree ((s.coreOwner k.toNat).getD 0) iss.seq then [iss] else []) ∧
      (t.core k.toNat).halWait = (s.core k.toNat).halWait ++ if s.halFree ((s.coreOwner k.toNat).getD 0) iss.seq then [] else [iss]) ∧
  (∀ k g a s off, Issues s k g → off = ((s.core k.toNat).sv a).toNat → off % 64 = 0 → off + 64 ≤ 0xC0000 → (s.core k.toNat).opFree = true →
    (s.core k.toNat).dma.length < 8 → ((s.core k.toNat).tagOfP g.toNat || (s.core k.toNat).tagOfS a) = false →
    s.chainTagged k.toNat ((s.coreOwner k.toNat).getD 32) 65536 off = false →
    ∃ t, exec (.dma k g a 0 0) s = .next t ∧ Retired s t k (.dma k g a 0 0) ((s.core k.toNat).pc + 4) ∧ OnlyCore s t k [retireOff k] ∧
      OnlyPc { s.core k.toNat with dma := (s.core k.toNat).dma ++ [⟨(s.core k.toNat).opNext, off, false, 0, 0, 0, false, 0, 0⟩], opNext := ((s.core k.toNat).opNext + 1) % 32, busy := setBit (s.core k.toNat).busy (s.core k.toNat).opNext true } (t.core k.toNat)) ∧
  ∀ k g a b s x v, Issues s k g → x = ((s.core k.toNat).sv a).toNat → v = ((s.core k.toNat).sv b).toNat % 2 ^ 32 →
    ((s.core k.toNat).tagOfP g.toNat || (s.core k.toNat).tagOfS a || (s.core k.toNat).tagOfS b) = false →
    ∃ t fl, exec (.dbell k g a b 0) s = .next t ∧ Retired s t k (.dbell k g a b 0) ((s.core k.toNat).pc + 4) ∧
      t.mesh = { s.mesh with flights := s.mesh.flights ++ [fl] } ∧ fl.router = k.toNat ∧ fl.ctl = true ∧
      fl.flit.data = BitVec.ofNat 256 (x % 2048 + x / 2048 % 8 * 2 ^ 11 + k.toNat * 2 ^ 14 + 2 ^ 25 + 3 * 2 ^ 28 + v * 2 ^ 32) ∧
      OnlyPc (s.core k.toNat) (t.core k.toNat) ∧ (∀ j, j ≠ k.toNat → t.core j = s.core j) ∧ t.mem = s.mem

/-- A doorbell for a core that is not fenced or in reset queues a receive record of kind 7 with the value and source,
where fewer than 64 are queued. A record that finds the queue full is lost, counted in CORE_CNT_RDROP, and traps the
core with cause 10 unless it has trapped already. A write or message packet without a void, inside the core's scratchpad, no
granule of which has an error, on a stream that is not quiet writes its flits' 32-byte data in order and then queues
one record of its op, source, offset and flits; every other byte of memory is unchanged. -/
def Obligations.ArrivalsAtACore : Prop :=
  (∀ k src v s, s.fenced k.toNat = false → (s.core k.toNat).run ≠ .inReset → (s.core k.toNat).rq.length < 64 →
    ∃ t r, exec (.doorbellArrival k src v) s = .next t ∧ OnlyCore s t k [] ∧ t.core k.toNat = { s.core k.toNat with rq := (s.core k.toNat).rq ++ [r] } ∧
      r.toNat % 2 ^ 32 = v.toNat ∧ r.toNat / 2 ^ 36 % 2 ^ 11 = src.toNat ∧ r.toNat / 2 ^ 60 % 8 = 7 ∧ r.toNat / 2 ^ 63 = 1) ∧
  (∀ k src v s, s.fenced k.toNat = false → (s.core k.toNat).run ≠ .inReset → 64 ≤ (s.core k.toNat).rq.length →
    ∃ u, u = s.bump (F.CORE_CNT_RDROP_count k.toNat) ∧
      exec (.doorbellArrival k src v) s = .next (if (s.core k.toNat).run = .trapped then u else u.trap k.toNat 10)) ∧
  ∀ k slot head data s off n, s.fenced k.toNat = false → (s.core k.toNat).run ≠ .inReset → s.memWf → (s.core k.toNat).rq.length < 64 →
    n = data.length → n ≤ 128 → head.void = 0 → (∀ f ∈ data, f.void = 0) → Hd.op head.data ∈ [0, 4] → Hd.addr head.data = spBase k.toNat + off →
    off + 32 * n ≤ 0xC0000 → bitsOf (s.inMap k.toNat (BitVec.toNat (w := 7) slot)) 4 2 ≠ 3 → s.badIn (spBase k.toNat + off) (32 * n) = [] →
    ∃ t r, exec (.packetArrival k slot head data) s = .next t ∧ OnlyCoreMem s t k [] (spBase k.toNat + off) (32 * n) ∧
      (∀ j i, j < n → i < 32 → spByte t k (off + 32 * j + i) = BitVec.ofNat 8 ((data.getD j ⟨0, 0, false⟩).data.toNat / 256 ^ i)) ∧
      (t.core k.toNat).rq = (s.core k.toNat).rq ++ [r] ∧ r.toNat % 2 ^ 20 = off ∧ r.toNat / 2 ^ 20 % 256 = n ∧ r.toNat / 2 ^ 28 % 8 = 0 ∧
      r.toNat / 2 ^ 36 % 2 ^ 11 = Hd.src head.data ∧ r.toNat / 2 ^ 60 % 8 = Hd.op head.data ∧ r.toNat / 2 ^ 63 = 1

/-- A trap of a core with a cause leaves CORE_EXC with the cause and the address of the trapping instruction, the core
trapped at that address with every register and tag, queue and buffer of it as it was, and memory's bytes as they
were; HEAT_H_STATE.resumable of the heat that owns the core reads zero and its MAR_H_FAIL holds a red failure. When it
issues: an instruction that names a predicate with d[4:3] not zero, a shift immediate of 64 or more, LIS with a[4]
one, TLD or TST with d[4] one, a strict bit on a vector instruction without a strict form, and VDIV or VSQRT without
one trap with cause 1; a load or store that leaves the scratchpad traps with cause 3 and one that is not naturally
aligned inside it with cause 4; a store of tagged data outside the quarantine area traps with cause 8; MMA of two
valid descriptors, AGSAVE and AGDROP on a group that is not open trap with cause 6. -/
def Obligations.TrapEntryAndCauses : Prop :=
  (∀ (k : CoreId) cause (s : State), ∃ t, t = s.trap k.toNat cause ∧ (t.core k.toNat) = { s.core k.toNat with run := .trapped, exc := some (cause, (s.core k.toNat).pc) } ∧
    t.mem.cells = s.mem.cells ∧
    ∀ h, s.coreOwner k.toNat = some h → t.get (F.HEAT_H_STATE_resumable h) = 0 ∧ t.get (F.MAR_H_FAIL_HI_red h) = 1) ∧
  (∀ p ∈ scalarCompare, ∀ k g d a b s, Issues s k g → 8 ≤ d.toNat → exec (p.1 k g d a b) s = .next (s.trap k.toNat 1)) ∧
  (∀ p ∈ predLogic, ∀ k g d a b s, Issues s k g → 8 ≤ d.toNat → exec (p.1 k g d a b) s = .next (s.trap k.toNat 1)) ∧
  (∀ k g d a s, Issues s k g → 8 ≤ d.toNat → exec (.pnot k g d a) s = .next (s.trap k.toNat 1)) ∧
  (∀ p ∈ scalarCompareImm, ∀ k g d a imm s, Issues s k g → 8 ≤ d.toNat → exec (p.1 k g d a imm) s = .next (s.trap k.toNat 1)) ∧
  (∀ p ∈ scalarShift, ∀ k g d a imm s, Issues s k g → 64 ≤ imm.toNat → exec (p.1 k g d a imm) s = .next (s.trap k.toNat 1)) ∧
  (∀ k g d a imm s, Issues s k g → 16 ≤ a.toNat → exec (.lis k g d a imm) s = .next (s.trap k.toNat 1)) ∧
  (∀ k g d a imm s, Issues s k g → 16 ≤ d.toNat →
    exec (.tld k g d a imm) s = .next (s.trap k.toNat 1) ∧ exec (.tst k g d a imm) s = .next (s.trap k.toNat 1)) ∧
  (∀ k g d a b s, IssuesUnit s k g → ∀ i ∈ [Instr.vmax k g true d a b, Instr.vmin k g true d a b, Instr.vcmpeq k g true d a b, Instr.vcmplt k g true d a b,
      Instr.vand k g true d a b, Instr.vor k g true d a b, Instr.vxor k g true d a b, Instr.vext k g true d a b, Instr.vabs k g true d a,
      Instr.vneg k g true d a, Instr.vsum k g true d a, Instr.vrmax k g true d a, Instr.vbc k g true d a, Instr.vld k g true d a,
      Instr.vst k g true d a, Instr.vdiv k g false d a b, Instr.vsqrt k g false d a], exec i s = .next (s.trap k.toNat 1)) ∧
  (∀ k g d a b c s, IssuesUnit s k g → ∀ i ∈ [Instr.vsel k g true d a b c, Instr.vmxq k g true d a b c], exec i s = .next (s.trap k.toNat 1)) ∧
  (∀ p ∈ scalarLoads.map (fun p => (p.1, p.2.1)) ++ scalarStores, ∀ k g d a imm s off, Issues s k g →
    off = ((s.core k.toNat).sv a + BitVec.ofInt 64 imm.toInt).toNat →
    (0xC0000 < off + p.2 → exec (p.1 k g d a imm) s = .next (s.trap k.toNat 3)) ∧
    (off + p.2 ≤ 0xC0000 → off % p.2 ≠ 0 → exec (p.1 k g d a imm) s = .next (s.trap k.toNat 4))) ∧
  (∀ p ∈ scalarStores, ∀ k g d a imm s off, Issues s k g → off = ((s.core k.toNat).sv a + BitVec.ofInt 64 imm.toInt).toNat →
    off % p.2 = 0 → off + p.2 ≤ 0xC0000 →
    ¬ QuarantineOk s k ((s.core k.toNat).tagOfP g.toNat || (s.core k.toNat).tagOfS a || (s.core k.toNat).tagOfS d) off p.2 →
    exec (p.1 k g d a imm) s = .next (s.trap k.toNat 8)) ∧
  ∀ k g x ta tb tc s, IssuesUnit s k g → (s.core k.toNat).agAt x = none →
    (TD.valid ((s.core k.toNat).tv ta) = true → TD.valid ((s.core k.toNat).tv tb) = true → exec (.mma k g x ta tb) s = .next (s.trap k.toNat 6)) ∧
    exec (.agsave k g x tc) s = .next (s.trap k.toNat 6) ∧ exec (.agdrop k g x) s = .next (s.trap k.toNat 6)

/-- When it issues, CSRR or CSRW of any number that Table 6-3 and Table 7-8 leave reserved (0x00C to 0x00F and every
number from 0x01D) traps with cause 1, and CSRW of any read-only number changes no register but the count of retired
instructions, no other core, no memory and nothing of its core but pc and signatures. -/
def Obligations.ReservedCsrTraps : Prop :=
  (∀ k g d imm s, Issues s k g → (0x00C ≤ imm.toNat ∧ imm.toNat ≤ 0x00F ∨ 0x01D ≤ imm.toNat) →
    exec (.csrr k g d imm) s = .next (s.trap k.toNat 1) ∧ exec (.csrw k g d imm) s = .next (s.trap k.toNat 1)) ∧
  ∀ k g d imm s, Issues s k g → imm.toNat ∈ [0, 1, 2, 3, 4, 5, 6, 7, 9, 0x00A, 0x00B, 0x013, 0x018, 0x019, 0x01A, 0x01B, 0x01C] →
    (0x010 ≤ imm.toNat → (s.core k.toNat).attend = none) → ∃ t, exec (.csrw k g d imm) s = .next t ∧ OnlyCore s t k [retireOff k] ∧ OnlyPc (s.core k.toNat) (t.core k.toNat)

/-- Whatever core instruction a command carries, a core that is not fenced and runs, and whose pc is at or above the
code size held in CORE_ENTRY, fetches nothing: it traps with cause 2 and the instruction has no effect of its own. -/
def Obligations.FetchBound : Prop :=
  ∀ i k w s, encodeCore i = some (k, w) → s.fenced k.toNat = false → (s.core k.toNat).run = .running →
    4 * s.getA (F.CORE_ENTRY_size k.toNat) ≤ (s.core k.toNat).pc.toNat → exec i s = .next (s.trap k.toNat 2)

/-- Whatever core instruction a command carries: where the core issues it under a guard that is zero, it retires at pc
+ 4 and changes nothing else of the module. A core that is fenced, in reset, halted, trapped, waiting or done issues
nothing, and the command changes nothing. -/
def Obligations.ZeroGuardRetiresWithoutEffect : Prop :=
  (∀ i k w s, encodeCore i = some (k, w) → s.fenced k.toNat = false → (s.core k.toNat).run = .running →
    (s.core k.toNat).pc.toNat < 4 * s.getA (F.CORE_ENTRY_size k.toNat) → (s.core k.toNat).pv (w.toNat / 2 ^ 26 % 8) = false →
    ∃ t, exec i s = .next t ∧ Retired s t k i ((s.core k.toNat).pc + 4) ∧ OnlyCore s t k [retireOff k] ∧ OnlyPc (s.core k.toNat) (t.core k.toNat)) ∧
  ∀ i k w s, encodeCore i = some (k, w) → s.fenced k.toNat = true ∨ (s.core k.toNat).run ≠ .running → exec i s = .next s

/-- ATTEND, COMMIT, FORK, RELEASE, PIN and GROW are one instruction word: on an untrapped issue of a descriptor of
kind 1 to 7, aligned and in range, its identifier free and no ATTEND in progress, on a heat whose bitmaps are ready
and with no memory error recorded, each retires, takes the identifier, does to memory what the keeper's command does,
and holds its status for completion. On a core that is not heat rank 0, for kinds 6 and 7, and with a reserved bit of
word 0 set, the status is descriptor error and no memory changes; RELEASE of a sheet that is not one of the heat is a
descriptor error too. -/
def Obligations.KeeperCommands : Prop :=
  ∀ k g ta s h off d r, Issues s k g → NoErrors s → s.coreOwner k.toNat = some h → off = TD.base ((s.core k.toNat).tv ta) → off % 64 = 0 → off + 64 ≤ 0xC0000 →
    (s.core k.toNat).opFree = true → (s.core k.toNat).attend = none →
    d = (List.range 16).map (fun j => BitVec.ofNat 32 (leNat ((List.range 4).map fun i => spByte s k (off + 4 * j + i)))) →
    AD.kind d ≠ 0 → s.on (F.KV_H_STATUS_ready h) = true → r = s.keeperCmd h k.toNat (AD.kind d) d →
    (∀ i ∈ [Instr.attend k g ta, Instr.keeperCommit k g ta, Instr.keeperFork k g ta, Instr.keeperRelease k g ta, Instr.pinPage k g ta, Instr.keeperGrow k g ta],
      ∃ t, exec i s = .next t ∧ Retired s t k (.attend k g ta) ((s.core k.toNat).pc + 4) ∧ t.mem = r.1.mem ∧ (∀ j, j ≠ k.toNat → t.core j = s.core j) ∧
        OnlyPc { s.core k.toNat with attend := some { op := (s.core k.toNat).opNext, desc := off, words := d, start := s.now, ready := true, status := r.2, units := 0, heads := [], tag := (s.core k.toNat).tagOfP g.toNat || rangeTag (s.core k.toNat) off 64 }, opNext := ((s.core k.toNat).opNext + 1) % 32, busy := setBit (s.core k.toNat).busy (s.core k.toNat).opNext true } (t.core k.toNat)) ∧
    ((s.rankOf k.toNat ≠ some 0 ∨ (d.getD 0 0).toNat / 8 ≠ 0 ∨ 6 ≤ AD.kind d) → r = (s, 5)) ∧
    (AD.kind d = 3 → s.sheetOk h (KD.addr d 1) 64 = false → r = (s, 5)) ∧
    (AD.kind d = 3 → s.rankOf k.toNat = some 0 → (d.getD 0 0).toNat / 8 = 0 → s.sheetOk h (KD.addr d 1) 64 = true → r.2 = 0)

/-- ATTEND of kind 0 with an aligned descriptor in range, its identifier free, none in progress and no memory error
recorded retires and takes the identifier; a descriptor that R449 finds in error is ready to end with status 5; a good one,
whose output lies in quarantine where it is tagged, waits for every rank. ATTEND_COMPLETE of a ranked core that is neither
halted nor in reset and whose part is ready ends it: a
record of kind 4 with its status, late read where it was ok and a reply was void, and its units; a heat's ATTEND of
kind 0 is counted once, at rank 0. -/
def Obligations.AttendIssueAndEnd : Prop :=
  (∀ k g ta s off d, Issues s k g → NoErrors s → off = TD.base ((s.core k.toNat).tv ta) → off % 64 = 0 → off + 64 ≤ 0xC0000 →
    (s.core k.toNat).opFree = true → (s.core k.toNat).attend = none →
    d = (List.range 16).map (fun j => BitVec.ofNat 32 (leNat ((List.range 4).map fun i => spByte s k (off + 4 * j + i)))) → AD.kind d = 0 →
    ∀ bad tag, bad = s.attendBad ((s.coreOwner k.toNat).getD 0) k.toNat d → tag = ((s.core k.toNat).tagOfP g.toNat || s.attendTagged k.toNat off d) →
    (bad = false → tag = true → s.inQuar k.toNat (AD.obuf d) ((rootedBy d (s.kvCfg ((s.coreOwner k.toNat).getD 0)).g
      (max 1 (s.ranks ((s.coreOwner k.toNat).getD 0)).length) ((s.rankOf k.toNat).getD 0)).length * outLen (s.kvCfg ((s.coreOwner k.toNat).getD 0)) d) = true) →
    ∃ t, exec (.attend k g ta) s = .next t ∧ Retired s t k (.attend k g ta) ((s.core k.toNat).pc + 4) ∧ OnlyCore s t k [retireOff k] ∧
      OnlyPc { s.core k.toNat with attend := some { op := (s.core k.toNat).opNext, desc := off, words := d, start := s.now, ready := bad, status := if bad then 5 else 0, units := 0, heads := [], tag := tag }, opNext := ((s.core k.toNat).opNext + 1) % 32, busy := setBit (s.core k.toNat).busy (s.core k.toNat).opNext true } (t.core k.toNat)) ∧
  ∀ k late s h a, s.coreOwner k.toNat = some h → (s.core k.toNat).run ≠ .inReset → (s.core k.toNat).run ≠ .halted → (s.core k.toNat).attend = some a → a.ready = true →
    k.toNat ∈ (s.ranks h).map (·.2) →
    ∃ t, exec (.attendComplete k false late) s = .next t ∧ t.mem = s.mem ∧
      t.core k.toNat = { s.core k.toNat with attend := none, cq := (s.core k.toNat).cq ++ [compRec a.op 4 (if a.status = 0 && late then 1 else a.status) a.units] } ∧
      t.get (F.KV_H_CNT_ATTEND_count h) = (if AD.kind a.words = 0 ∧ s.rankOf k.toNat = some 0 then min (s.get (F.KV_H_CNT_ATTEND_count h) + 1) 0xFFFFFFFF else s.get (F.KV_H_CNT_ATTEND_count h)) ∧
      ∀ j, j ≠ k.toNat → t.core j = { s.core j with attend := (t.core j).attend }

/-- CORE_RESET of a core that is not fenced, not in reset and of a heat leaves it in reset: pc 0 and every scalar,
predicate but p0, descriptor, vector register, tag, group, queue and identifier at zero, instruction memory and the recall
flag kept,
NUM_CFG at its reset value CFH and its flags and counts zero; memory keeps every byte, and resumable of the heat
clears. A fenced core, one in reset, or one that no heat owns is left alone. -/
def Obligations.CoreResetCommand : Prop :=
  (∀ k s h, s.fenced k.toNat = false → (s.core k.toNat).run ≠ .inReset → s.coreOwner k.toNat = some h →
    ∃ t, exec (.coreReset k) s = .next t ∧ (t.core k.toNat).run = .inReset ∧ (t.core k.toNat).pc = 0 ∧ (t.core k.toNat).imem = (s.core k.toNat).imem ∧ (t.core k.toNat).recallFlag = (s.core k.toNat).recallFlag ∧
      (∀ r, (t.core k.toNat).sv r = 0) ∧ (∀ i, i < 8 → (t.core k.toNat).pv i = (i == 0)) ∧ (∀ r, (t.core k.toNat).tv r = 0) ∧
      (∀ r, (t.core k.toNat).vv r = List.replicate 64 0) ∧ (t.core k.toNat).anyTag = false ∧ (t.core k.toNat).ag = [] ∧
      (t.core k.toNat).cq = [] ∧ (t.core k.toNat).hq = [] ∧ (t.core k.toNat).rq = [] ∧ (t.core k.toNat).opNext = 0 ∧ (t.core k.toNat).busy = 0 ∧
      t.rd (R.NUM_CFG k.toNat) = 0xCF ∧ (∀ r ∈ [R.NUM_FLAGS k.toNat, R.NUM_SEED k.toNat, R.NUM_LAST k.toNat, R.NUM_CNT_SAT k.toNat, R.NUM_PFLAGS k.toNat], t.rd r = 0) ∧
      t.get (F.HEAT_H_STATE_resumable h) = 0 ∧ t.mem.cells = s.mem.cells) ∧
  ∀ k s, s.fenced k.toNat = true ∨ (s.core k.toNat).run = .inReset ∨ s.coreOwner k.toNat = none → exec (.coreReset k) s = .next s

/-- DMA_DESCRIPTOR of a running core's first chain, whose descriptor breaks a rule, ends the chain with status
descriptor error and counts it. Of a descriptor that fills 1 to 128 units of 32 bytes in the core's own scratchpad, the
only one of its chain, with no line of the core tagged and no memory error recorded, it writes exactly those bytes with
the fill word and ends the chain with its units. DMA_CHAIN_COMPLETE of an ended chain takes it off the queue, enters one
record of kind 3 with its status and units, and writes words 14 and 15 of the last descriptor; of a chain that has not
ended, and without one, it changes nothing. -/
def Obligations.DmaChains : Prop :=
  (∀ k s x rest, s.fenced k.toNat = false → (s.core k.toNat).run ≠ .inReset → (s.core k.toNat).dma = x :: rest → x.ended = false → x.begun = false →
    (x.at_ % 64 ≠ 0 ∨ 0xC0000 < x.at_ + 64 ∨ s.coreOwner k.toNat = none) →
    ∃ t y, exec (.dmaDescriptor k) s = .next t ∧ OnlyCore s t k [(R.DMA_C_CNT_ERR k.toNat).off] ∧ t.core k.toNat = { s.core k.toNat with dma := y :: rest } ∧
      y.op = x.op ∧ y.ended = true ∧ y.status = 5 ∧ y.total = x.total ∧
      t.get (F.DMA_C_CNT_ERR_count k.toNat) = min (s.get (F.DMA_C_CNT_ERR_count k.toNat) + 1) 0xFFFFFFFF) ∧
  (∀ k s x rest h d dst n, s.fenced k.toNat = false → (s.core k.toNat).run = .running → NoErrors s → s.memWf → s.coreOwner k.toNat = some h →
    (s.core k.toNat).ag = [] → (s.core k.toNat).tagL = [] → (s.core k.toNat).dma = x :: rest → x.ended = false → x.begun = false → x.count = 0 → x.at_ % 64 = 0 → x.at_ + 64 ≤ 0xC0000 →
    d = (List.range 16).map (fun j => BitVec.ofNat 32 (leNat ((List.range 4).map fun i => spByte s k (x.at_ + 4 * j + i)))) →
    DD.op d = 5 → DD.usrc d = false → DD.udst d = false → DD.chain d = false → n = DD.units d → 1 ≤ n → n ≤ 128 → DD.dst d = spBase k.toNat + dst → dst % 32 = 0 → dst + 32 * n ≤ 0xC0000 →
    ∃ t y, exec (.dmaDescriptor k) s = .next t ∧ OnlyCoreMem s t k [(R.DMA_C_CNT_UNITS k.toNat).off] (spBase k.toNat + dst) (32 * n) ∧
      (∀ i, i < 32 * n → spByte t k (dst + i) = BitVec.ofNat 8 (DD.aux d / 256 ^ (i % 4))) ∧
      t.core k.toNat = { s.core k.toNat with dma := y :: rest } ∧ y.ended = true ∧ y.status = x.status ∧ y.total = x.total + n) ∧
  (∀ k s x rest, (s.core k.toNat).dma = x :: rest → x.ended = true → NoErrors s → (s.core k.toNat).ag = [] →
    ∃ t, exec (.dmaChainComplete k) s = .next t ∧ OnlyCoreMem s t k [] (spBase k.toNat + x.at_ + 56) 8 ∧
      t.core k.toNat = { s.core k.toNat with dma := rest, cq := (s.core k.toNat).cq ++ [compRec x.op 3 x.status x.total] }) ∧
  ∀ k s, (∀ x ∈ (s.core k.toNat).dma.head?, x.ended = false) → exec (.dmaChainComplete k) s = .next s

/-- STAGE_REQUEST of a far unit that no line holds, at an attachment with fewer than 4,096 lines, counts it, appends a
line and issues one read of 4,096 bytes at the host address of its translation entry, where the page is mapped and no
memory error is recorded; where it is not mapped the line fails with class 7 and no read leaves. FAR_READ_COMPLETION of
a good completion adds its bytes and, when none are left, stages the line behind those staged before; of a poisoned one
it fails the line with class 4, of an error with class 6. STAGE_TIMEOUT fails a line with class 5 stage_to ms after its
request, and before that changes nothing. -/
def Obligations.FarWindow : Prop :=
  (∀ att k unit s, s.stageLine (Fin.val (n := 2) att) (BitVec.toNat (w := 31) unit) = none → NoErrors s → (s.mem.stage.filter fun l => l.att == att.val).length < 4096 →
    ∃ t l, exec (.stageRequest att k unit) s = .next t ∧ t.mem = { s.mem with stage := s.mem.stage ++ [l] } ∧ l.att = att.val ∧ l.unit = unit.toNat ∧ l.core = k.toNat ∧ l.ms = s.boot.ms ∧
      l.staged = false ∧ l.data = [] ∧ t.get F.DMA_CNT_STAGE_count = min (s.get F.DMA_CNT_STAGE_count + 1) 0xFFFFFFFF ∧
      (∀ e, s.fwEntry att.val unit.toNat = some e → l.fail = 0 ∧ l.left = 4096 ∧ l.host = e / 2 ^ 21 * 2 ^ 21 + unit.toNat % 512 * 4096 ∧
        t.outbox = .hostRead att.val l.host 4096 :: s.outbox ∧ t.cores = s.cores) ∧
      (s.fwEntry att.val unit.toNat = none → l.fail = 7)) ∧
  (∀ att unit status bytes s l, s.stageLine (Fin.val (n := 2) att) (BitVec.toNat (w := 31) unit) = some l → l.staged = false → l.fail = 0 →
    ∃ t m, exec (.farReadCompletion att unit status bytes) s = .next t ∧
      m = s.mem.stage.map (fun x => if x.att = att.val ∧ x.unit = unit.toNat then
        (if status = 0 then { x with data := x.data ++ bytes.take x.left, left := l.left - bytes.length, staged := decide (l.left ≤ bytes.length) }
          else { x with fail := if status = 1 then 4 else 6 }) else x) ∧
      t.mem.stage = (if status = 0 ∧ l.left ≤ bytes.length then m.filter (fun x => ¬ (x.att = att.val ∧ x.unit = unit.toNat)) ++
        m.filter (fun x => x.att = att.val ∧ x.unit = unit.toNat) else m) ∧
      (status = 0 → t.regs = s.regs ∧ t.cores = s.cores)) ∧
  ∀ att unit s l, s.stageLine (Fin.val (n := 2) att) (BitVec.toNat (w := 31) unit) = some l → l.staged = false → l.fail = 0 →
    (s.boot.ms < l.ms + s.get F.DMA_CFG_stage_to → exec (.stageTimeout att unit) s = .next s) ∧
    (l.ms + s.get F.DMA_CFG_stage_to ≤ s.boot.ms → ∃ t, exec (.stageTimeout att unit) s = .next t ∧
      t.mem.stage = s.mem.stage.map (fun x => if x.att = att.val ∧ x.unit = unit.toNat then { x with fail := 5 } else x) ∧
      t.get F.DMA_CNT_FAR_count = min (s.get F.DMA_CNT_FAR_count + 1) 0xFFFFFFFF)

/-- A read request without a void that a slice answers for a requester of its reply map, for a range it holds, owes a
reply of the bytes that stand then, due after 384 fc; a write of op 0 stores exactly its flits' bytes, with no memory
error recorded, and owes an acknowledgement; an op of 2 or more changes no memory. SLICE_REPLY before the first reply
is due changes nothing; when it is due, it leaves for the requester's offsets as a head and its data. CE_WINDOW clears
every unit's count at laps that are multiples of 1,024 and changes nothing otherwise. PATROL_GRANULE of a slice in
service with nothing found steps its granule. -/
def Obligations.MemoryTargets : Prop :=
  (∀ (n : BitVec 8) head nf s, VFlit.void head = 0 → s.answers n.toNat (Hd.src head.data) = true → s.targetHolds n.toNat (Hd.addr head.data) (32 * BitVec.toNat (w := 8) nf) = true → NoErrors s →
    ∃ r, exec (.sliceReadRequest (.slice n) head nf) s = .next { s with mem := { s.mem with replies := Tab.put n.toNat (Tab.get [] s.mem.replies n.toNat ++ [r]) s.mem.replies } } ∧
      r.src = Hd.src head.data ∧ r.tag = Hd.tag head.data ∧ r.n = nf.toNat ∧ r.due = s.now + 384 ∧ r.status = 0 ∧ r.void = false ∧
      ∀ i, i < 32 * nf.toNat → r.data.getD i 0 = Cells.get s.mem.cells (Hd.addr head.data + i)) ∧
  (∀ (n : BitVec 8) head data s, VFlit.void head = 0 → (∀ f ∈ data, VFlit.void f = 0) → Hd.op head.data = 0 → s.answers n.toNat (Hd.src head.data) = true →
    s.targetHolds n.toNat (Hd.addr head.data) (32 * data.length) = true → NoErrors s → s.memWf →
    ∃ t r, exec (.sliceWritePacket (.slice n) head data) s = .next t ∧
      t = { s with mem := { s.mem with cells := t.mem.cells, replies := Tab.put n.toNat (Tab.get [] s.mem.replies n.toNat ++ [r]) s.mem.replies } } ∧
      r.src = Hd.src head.data ∧ r.n = 0 ∧ r.status = 0 ∧ r.due = s.now + 384 ∧
      (∀ j i, j < data.length → i < 32 → Cells.get t.mem.cells (Hd.addr head.data + 32 * j + i) = BitVec.ofNat 8 ((data.getD j ⟨0, 0, false⟩).data.toNat / 256 ^ i)) ∧
      ∀ x, x < Hd.addr head.data ∨ Hd.addr head.data + 32 * data.length ≤ x → Cells.get t.mem.cells x = Cells.get s.mem.cells x) ∧
  (∀ (n : BitVec 8) head data s, VFlit.void head = 0 → 2 ≤ Hd.op head.data → ∃ t, exec (.sliceWritePacket (.slice n) head data) s = .next t ∧ t.mem = s.mem ∧ t.cores = s.cores) ∧
  (∀ (n : BitVec 8) s r rest, Tab.get [] s.mem.replies n.toNat = r :: rest →
    (s.now < r.due → exec (.sliceReply (.slice n)) s = .next s) ∧
    (r.due ≤ s.now → NoErrors s → ∃ t, exec (.sliceReply (.slice n)) s = .next t ∧ Tab.get [] t.mem.replies n.toNat = rest ∧ t.mem.cells = s.mem.cells ∧ t.regs = s.regs ∧ t.cores = s.cores ∧
      Tab.get [] t.mem.lanes (n.toNat * 2048 + r.src) = Tab.get [] s.mem.lanes (n.toNat * 2048 + r.src) ++ (replyFlits n.toNat r).map fun f => (false, f))) ∧
  (∀ s, s.lapN % 1024 = 0 → exec .ceWindow s = .next { s with mem := { s.mem with ce := [] } }) ∧ (∀ s, s.lapN % 1024 ≠ 0 → exec .ceWindow s = .next s) ∧
  ∀ (n : BitVec 8) s i, s.on F.DMA_CFG_patrol_en = true → 12 < s.boot.step → bitsOf (s.rd (R.STA_OOSS (n.toNat / 32))) (n.toNat % 32) 1 = 0 →
    i = Tab.get 0 s.mem.patrol n.toNat → i + 1 < 0x48000000 / 32 → NoErrors s →
    exec (.patrolGranule (.slice n) 0) s = .next { s with mem := { s.mem with patrol := Tab.put n.toNat (i + 1) s.mem.patrol } }

/-- A BAR2 access goes to base plus offset where the window, one region of the map and the attachment's heat admit it: a
read returns the bytes there, a write that the attachment has room for stores exactly its bytes, in a slice with no
memory error recorded. A write that finds fewer bytes of the 1 MiB free than it has is not sent. A dropped access
returns ones, stores nothing and is counted; one that reaches memory of another heat stores nothing. BAR2_RESIZE sets
the window to 2^(30+size) bytes. A write of a base register keeps only the bits at and above the window's size. -/
def Obligations.HostMemoryWindow : Prop :=
  (∀ pf off len s a, s.barWay (Fin.val (n := 2) pf) (BitVec.toNat (w := 39) off) (BitVec.toNat (w := 13) len) = .go a → NoErrors s →
    exec (.bar2Read pf off len) s = .next (s.send (.bar2Data pf.val ((List.range len.toNat).map fun i => Cells.get s.mem.cells (a + i)) false)) ∧ a = s.bar2Base pf.val + off.toNat) ∧
  (∀ pf off len s, s.barWay (Fin.val (n := 2) pf) (BitVec.toNat (w := 39) off) (BitVec.toNat (w := 13) len) = .drop → ∃ t, exec (.bar2Read pf off len) s = .next t ∧
    t.outbox = .bar2Data pf.val (List.replicate len.toNat 0xFF) false :: s.outbox ∧ t.mem = s.mem ∧ t.get F.DMA_EVT_hostdrop = 1 ∧
    t.get F.DMA_CNT_HOSTDROP_count = min (s.get F.DMA_CNT_HOSTDROP_count + 1) 0xFFFFFFFF) ∧
  (∀ pf off bytes s a, s.barWay (Fin.val (n := 2) pf) (BitVec.toNat (w := 39) off) bytes.length = .go a → NoErrors s → s.memWf → a + bytes.length ≤ 256 * 0x48000000 →
    Tab.get 0 s.mem.posted pf.val + bytes.length ≤ 0x100000 →
    ∃ t, exec (.bar2Write pf off bytes false) s = .next t ∧
      t = { s with mem := { s.mem with cells := t.mem.cells, posted := Tab.put pf.val (Tab.get 0 s.mem.posted pf.val + bytes.length) s.mem.posted } } ∧
      (∀ i, i < bytes.length → Cells.get t.mem.cells (a + i) = bytes.getD i 0) ∧ ∀ x, x < a ∨ a + bytes.length ≤ x → Cells.get t.mem.cells x = Cells.get s.mem.cells x) ∧
  (∀ pf off bytes poison s, 0x100000 < Tab.get 0 s.mem.posted (Fin.val (n := 2) pf) + bytes.length →
    exec (.bar2Write pf off bytes poison) s = .next (s.send (.noCredit pf.val))) ∧
  (∀ pf off bytes poison s, s.barWay (Fin.val (n := 2) pf) (BitVec.toNat (w := 39) off) bytes.length = .drop → Tab.get 0 s.mem.posted pf.val + bytes.length ≤ 0x100000 →
    ∃ t, exec (.bar2Write pf off bytes poison) s = .next t ∧ t.mem = { s.mem with posted := t.mem.posted } ∧ t.get F.DMA_CNT_HOSTDROP_count = min (s.get F.DMA_CNT_HOSTDROP_count + 1) 0xFFFFFFFF) ∧
  (∀ pf off bytes poison s h, s.barWay (Fin.val (n := 2) pf) (BitVec.toNat (w := 39) off) bytes.length = .foreign h → Tab.get 0 s.mem.posted pf.val + bytes.length ≤ 0x100000 →
    ∃ t, exec (.bar2Write pf off bytes poison) s = .next t ∧ t.mem = { s.mem with posted := t.mem.posted }) ∧
  (∀ pf size s, ∃ t, exec (.bar2Resize pf size) s = .next t ∧ t.bar2Log pf.val = 30 + size.val ∧ t = { s with mem := { s.mem with bar2 := t.mem.bar2 } }) ∧
  (∀ p v s, s.bar2Log 0 ≤ 32 → ∃ t, exec (.dmaBar2BaseWrite p 0 true v) s = .next t ∧ t.get F.DMA_BAR2_BASE0_HI_base_hi = v.toNat % 65536 ∧ t.mem = s.mem) ∧
  ∀ p hi v s, 32 ≤ s.bar2Log 1 → s.bar2Log 1 ≤ 39 → ∃ t, exec (.dmaBar2BaseWrite p 1 hi v) s = .next t ∧
    t.get (if hi then F.DMA_BAR2_BASE1_HI_base_hi else F.DMA_BAR2_BASE1_LO_base_lo) = if hi then v.toNat % 65536 / 2 ^ (s.bar2Log 1 - 32) * 2 ^ (s.bar2Log 1 - 32) else 0

/-- A write narrower than a word, one that its path does not reach, to an offset that names no register, to an active copy
or to an RO register changes nothing. Of a register without an effect of its own and not refused by R323: a W1C write
clears exactly the bits that are one and that no event has set in the same fc; a write of an RW register, of an RWL one
while unlocked, and of a WS one whose heat is not busy replaces its fields, and the word that a masthead buffer's write
replaces is kept for the lowerings of the fc (R115). A locked RWL write, other than to a heat's geometry in a busy state, is
refused, counted and logged yellow; a WS write to a busy heat, and a write of a NUM_ register of a running heat's core, is
refused and counted. Replacing fields takes each new field but for a reserved encoding, which keeps the old. -/
def Obligations.RegisterWriteKinds : Prop :=
  (∀ p a off v s, a ≠ .word → exec (.registerWrite p a off v) s = .next s) ∧
  (∀ p a off v s, s.reaches p (BitVec.toNat (w := 26) off) = false → exec (.registerWrite p a off v) s = .next s) ∧
  (∀ p a off v s, regNamed (BitVec.toNat (w := 26) off) = none → exec (.registerWrite p a off v) s = .next s) ∧
  (∀ p a off v s r l, regNamed (BitVec.toNat (w := 26) off) = some (r, l, true) → exec (.registerWrite p a off v) s = .next s) ∧
  (∀ p off v s r l, s.reaches p (BitVec.toNat (w := 26) off) = true → regNamed off.toNat = some (r, l, false) → s.regDoes p r l v.toNat = none →
    (r.acc = .ro → exec (.registerWrite p .word off v) s = .next s) ∧
    (s.numBusy r l = true → r.acc ≠ .ro → exec (.registerWrite p .word off v) s = .next (s.refuseWrite false off.toNat)) ∧
    (s.numBusy r l = false →
      (r.acc = .w1c → ∃ t w, exec (.registerWrite p .word off v) s = .next t ∧ t = { s with regs := Tab.put off.toNat w s.regs } ∧
        ∀ i, i < 32 → w.getLsbD i = ((s.regVal r l false).1.testBit i && (!v.getLsbD i || (Tab.get 0 s.sets off.toNat).getLsbD i))) ∧
      ((r.acc = .rw ∧ r.name ≠ "NUM_SEED" ∨ r.acc = .rwl ∧ s.locked = false ∧ r.name ∉ ["HEAT_H_GEOM", "LAP_CFG"] ∨ r.acc = .ws ∧ s.wsBusy r l = false) →
        r.name ∉ ["MSH_SLT_DATA", "CORE_SMAP_DATA", "DMA_RMAP_DATA"] → ∃ t, exec (.registerWrite p .word off v) s = .next t ∧
          t = { s with regs := Tab.put off.toNat (BitVec.ofNat 32 (mergeFields (s.regVal r l false).1 v.toNat r.fields)) s.regs, was := t.was } ∧
          t.was = if r.name = "HAL_LBUF" ∧ Tab.find s.was off.toNat = none then Tab.put off.toNat (BitVec.ofNat 32 (s.regVal r l false).1) s.was else s.was) ∧
      (r.acc = .rwl → s.locked = true → exec (.registerWrite p .word off v) s = .next (s.refuseWrite true off.toNat)) ∧
      (r.acc = .ws → s.wsBusy r l = true → exec (.registerWrite p .word off v) s = .next (s.refuseWrite false off.toNat)))) ∧
  (∀ (s : State) off, (s.refuseWrite false off).get F.MAR_CNT_LOCKWR_count = min (s.get F.MAR_CNT_LOCKWR_count + 1) 0xFFFFFFFF ∧ (s.refuseWrite false off).get F.MAR_EVT_lockwr = 1 ∧
    (s.refuseWrite true off).get F.MAR_CNT_LOCKWR_count = min (s.get F.MAR_CNT_LOCKWR_count + 1) 0xFFFFFFFF ∧
    (s.refuseWrite true off).get F.MAR_CNT_YELLOW_count = min (s.get F.MAR_CNT_YELLOW_count + 1) 0xFFFFFFFF) ∧
  ∀ r ∈ regSpecs, ∀ f ∈ r.fields, ∀ old new, bitsOf (mergeFields old new r.fields) f.lo f.n =
    bitsOf (if f.bad.any fun b => decide (b.1 ≤ bitsOf new f.lo f.n ∧ bitsOf new f.lo f.n ≤ b.2) then old else new) f.lo f.n

/-- A read of any width puts the addressed bytes of one data word on the path: all ones where the path does not reach the
offset or it names no register; the captured word where the path has captured the offset; the register's value
otherwise. A read of LAP_NOW_LO returns the low 32 bits of the lap and captures, for that path, LAP_NOW_HI and LAP_POS,
which that path then reads as captured, whatever the time; no command but for the capture and the word changes anything. -/
def Obligations.RegisterReads : Prop :=
  (∀ (off : BitVec 26) v, (off.toNat % 4 = 0 → narrow .word off v = v) ∧
    (off.toNat % 2 = 0 → (narrow .half off v).toNat = v.toNat / 256 ^ (off.toNat % 4) % 65536) ∧
    (narrow .byte off v).toNat = v.toNat / 256 ^ (off.toNat % 4) % 256) ∧
  (∀ p a off s w, w = BitVec.toNat (w := 26) off / 4 * 4 → (s.reaches p w = false ∨ regNamed w = none) →
    exec (.loReadCapture p a off) s = .next (s.send (.busData p off.toNat (narrow a off 0xFFFFFFFF)))) ∧
  (∀ p a off s w r l b v, w = BitVec.toNat (w := 26) off / 4 * 4 → s.reaches p w = true → regNamed w = some (r, l, b) → Tab.find s.caps (capKey p w) = some v →
    exec (.loReadCapture p a off) s = .next (s.send (.busData p off.toNat (narrow a off v)))) ∧
  (∀ p a off s w r l b, w = BitVec.toNat (w := 26) off / 4 * 4 → s.reaches p w = true → regNamed w = some (r, l, b) → Tab.find s.caps (capKey p w) = none →
    (∀ x ∈ loRegs, x.1 ≠ r.base) → exec (.loReadCapture p a off) s = .next ((s.regVal r l b).2.send (.busData p off.toNat (narrow a off (BitVec.ofNat 32 (s.regVal r l b).1))))) ∧
  ∀ p a s, s.reaches p 0x10 = true → Tab.find s.caps (capKey p 0x10) = none → ∃ t, exec (.loReadCapture p a 0x10) s = .next t ∧
    t = { s with caps := t.caps, outbox := .busData p 0x10 (narrow a 0x10 (BitVec.ofNat 32 s.lapN)) :: s.outbox } ∧
    Tab.find t.caps (capKey p 0x14) = some (BitVec.ofNat 32 (s.lapN / 2 ^ 32)) ∧ Tab.find t.caps (capKey p 0x18) = some (BitVec.ofNat 32 s.pos.toNat) ∧
    ∀ u, u.caps = t.caps → u.reaches p 0x14 = true → exec (.loReadCapture p .word 0x14) u = .next (u.send (.busData p 0x14 (BitVec.ofNat 32 (s.lapN / 2 ^ 32))))

/-- NUM_SEED of a core of no running heat takes the value and reseeds that core's generators. HCONS takes the index
and clears hring_full where the ring has room. The first write of MAR_LOCK consumes it and locks with bit 0 set; a
later one is refused. MAR_SVC, unlocked, sets service mode from bit 0. MAR_INJ_CTL arms an admitted injection in
service mode and is discarded outside it; when due, an admitted one clears arm, sets done and acts: kind 7 flips a
residue, kind 8 mutes its region. HOLD_REQ and RELEASE set and withdraw a command hold outside a hold. A BTN_P_CTL
write that leaves a disabled port disabled sets en and auto only. -/
def Obligations.RegisterWritesWithEffects : Prop :=
  (∀ p k v s h, s.coreOwner (BitVec.toNat (w := 11) k) = h → (∀ j, h = some j → heatLive (s.heatSt j) = false) → ∃ t, exec (.numSeedWrite p k v) s = .next t ∧ OnlyCore s t k [(R.NUM_SEED k.toNat).off] ∧
    t.rd (R.NUM_SEED k.toNat) = v.toNat ∧ t.core k.toNat = { s.core k.toNat with gens := [], seed := v, genId := match s.rankOf k.toNat with | some r => r | none => k.toNat + 2048 }) ∧
  (∀ p h v s, ∃ t, exec (.hconsWrite p h v) s = .next t ∧ t = { s with regs := t.regs } ∧ t.get (F.HEAT_H_REL_HCONS_hcons (BitVec.toNat (w := 5) h)) = v.toNat % 2 ^ 17 ∧
    t.get (F.HEAT_H_REL_STATUS_hring_full h.toNat) = if s.relM h.toNat ≤ ((s.relH h.toNat).recs + 2 ^ 17 - v.toNat % 2 ^ 17) % 2 ^ 17 then s.get (F.HEAT_H_REL_STATUS_hring_full h.toNat) else 0) ∧
  (∀ p v s, s.mar.lockUsed = false → ∃ t, exec (.marLockWrite p v) s = .next t ∧ t.mar = { s.mar with lockUsed := true } ∧ (v.getLsbD 0 = true → t.locked = true ∧ t.get F.MAR_LOCK_lock = 1) ∧ (v.getLsbD 0 = false → t.regs = s.regs)) ∧
  (∀ p v s, s.mar.lockUsed = true → exec (.marLockWrite p v) s = .next (s.refuseWrite true R.MAR_LOCK.off)) ∧
  (∀ p v s, s.locked = false → ∃ t, exec (.marSvcWrite p v) s = .next t ∧ t = { s with regs := t.regs } ∧ t.get F.MAR_SVC_on = (v.getLsbD 0).toNat ∧ t.get F.MAR_STATUS_service = (v.getLsbD 0).toNat) ∧
  (∀ p v s, s.locked = true → exec (.marSvcWrite p v) s = .next (s.refuseWrite true R.MAR_SVC.off)) ∧
  (∀ p v s, s.on F.MAR_SVC_on = false → exec (.injectionArm p v) s = .next s) ∧
  (∀ p v s, s.on F.MAR_SVC_on = true → s.on F.MAR_INJ_CTL_arm = false → v.toNat % 16 < 13 → v.getLsbD 4 = true → s.injOk (v.toNat % 16) (s.get F.MAR_INJ_SITE_site) (s.get F.MAR_INJ_SITE_heat) = true →
    ∃ t, exec (.injectionArm p v) s = .next t ∧ t = { s with regs := t.regs } ∧ t.get F.MAR_INJ_CTL_kind = v.toNat % 16 ∧ t.get F.MAR_INJ_CTL_arm = 1 ∧ t.get F.MAR_INJ_CTL_done = 0 ∧ t.get F.MAR_INJ_CTL_cancelled = 0) ∧
  (∀ (s : State) at_, at_ = (s.get F.MAR_INJ_LAP_lap_lo + s.get F.MAR_INJ_POS_lap_hi * 2 ^ 32) * 262144 + 128 * s.get F.MAR_INJ_POS_stride →
    (s.on F.MAR_INJ_CTL_arm = false ∨ s.now < at_ → exec .injectionActs s = .next s) ∧
    (s.on F.MAR_INJ_CTL_arm = true → at_ ≤ s.now → s.on F.MAR_SVC_on = true → s.get F.MAR_INJ_CTL_kind ∈ [7, 8] →
      s.injOk (s.get F.MAR_INJ_CTL_kind) (s.get F.MAR_INJ_SITE_site) (s.get F.MAR_INJ_SITE_heat) = true → ∃ t, exec .injectionActs s = .next t ∧
      t.get F.MAR_INJ_CTL_arm = 0 ∧ t.get F.MAR_INJ_CTL_done = 1 ∧ t.get F.MAR_EVT_injected = 1 ∧ t.cores = s.cores ∧ t.mem = s.mem ∧
      (s.get F.MAR_INJ_CTL_kind = 7 → (t.halH (s.get F.MAR_INJ_SITE_heat)).flip = true) ∧ (s.get F.MAR_INJ_CTL_kind = 8 → t.mar.mute = s.get F.MAR_INJ_SITE_site :: s.mar.mute))) ∧
  (∀ p s, s.boot.holdAt = none → exec (.staCtlHoldReq p) s = .next (s.put F.STA_CTL_hold_req 1)) ∧ (∀ p s, s.boot.holdAt ≠ none → exec (.staCtlHoldReq p) s = .next s) ∧
  (∀ p s, s.boot.holdAt = none → s.on F.STA_CTL_hold_req = true → exec (.staCtlRelease p) s = .next (s.put F.STA_CTL_hold_req 0)) ∧
  (∀ p s, s.boot.holdAt ≠ none → s.get F.STA_BOOT_state ≠ 3 → exec (.staCtlRelease p) s = .next s) ∧
  ∀ p port v s, s.portEnabled (Fin.val (n := 12) port) = false → BitVec.getLsbD (w := 32) v 0 = false → ∃ t, exec (.btnPCtlRetrain p port v) s = .next t ∧ t = { s with regs := t.regs } ∧
    t.get (F.BTN_P_CTL_en port.val) = 0 ∧ t.get (F.BTN_P_CTL_auto port.val) = v.toNat / 4 % 2 ∧ t.portSt port.val = s.portSt port.val

/-- A bid while no lap of the window is left, on a port that is not up, or not a sealed control block of kind 1 changes
nothing. In the window it raises the highest lap count seen, and when the same pair came on its port in the lap before it
becomes the best bid if it is lower in (priority, address). At the end of the 32 laps a module whose own address is the best
bid's, with a port up, becomes pacer, with the count above the highest seen to come; another follows that address, and logs
and counts it where it bid priority 0 itself and lost to priority 0; without a bid or a port the module free-runs and says
so in STA_DEGR. The end changes nothing before. That every valid bid raises the highest count, and not the accepted ones
alone, is the model's choice (log entry 69). -/
def Obligations.LapElection : Prop :=
  (∀ port blk s, (s.laps.electing = none ∨ s.laps.electing = some 0 ∨ s.portUp (Fin.val (n := 12) port) = false ∨ CB.ok blk = false ∨ CB.kind blk ≠ 1) → exec (.bidReceived port blk) s = .next s) ∧
  (∀ port blk s w, s.laps.electing = some (w + 1) → s.portUp (Fin.val (n := 12) port) = true → CB.ok blk = true → CB.kind blk = 1 →
    ∃ t, exec (.bidReceived port blk) s = .next t ∧ t = { s with laps := { s.laps with ports := t.laps.ports, highest := max s.laps.highest (CB.lap blk), best := t.laps.best } } ∧
      (t.lapPort port.val).bid = some (CB.pri blk, CB.pacer blk, s.lapN) ∧ (t.lapPort port.val).lock = (s.lapPort port.val).lock ∧ (∀ q, q ≠ port.val → t.lapPort q = s.lapPort q) ∧
      t.laps.best = if (s.lapPort port.val).bid = some (CB.pri blk, CB.pacer blk, s.lapN - 1) ∧ s.lapN ≠ 0 then
        (match s.laps.best with
          | some b => some (if CB.pri blk < b.1 ∨ CB.pri blk = b.1 ∧ CB.pacer blk < b.2 then (CB.pri blk, CB.pacer blk) else b)
          | none => some (CB.pri blk, CB.pacer blk)) else s.laps.best) ∧
  (∀ s, s.laps.electing ≠ some 0 → exec .electionWindowEnd s = .next s) ∧
  (∀ s pri, s.laps.electing = some 0 → s.laps.best = some (pri, s.selfAddr) → pri < 16 → s.selfAddr < 1024 → s.upPorts ≠ [] → ∃ t, exec .electionWindowEnd s = .next t ∧
    t = { s with laps := { s.laps with electing := none, raise_ := some (max s.laps.highest s.lapN + 1), locked1 := true, holdL0 := none, known := true, clash := false }, regs := t.regs } ∧
    t.lapState = 2 ∧ t.get F.LAP_STATUS_parent = 15 ∧ t.get F.LAP_STATUS_hops = 0 ∧ t.get F.LAP_PACER_addr = s.selfAddr ∧ t.get F.LAP_PACER_pri = pri ∧ t.get F.LAP_PACER_forced = 0 ∧
    t.get F.LAP_STATUS_ref_used = (s.on F.LAP_STATUS_ref_ok).toNat ∧ t.get F.LAP_PACER_ref = (s.on F.LAP_STATUS_ref_ok).toNat) ∧
  (∀ s pri addr, s.laps.electing = some 0 → s.laps.best = some (pri, addr) → addr ≠ s.selfAddr → addr < 1024 → pri < 16 → s.upPorts ≠ [] →
    ∃ t, exec .electionWindowEnd s = .next t ∧ t.laps = { s.laps with electing := none, known := true } ∧ t.lapState = 0 ∧ t.get F.LAP_PACER_addr = addr ∧ t.get F.LAP_PACER_pri = pri ∧
      (pri ≠ 0 ∨ s.laps.own.map (·.1) ≠ some 0 → t = { s with laps := t.laps, regs := t.regs } ∧ t.get F.LAP_CNT_CONFLICT_count = s.get F.LAP_CNT_CONFLICT_count) ∧
      (pri = 0 → s.laps.own.map (·.1) = some 0 → t.get F.LAP_EVT_conflict = 1 ∧ t.get F.LAP_CNT_CONFLICT_count = min (s.get F.LAP_CNT_CONFLICT_count + 1) 0xFFFFFFFF ∧
        t.get F.MAR_CNT_YELLOW_count = min (s.get F.MAR_CNT_YELLOW_count + 1) 0xFFFFFFFF)) ∧
  ∀ s, s.laps.electing = some 0 → (s.laps.best = none ∨ s.upPorts = []) → ∃ t, exec .electionWindowEnd s = .next t ∧ t.lapState = 5 ∧ t.get F.STA_DEGR_free_run = 1 ∧ t.laps = { s.laps with electing := none } ∧
    t.get F.MAR_CNT_YELLOW_count = min (s.get F.MAR_CNT_YELLOW_count + 1) 0xFFFFFFFF

/-- LAP_MARKER_RECEIVED of a valid block of another kind, or at a port that is not up, changes nothing, and before S-17
counts a valid marker and no more. At a locked port the next lap's marker within 2 fc of its instant replaces the
stream; the parent's, of the pacer known, also gives LAP_STATUS.hops and LAP_PHASE. Any other block counts LAP_CNT_BAD,
and the third in turn loses the lock; the stream goes on by a lap where the block stands for the due marker (log entry
66). At a port without lock a valid marker that extends no candidate becomes one, the fifth in place of the first, one
that extends a candidate replaces it, and the fourth in turn locks. MARKER_MISSING before the local boundary plus the
delay plus 256 fc changes nothing, and then counts a bad marker; the last port's loss makes a follower hold over.
HOLDOVER_EXPIRED acts from lap L0 + 65, once: the module free-runs, and every heat of a team is red. -/
def Obligations.LapMarkersAndHoldover : Prop :=
  (∀ port pos sub blk s, (s.portUp (Fin.val (n := 12) port) = false ∨ CB.ok blk = true ∧ CB.kind blk ≠ 0) → exec (.lapMarkerReceived port pos sub blk) s = .next s) ∧
  (∀ port pos sub blk s, s.portUp (Fin.val (n := 12) port) = true → (CB.ok blk = false ∨ CB.kind blk = 0) → s.laps.s17 = false →
    exec (.lapMarkerReceived port pos sub blk) s = .next (if CB.ok blk = true then s.bump F.LAP_CNT_RX_count else s)) ∧
  (∀ port pos sub blk s l at_, s.portUp (Fin.val (n := 12) port) = true → s.laps.s17 = true → (s.lapPort port.val).lock = some l → CB.ok blk = true → CB.kind blk = 0 → CB.lap blk = l.lap + 1 →
    at_ = (s.lapN * 262144 + BitVec.toNat (w := 18) pos) * 16 + BitVec.toNat (w := 4) sub - CB.lag blk → at_ ≤ l.time + 4194304 + 32 → l.time + 4194304 ≤ at_ + 32 →
    (lockOf blk at_).bad = 0 ∧ (lockOf blk at_).lap = CB.lap blk ∧ (lockOf blk at_).time = at_ ∧
    (s.lapState ≠ 3 → exec (.lapMarkerReceived port pos sub blk) s =
      .next ((s.bump F.LAP_CNT_RX_count).modLapPort port.val fun x => { x with lock := some (lockOf blk at_) })) ∧
    (s.lapState = 3 → s.get F.LAP_STATUS_parent ≠ port.val → exec (.lapMarkerReceived port pos sub blk) s =
      .next ((s.bump F.LAP_CNT_RX_count).modLapPort port.val fun x => { x with lock := some (lockOf blk at_) }).clashCheck) ∧
    (s.lapState = 3 → s.get F.LAP_STATUS_parent = port.val → s.get F.LAP_PACER_addr = CB.pacer blk → CB.ho blk = false →
      ∃ t, ∃ b : Int, exec (.lapMarkerReceived port pos sub blk) s = .next t ∧ b = (at_ : Int) - (s.delayOf port.val : Nat) ∧ (t.lapPort port.val).lock = some (lockOf blk at_) ∧
        t.get F.LAP_CNT_RX_count = min (s.get F.LAP_CNT_RX_count + 1) 0xFFFFFFFF ∧ t.lapState = 3 ∧ t.get F.LAP_STATUS_parent = port.val ∧ t.get F.LAP_STATUS_hops = (CB.hops blk + 1) % 32 ∧
        t.get F.LAP_PACER_addr = CB.pacer blk ∧ t.get F.LAP_PACER_pri = CB.pri blk ∧ t.get F.LAP_PHASE_err = ((ownLap b * 4194304 - b) % 65536).toNat)) ∧
  (∀ port pos sub blk s l at_ valid onTime named, s.portUp (Fin.val (n := 12) port) = true → s.laps.s17 = true → (s.lapPort port.val).lock = some l →
    (CB.ok blk = false ∨ CB.kind blk = 0) → valid = CB.ok blk → at_ = (s.lapN * 262144 + BitVec.toNat (w := 18) pos) * 16 + BitVec.toNat (w := 4) sub - CB.lag blk →
    onTime = decide (at_ ≤ l.time + 4194304 + 32 ∧ l.time + 4194304 ≤ at_ + 32) → named = (valid && decide (CB.lap blk = l.lap + 1)) → (onTime && named) = false →
    ∃ t, exec (.lapMarkerReceived port pos sub blk) s = .next t ∧ t.get F.LAP_CNT_BAD_count = min (s.get F.LAP_CNT_BAD_count + 1) 0xFFFFFFFF ∧
      t.get F.LAP_CNT_RX_count = (if valid then min (s.get F.LAP_CNT_RX_count + 1) 0xFFFFFFFF else s.get F.LAP_CNT_RX_count) ∧
      (l.bad < 2 → (t.lapPort port.val).lock = some (if onTime || named then { l with bad := l.bad + 1, lap := l.lap + 1, time := l.time + 4194304 } else { l with bad := l.bad + 1 })) ∧
      (2 ≤ l.bad → (t.lapPort port.val).lock = none ∧ t.get F.LAP_CNT_LOST_count = min (s.get F.LAP_CNT_LOST_count + 1) 0xFFFFFFFF)) ∧
  (∀ port pos sub blk s at_ cs, s.portUp (Fin.val (n := 12) port) = true → s.laps.s17 = true → (s.lapPort port.val).lock = none → (s.lapPort port.val).cands = cs → cs.length ≤ 4 →
    CB.ok blk = true → CB.kind blk = 0 → at_ = (s.lapN * 262144 + BitVec.toNat (w := 18) pos) * 16 + BitVec.toNat (w := 4) sub - CB.lag blk → (∀ c ∈ cs, at_ + 32 < c.time + 4194304) →
    exec (.lapMarkerReceived port pos sub blk) s = .next ((s.bump F.LAP_CNT_RX_count).modLapPort port.val fun x =>
      { x with cands := (if cs.length = 4 then cs.drop 1 else cs) ++ [⟨CB.lap blk, at_, 1⟩] })) ∧
  (∀ port pos sub blk s at_ c, s.portUp (Fin.val (n := 12) port) = true → s.laps.s17 = true → (s.lapPort port.val).lock = none → (s.lapPort port.val).cands = [c] →
    CB.ok blk = true → CB.kind blk = 0 → at_ = (s.lapN * 262144 + BitVec.toNat (w := 18) pos) * 16 + BitVec.toNat (w := 4) sub - CB.lag blk → CB.lap blk = c.lap + 1 →
    at_ ≤ c.time + 4194304 + 32 → c.time + 4194304 ≤ at_ + 32 →
    (c.count ≠ 3 → exec (.lapMarkerReceived port pos sub blk) s = .next ((s.bump F.LAP_CNT_RX_count).modLapPort port.val fun x => { x with cands := [⟨CB.lap blk, at_, c.count + 1⟩] })) ∧
    (c.count = 3 → s.lapState = 2 → ∃ t, exec (.lapMarkerReceived port pos sub blk) s = .next t ∧ (t.lapPort port.val).lock = some (lockOf blk at_) ∧ (t.lapPort port.val).cands = [] ∧
      t.get F.LAP_EVT_lock = 1 ∧ t.lapState = 2)) ∧
  (∀ port s, (s.lapPort (Fin.val (n := 12) port)).lock = none → exec (.markerMissing port) s = .next s) ∧
  (∀ port s l due, (s.lapPort (Fin.val (n := 12) port)).lock = some l → due = ownLap ((l.time : Int) + 4194304 - s.delayOf port.val) * 4194304 + s.delayOf port.val + 4096 →
    (((s.now * 16 : Nat) : Int) < due → exec (.markerMissing port) s = .next s) ∧
    (due ≤ ((s.now * 16 : Nat) : Int) → l.bad < 2 → exec (.markerMissing port) s =
      .next ((s.bump F.LAP_CNT_BAD_count).modLapPort port.val fun x => { x with lock := some { l with bad := l.bad + 1, lap := l.lap + 1, time := l.time + 4194304 } })) ∧
    (due ≤ ((s.now * 16 : Nat) : Int) → 2 ≤ l.bad → ∃ t, exec (.markerMissing port) s = .next t ∧ (t.lapPort port.val).lock = none ∧ t.get F.LAP_CNT_LOST_count = min (s.get F.LAP_CNT_LOST_count + 1) 0xFFFFFFFF ∧
      t.get F.LAP_CNT_BAD_count = min (s.get F.LAP_CNT_BAD_count + 1) 0xFFFFFFFF ∧
      (s.lapState = 3 → (∀ q, q ≠ port.val → (s.lapPort q).lock = none) → t.lapState = 4 ∧ t.laps.holdL0 = some l.good ∧ t.get F.LAP_STATUS_parent = 15 ∧ t.get F.LAP_EVT_lost = 1))) ∧
  (∀ s, (s.laps.holdL0 = none ∨ s.lapState ≠ 4 ∨ s.laps.expired = true) → exec .holdoverExpired s = .next s) ∧
  ∀ s l0, s.laps.holdL0 = some l0 → s.lapState = 4 → (s.lapN < l0 + 65 → exec .holdoverExpired s = .next s) ∧
    (l0 + 65 ≤ s.lapN → s.laps.expired = false → ∃ t, exec .holdoverExpired s = .next t ∧ t.lapState = 5 ∧ t.laps.expired = true ∧ t.get F.LAP_EVT_expired = 1 ∧
      ∀ h, h < 32 → s.heatExists h = true → s.halTeam h = true → t.get (F.MAR_H_FAIL_HI_red h) = 1 ∧ t.get (F.HEAT_H_STATE_resumable h) = 0)

/-- LAP_BOUNDARY with the fabric clock running and no step pending begins the next lap at fc 0, or the lap that an elected
pacer takes where its count rises; without the fabric clock it changes nothing. DELAY_PROBE_SEND queues a probe on each port
that is up, at stride 1024 and once a lap, or that trains, once a stride; a probe received there is echoed, with the echo's
send time the probe's arrival; an echo adds half of its round trip less lag to the port's samples, newest first of
16, whose median is the delay once there are 16. LAP_IN qualified sets ref_ok where ref_en is one, and ref_used at the
pacer; LAP_IN lost clears them. An adopt request accepted by a pacer without a handover pending, for a lap two or more
ahead, is announced; ADOPT_ANNOUNCE_TIMEOUT ends a waiting adoption at its deadline and not before. -/
def Obligations.LapBoundaryAndDelay : Prop :=
  (∀ s, s.fabricOn = false → exec .lapBoundary s = .next s) ∧
  (∀ s, s.fabricOn = true → s.laps.step = false → ∃ t, exec .lapBoundary s = .next t ∧ t.pos = 0 ∧ t.mar.stops = [] ∧
    (s.laps.raise_ = none → t.lap = s.lap + 1) ∧ ∀ r, s.laps.raise_ = some r → t.lap = BitVec.ofNat 48 (max r (s.lapN + 1))) ∧
  (∀ s, ∀ due : Nat → Bool, (∀ p, due p = true ↔ (s.portUp p = true → s.stride = 1024 ∧ (s.lapPort p).probed.map (· / 262144) ≠ some s.lapN) ∧
      (s.portUp p = false → (s.port p).step = 6 ∧ (s.lapPort p).probed.map (· / 128) ≠ some (s.now / 128))) →
    ∃ t, exec .delayProbeSend s = .next t ∧ t = { s with btn := t.btn, laps := t.laps } ∧
    ∀ p, (t.port p).ctlQ = (s.port p).ctlQ ++ (if p ∈ s.probePorts ∧ due p = true then [(16 * s.now, CB.make 2 0 0 0 0 false false none)] else []) ∧
      (t.lapPort p).probed = if p ∈ s.probePorts ∧ due p = true then some s.now else (s.lapPort p).probed) ∧
  (∀ port pos sub blk s, (Fin.val (n := 12) port ∉ s.probePorts ∨ CB.ok blk = false ∨ CB.kind blk ≠ 2) → exec (.delayProbeReceived port pos sub blk) s = .next s) ∧
  (∀ port pos sub blk s, Fin.val (n := 12) port ∈ s.probePorts → CB.ok blk = true → CB.kind blk = 2 → ∃ t, exec (.delayProbeReceived port pos sub blk) s = .next t ∧ t = { s with btn := t.btn } ∧
    (t.port port.val) = { s.port port.val with ctlQ := (s.port port.val).ctlQ ++ [((s.lapN * 262144 + BitVec.toNat (w := 18) pos) * 16 + BitVec.toNat (w := 4) sub, CB.make 3 0 0 0 0 false false none)] } ∧
    ∀ q, q ≠ port.val → t.port q = s.port q) ∧
  (∀ port rtt blk s, (Fin.val (n := 12) port ∉ s.probePorts ∨ CB.ok blk = false ∨ CB.kind blk ≠ 3) → exec (.probeEchoReceived port rtt blk) s = .next s) ∧
  (∀ port rtt blk s v, Fin.val (n := 12) port ∈ s.probePorts → CB.ok blk = true → CB.kind blk = 3 → v = (((BitVec.toNat (w := 24) rtt - CB.lag blk) / 2) :: (s.lapPort port.val).samples).take 16 →
    ∃ t, exec (.probeEchoReceived port rtt blk) s = .next t ∧ t.lapPort port.val = { s.lapPort port.val with samples := v } ∧ t.port port.val = { s.port port.val with probes := (s.port port.val).probes + 1 } ∧
      (v.length < 16 → t.regs = s.regs) ∧ (v.length = 16 → t.get (F.LAP_DELAY_valid port.val) = 1 ∧ t.get (F.LAP_DELAY_delay port.val) = min (median v) 0xFFFFF)) ∧
  (∀ s, (s.on F.LAP_CFG_ref_en = false ∨ s.on F.LAP_STATUS_ref_ok = true) → exec .lapInQualified s = .next s) ∧
  (∀ s, s.on F.LAP_CFG_ref_en = true → s.on F.LAP_STATUS_ref_ok = false → ∃ t, exec .lapInQualified s = .next t ∧ t.get F.LAP_STATUS_ref_ok = 1 ∧ t.lapState = s.lapState ∧
    (s.lapState = 2 → t.get F.LAP_STATUS_ref_used = 1 ∧ t.get F.LAP_PACER_ref = 1) ∧ (s.lapState ≠ 2 → t.get F.LAP_STATUS_ref_used = s.get F.LAP_STATUS_ref_used)) ∧
  (∀ s, s.on F.LAP_STATUS_ref_ok = false → exec .lapInLost s = .next s) ∧
  (∀ s, s.on F.LAP_STATUS_ref_ok = true → ∃ t, exec .lapInLost s = .next t ∧ t.get F.LAP_STATUS_ref_ok = 0 ∧ t.laps = { s.laps with refLost := true } ∧
    (s.lapState = 2 → t.get F.LAP_STATUS_ref_used = 0 ∧ t.get F.LAP_PACER_ref = 0 ∧ t.get F.LAP_EVT_ref_lost = 1)) ∧
  (∀ port x s, (s.portSt (Fin.val (n := 12) port) < 3 ∨ BH.kind (XFrame.hdr x) ≠ 2) → exec (.adoptRequestReceived port x) s = .next s) ∧
  (∀ port x s u fs, 3 ≤ s.portSt (Fin.val (n := 12) port) → s.portSt port.val < 6 → BH.kind (XFrame.hdr x) = 2 → s.frameIn port.val true x = (some fs, u) → linkMessage fs = 3 →
    u.lapState = 2 → u.on F.LAP_HO_HI_valid = false → u.lapN + 2 ≤ bitsOf (fs.getD 1 0).toNat 14 48 → ∃ t, exec (.adoptRequestReceived port x) s = .next t ∧ t = { u with regs := t.regs } ∧
      t.get F.LAP_HO_HI_valid = 1 ∧ t.get F.LAP_HO_HI_addr = (fs.getD 1 0).toNat % 1024 ∧ t.get48 F.LAP_HO_LO_lap_lo F.LAP_HO_HI_lap_hi = bitsOf (fs.getD 1 0).toNat 14 48 ∧ t.get F.LAP_STATUS_ho_pending = 1) ∧
  (∀ s, (∀ a ∈ s.laps.adopt, s.now < a.deadline) → exec .adoptAnnounceTimeout s = .next s) ∧
  ∀ s a, s.laps.adopt = some a → a.deadline ≤ s.now → ∃ t, exec .adoptAnnounceTimeout s = .next t ∧ t.laps = { s.laps with adopt := none } ∧
    t = ({ s with laps := { s.laps with adopt := none } }.replyC a.line [] "ERR 0333 NO ANNOUNCEMENT")

/-- HALYARD_RECORD of a core without a heat, a rank or a record that has not gone changes nothing; a record of an
operation that has ended is discarded; the first record of an operation of several ranks and of the heat's own scope
begins it at the masthead. PROVISIONAL_LOWERING lowers the result of the records that have arrived of the first
operation due, and nothing where none is. LEAF_TIMEOUT ends, 8 laps after its first record and not before, the first
operation that lacks a leaf, with status leaf timeout where its records fix no other; MEMBER_LOST_TIMEOUT without
a team operation 8 laps old that lacks a child's record and has no end changes nothing, and with one records member lost
and ends it so. Two choices of the model stand in it: a first record of a child counts for the 8 laps, and of a frame only
the op code and the elements are compared (log entry 78). -/
def Obligations.HalyardRecordsAndTimeouts : Prop :=
  (∀ (k : CoreId) (s : State), (s.coreOwner k.toNat = none ∨ s.rankOf k.toNat = none ∨ (s.core k.toNat).halOut.all (·.sent) = true) → exec (.halyardRecord k) s = .next s) ∧
  (∀ (k : CoreId) (s : State) h r pre iss post, s.coreOwner k.toNat = some h → s.rankOf k.toNat = some r → (s.core k.toNat).halOut = pre ++ iss :: post → (∀ i ∈ pre, i.sent = true ∧ i.seq ≠ iss.seq) →
    iss.sent = false → (∀ i ∈ post, i.seq ≠ iss.seq) → iss.seq < (s.halH h).done →
    exec (.halyardRecord k) s = .next (s.setCore k.toNat { s.core k.toNat with halOut := pre ++ { iss with sent := true } :: post })) ∧
  (∀ (k : CoreId) (s : State) h r pre iss post, s.coreOwner k.toNat = some h → s.rankOf k.toNat = some r → (s.core k.toNat).halOut = pre ++ iss :: post → (∀ i ∈ pre, i.sent = true ∧ i.seq ≠ iss.seq) →
    iss.sent = false → (∀ i ∈ post, i.seq ≠ iss.seq) → (s.halH h).done ≤ iss.seq → (∀ o ∈ (s.halH h).ops, o.seq ≠ iss.seq) → (HD.team iss.words = false ∨ s.halTeam h = false) →
    (s.halH h).rankReset = false → 1 < s.halN h →
    ∃ t, exec (.halyardRecord k) s = .next t ∧ t = { s with cores := t.cores, hal := t.hal } ∧ t.core k.toNat = { s.core k.toNat with halOut := pre ++ { iss with sent := true } :: post } ∧
      (∀ j, j ≠ k.toNat → t.core j = s.core j) ∧ (∀ g, g ≠ h → t.halH g = s.halH g) ∧
      t.halH h = { s.halH h with ops := (s.halH h).ops ++ [⟨iss.seq, iss.words, none, s.now, [(r, ⟨iss.words, iss.data, iss.valid⟩)], false, none, none, none⟩] }) ∧
  (∀ (h : HeatId) (s : State), (s.halH h.toNat).ops.any (s.provDue h.toNat s.now) = false → exec (.provisionalLowering h) s = .next s) ∧
  (∀ (h : HeatId) (s : State) pre op post data, (s.halH h.toNat).ops = pre ++ op :: post → pre.any (s.provDue h.toNat s.now) = false → s.provDue h.toNat s.now op = true → op.team = none → (∀ o ∈ pre ++ post, o.seq ≠ op.seq) →
    data = provData (HD.op op.words) (s.halResult h.toNat op.words (s.halCombine h.toNat op)).1 →
    ∃ t, exec (.provisionalLowering h) s = .next t ∧ t = { s with hal := t.hal } ∧ (∀ g, g ≠ h.toNat → t.halH g = s.halH g) ∧
      t.halH h.toNat = { s.halH h.toNat with ops := pre ++ { op with prov := some (provKey (HD.op op.words) data), provLow := some ⟨1, false, false, resNan (HD.op op.words) (HD.type op.words) (HD.wide op.words) data, data, none⟩ } :: post }) ∧
  (∀ (h : HeatId) (s : State), (∀ o ∈ (s.halH h.toNat).ops, o.final.isSome = true ∨ o.recs = [] ∨ s.halN h.toNat ≤ o.recs.length ∨ s.now < o.first + 8 * 262144) → exec (.leafTimeout h) s = .next s) ∧
  (∀ (h : HeatId) (s : State) op rest, (s.halH h.toNat).ops = op :: rest → op.final = none → op.recs ≠ [] → op.recs.length < s.halN h.toNat → op.first + 8 * 262144 ≤ s.now → op.team = none → s.halFixed h.toNat op = 0 →
    (∀ o ∈ rest, o.seq ≠ op.seq) →
    ∃ t, exec (.leafTimeout h) s = .next t ∧ t.halH h.toNat = { s.halH h.toNat with ops := { op with final := some ⟨7, false, false, false, [], none⟩ } :: rest } ∧ (∀ g, g ≠ h.toNat → t.halH g = s.halH g) ∧
      t.get F.HAL_EVT_timeout = 1 ∧ t.get F.HAL_CNT_TIMEOUT_count = min (s.get F.HAL_CNT_TIMEOUT_count + 1) 0xFFFFFFFF ∧ t.cores = s.cores ∧ t.mem = s.mem) ∧
  (∀ (h : HeatId) (s : State), (∀ e ∈ (s.halH h.toNat).teamAt, s.now < e.2 + 8 * 262144 ∨ s.teamLacks h.toNat e.1 = false ∨ ((Tab.get [] (s.halH h.toNat).teamDown e.1).any fun r => r.status != 1) = true ∨
    ∃ o ∈ (s.halH h.toNat).ops, o.team = some e.1 ∧ o.final.isSome = true) → exec (.memberLostTimeout h) s = .next s) ∧
  ∀ (h : HeatId) (s : State) n rest, s.teamLate h.toNat = n :: rest →
    ∃ t, exec (.memberLostTimeout h) s = .next t ∧ (t.halH h.toNat).memberLost = true ∧ t.cores = s.cores ∧ t.mem = s.mem ∧ (∀ g, g ≠ h.toNat → t.halH g = s.halH g) ∧
      ∀ op, (s.halH h.toNat).ops.find? (fun o => o.team == some n) = some op → (∀ o ∈ (s.halH h.toNat).ops, o.seq = op.seq → o = op) →
        t.get F.HAL_EVT_member_lost = 1 ∧ ∀ o ∈ (t.halH h.toNat).ops, o.seq = op.seq → o.final = some ⟨3, false, false, false, [], none⟩

/-- LOWERING_DELIVERED with nothing ready changes nothing. A provisional lowering goes first and is counted; the final
one of the oldest operation, not a BARRIER, takes it out of the heat's operations, counts it, shows its status, and
reaches each port of the heat: a core that waits for it gets its completion word with the result's place, and the
result at dst where it is ok and the rank receives one. BARRIER_COMPLETE releases the oldest operation at its position
and not before. A TAINT_RECORD for a heat that takes no part in a team changes nothing; from the parent it is lowered and
held, the Halyard's register keeping the lowest lap; from a child it goes on to the parent, merged with one of the heat that
waits there. A HALYARD_FRAME not of its class or at a port that takes none changes nothing, is
counted and dropped while the port shows nr, and else goes to the heat it names. -/
def Obligations.HalyardLoweringsAndFrames : Prop :=
  (∀ (h : HeatId) (s : State), (∀ o ∈ (s.halH h.toNat).ops, o.provLow = none) → (∀ o rest low, (s.halH h.toNat).ops = o :: rest → o.final = some low → low.at_.isSome = true) → exec (.loweringDelivered h) s = .next s) ∧
  (∀ (h : HeatId) (s : State) op rest low, (s.halH h.toNat).ops = op :: rest → op.provLow = some low → (∀ o ∈ rest, o.seq ≠ op.seq) → NoErrors s →
    ∃ t, exec (.loweringDelivered h) s = .next t ∧ t.halH h.toNat = { s.halH h.toNat with ops := { op with provLow := none } :: rest } ∧
      t.get (F.HAL_H_CNT_PROV_count h.toNat) = min (s.get (F.HAL_H_CNT_PROV_count h.toNat) + 1) 0xFFFFFFFF ∧
      t = { s with cores := t.cores, regs := t.regs, hal := t.hal, mem := { s.mem with cells := t.mem.cells } }) ∧
  (∀ (h : HeatId) (s : State) op rest low, (s.halH h.toNat).ops = op :: rest → (∀ o ∈ op :: rest, o.provLow = none) → op.team = none → op.final = some low → low.at_ = none → low.status < 16 → NoErrors s → s.memWf →
    ∃ t, exec (.loweringDelivered h) s = .next t ∧ t.halH h.toNat = { s.halH h.toNat with ops := rest.filter fun o => o.seq != op.seq, done := op.seq + 1 } ∧ (∀ g, g ≠ h.toNat → t.halH g = s.halH g) ∧
      t.get (F.HAL_H_CNT_HOIST_count h.toNat) = min (s.get (F.HAL_H_CNT_HOIST_count h.toNat) + 1) 0xFFFFFFFF ∧ t.get (F.HAL_H_STATUS_last h.toNat) = low.status ∧
      t.get (F.HAL_H_CNT_FAIL_count h.toNat) = (if low.status = 0 then s.get (F.HAL_H_CNT_FAIL_count h.toNat) else min (s.get (F.HAL_H_CNT_FAIL_count h.toNat) + 1) 0xFFFFFFFF) ∧
      t.get (F.HAL_H_CNT_NOMATCH_count h.toNat) = (if op.prov.isSome = true ∧ low.match_ = false then min (s.get (F.HAL_H_CNT_NOMATCH_count h.toNat) + 1) 0xFFFFFFFF else s.get (F.HAL_H_CNT_NOMATCH_count h.toNat)) ∧
      t = { s with cores := t.cores, regs := t.regs, hal := t.hal, mem := { s.mem with cells := t.mem.cells } } ∧
      ∀ k r iss n, (k, r) ∈ s.halPorts h.toNat → (s.core k).run ≠ .inReset → (s.core k).halRef = [] → (s.core k).halOut.find? (fun i => i.seq == op.seq) = some iss →
        n = (if HD.receives iss.words (s.scopeRank h.toNat iss.words r) = true ∧ HD.dst iss.words * 16 + low.data.length ≤ 0xC0000 ∧ HD.dst iss.words * 16 < 0xC0000 then low.data.length else 0) →
        (t.core k).hq = (s.core k).hq ++ [⟨halWord s.now low.status (HD.tag iss.words) false low.match_ low.ovf low.nan, op.seq, iss.op, HD.dst iss.words * 16, n⟩] ∧
        ∀ i, i < n → Cells.get t.mem.cells (spBase k + HD.dst iss.words * 16 + i) = low.data.getD i 0) ∧
  (∀ (h : HeatId) (s : State), (∀ o rest low p, (s.halH h.toNat).ops = o :: rest → o.final = some low → low.at_ = some p → s.now < p) → exec (.barrierComplete h) s = .next s) ∧
  (∀ (h : HeatId) (s : State) op rest low p, (s.halH h.toNat).ops = op :: rest → op.final = some low → low.at_ = some p → p ≤ s.now → NoErrors s → low.status < 16 → (∀ o ∈ rest, o.seq ≠ op.seq) → (∀ o rest' l q, rest = o :: rest' → o.final = some l → l.at_ = some q → s.now < q) →
    ∃ t, exec (.barrierComplete h) s = .next t ∧ t = s.halFinal h.toNat op low ∧ (t.halH h.toNat).done = op.seq + 1 ∧ t.get (F.HAL_H_STATUS_last h.toNat) = low.status) ∧
  (∀ port h lap s, s.teamOpen (BitVec.toNat (w := 5) h) = false → exec (.taintRecord port h lap) s = .next s) ∧
  (∀ port h lap (s : State), s.teamOpen (BitVec.toNat (w := 5) h) = true → s.halParent h.toNat = Fin.val (n := 12) port → (s.get F.HAL_TAINT_HI_valid = 0 ∨ BitVec.toNat (w := 48) lap < s.get48 F.HAL_TAINT_LO_lap_lo F.HAL_TAINT_HI_lap_hi) →
    ∃ t, exec (.taintRecord port h lap) s = .next t ∧ t.get48 F.HAL_TAINT_LO_lap_lo F.HAL_TAINT_HI_lap_hi = lap.toNat ∧ t.get F.HAL_TAINT_HI_heat = h.toNat ∧ t.get F.HAL_TAINT_HI_valid = 1 ∧
      t.get F.HAL_EVT_taint = 1 ∧ t.get F.MAR_EVT_taint_in = 1 ∧ Tab.get [] t.mar.taints h.toNat = lap.toNat :: Tab.get [] s.mar.taints h.toNat ∧ t.mem = s.mem ∧ t.cores = s.cores) ∧
  (∀ port h lap (s : State), s.teamOpen (BitVec.toNat (w := 5) h) = true → s.halParent h.toNat = Fin.val (n := 12) port → s.get F.HAL_TAINT_HI_valid = 1 → s.get48 F.HAL_TAINT_LO_lap_lo F.HAL_TAINT_HI_lap_hi ≤ BitVec.toNat (w := 48) lap →
    ∃ t, exec (.taintRecord port h lap) s = .next t ∧ t.get48 F.HAL_TAINT_LO_lap_lo F.HAL_TAINT_HI_lap_hi = s.get48 F.HAL_TAINT_LO_lap_lo F.HAL_TAINT_HI_lap_hi ∧ t.get F.HAL_TAINT_HI_heat = s.get F.HAL_TAINT_HI_heat ∧
      Tab.get [] t.mar.taints h.toNat = lap.toNat :: Tab.get [] s.mar.taints h.toNat) ∧
  (∀ port h lap (s : State) p, s.teamOpen (BitVec.toNat (w := 5) h) = true → s.halParent h.toNat = p → p ≠ Fin.val (n := 12) port → p < 12 → s.get (F.BTN_P_STATUS_peer_nr p) = 0 → s.get (F.BTN_P_STATUS_local_nr p) = 0 →
    (∀ f ∈ Tab.get [] (s.port p).exQ 0, f.headD 0 ≠ s.taintHead h.toNat 0) →
    ∃ t, exec (.taintRecord port h lap) s = .next t ∧ t = { s with btn := t.btn } ∧ (∀ q, q ≠ p → t.port q = s.port q) ∧
      t.port p = { s.port p with exQ := (t.port p).exQ } ∧ Tab.get [] (t.port p).exQ 0 = Tab.get [] (s.port p).exQ 0 ++ [[s.taintHead h.toNat 0, taintFlit h.toNat (BitVec.toNat (w := 48) lap)]]) ∧
  (∀ port h lap (s : State) p l, s.teamOpen (BitVec.toNat (w := 5) h) = true → s.halParent h.toNat = p → p ≠ Fin.val (n := 12) port → p < 12 → Tab.get [] (s.port p).exQ 0 = [[s.taintHead h.toNat 0, taintFlit h.toNat l]] → l < 2 ^ 48 →
    ∃ t, exec (.taintRecord port h lap) s = .next t ∧ t = { s with btn := t.btn } ∧ Tab.get [] (t.port p).exQ 0 = [[s.taintHead h.toNat 0, taintFlit h.toNat (min (BitVec.toNat (w := 48) lap) l)]]) ∧
  (∀ port x (s : State), (s.portSt (Fin.val (n := 12) port) < 3 ∨ 6 ≤ s.portSt port.val ∨ BH.kind (XFrame.hdr x) ≠ 0) → exec (.halyardFrame port x) s = .next s) ∧
  (∀ port x (s : State) u, s.frameIn (Fin.val (n := 12) port) true x = (none, u) → (3 ≤ s.portSt port.val ∧ s.portSt port.val < 6 ∧ BH.kind (XFrame.hdr x) = 0) → exec (.halyardFrame port x) s = .next u) ∧
  ∀ port x (s : State) u f fs, s.frameIn (Fin.val (n := 12) port) true x = (some (f :: fs), u) → 3 ≤ s.portSt port.val → s.portSt port.val < 6 → BH.kind (XFrame.hdr x) = 0 →
    (u.on (F.BTN_P_STATUS_local_nr port.val) = true → exec (.halyardFrame port x) s = .next (u.bump (F.BTN_P_CNT_NRDROP_count port.val))) ∧
    (∀ h n, u.on (F.BTN_P_STATUS_local_nr port.val) = false → h = f.toNat / 2 ^ 10 % 32 → n = f.toNat / 2 ^ 15 % 2 ^ 16 → u.teamOpen h = true → u.teamOver h n = false → n ≠ 0xFFFF → f.toNat / 2 ^ 32 % 16 < 10 → f.toNat / 2 ^ 31 % 2 = 0 → f.toNat / 2 ^ 36 % 16 ∈ [0, 5, 8] →
      (∀ r ∈ u.teamUps h n, r.status ∉ [6, 4, 3, 2, 7]) → (∀ o ∈ (u.halH h).ops, o.team ≠ some n ∧ o.team ≠ some ((n + 65535) % 65536)) →
      ∃ t, exec (.halyardFrame port x) s = .next t ∧ t = { u with hal := t.hal } ∧ (∀ g, g ≠ h → t.halH g = u.halH g) ∧ u.teamUps h n ++ frameRecs port.val (f :: fs) = t.teamUps h n ∧
        ((Tab.find (u.halH h).teamAt n).isSome = false → Tab.find (t.halH h).teamAt n = some u.now))

/-- ROUTER_FC_SLOT of a router that has acted in the fc, or before S-09, only counts its corrections; else a router
whose one active entry names its core sends what the core gives the slot to the neighbour, to arrive one hop latency
later, and an idle router only takes what its attachment gives its lanes. An uncorrectable flit that arrives at a router
that owns no heat is reported. CONTROL_MESSAGE at a router: a flit for an output it has waits there, or goes round while
four wait; for one it lacks it is discarded; a register write addressed to the router acts; the way along columns comes
first (the model's reading, log entry 59). STOP_FLIT of another kind changes nothing; a stop halts the core of a heat it
names and floods on unless a flood with every heat it names has passed. REGION_CLOCK_CHANGE off a stride boundary changes
nothing; on one, the clocks asked for take effect. -/
def Obligations.RoutersAndControlFlits : Prop :=
  (∀ r n bad s, (Tab.get 0 s.mesh.acted (BitVec.toNat (w := 11) r) = s.now + 1 ∨ s.boot.step < 9) → exec (.routerFcSlot r n bad) s = .next (if n = (0 : BitVec 4) then s else (s.bump F.MSH_CNT_CORR_count n.toNat).flag F.MSH_EVT_corrected)) ∧
  (∀ r s w o nb h f u v, w = { s with mesh := { s.mesh with acted := Tab.put (BitVec.toNat (w := 11) r) (s.now + 1) s.mesh.acted } } → Tab.get 0 s.mesh.acted (BitVec.toNat (w := 11) r) ≠ s.now + 1 → 9 ≤ s.boot.step → s.mesh.flights = [] → s.mesh.relays = [] → Tab.get [] s.mesh.ctrl r.toNat = [] →
    (∀ q ∈ relayOuts r.toNat, s.slotEntry r.toNat q s.fcIn = 0) → o < 4 → neighbour r.toNat o = some nb → s.slotEntry r.toNat o s.fcIn = 4 → (∀ q ∈ meshOuts r.toNat, q ≠ o → 14 ≤ s.slotEntry r.toNat q s.fcIn) →
    s.coreOwner r.toNat = some h → s.coreOwner nb = some h → w.coreSlot r.toNat s.fcIn = (some f, u) → u.laneInputs r.toNat s.fcIn [] = ([], v) →
    exec (.routerFcSlot r 0 0) s = .next { v with mesh := { v.mesh with flights := [⟨s.now + meshHop r.toNat nb, nb, opposite o, f, false⟩] } }) ∧
  (∀ r s w v, w = { s with mesh := { s.mesh with acted := Tab.put (BitVec.toNat (w := 11) r) (s.now + 1) s.mesh.acted } } → Tab.get 0 s.mesh.acted (BitVec.toNat (w := 11) r) ≠ s.now + 1 → 9 ≤ s.boot.step → s.mesh.flights = [] → s.mesh.relays = [] → Tab.get [] s.mesh.ctrl r.toNat = [] →
    (∀ q ∈ relayOuts r.toNat, s.slotEntry r.toNat q s.fcIn = 0) → (∀ q ∈ meshOuts r.toNat, 14 ≤ s.slotEntry r.toNat q s.fcIn) → w.laneInputs r.toNat s.fcIn [] = ([], v) →
    exec (.routerFcSlot r 0 0) s = .next v) ∧
  (∀ r s inp f bad, Tab.get 0 s.mesh.acted (BitVec.toNat (w := 11) r) ≠ s.now + 1 → 9 ≤ s.boot.step → s.mesh.flights = [⟨s.now, r.toNat, inp, f, false⟩] → s.coreOwner r.toNat = none → s.mesh.relays = [] → Tab.get [] s.mesh.ctrl r.toNat = [] → attachAt r.toNat = none →
    inp < 4 → bad.toNat / 2 ^ inp % 2 = 1 → ∃ t, exec (.routerFcSlot r 0 bad) s = .next t ∧ t.get F.MSH_EVT_uncorrectable = 1 ∧ t.mesh.flights = [] ∧ t.mem = s.mem ∧ t.cores = s.cores) ∧
  (∀ r f s o, Ctl.kind f ≠ 4 → ctlOut (BitVec.toNat (w := 11) r) f = some o →
    (o ∉ meshOuts r.toNat → exec (.controlMessage r f) s = .next s) ∧
    (o ∈ meshOuts r.toNat → s.ctlWaits r.toNat o < 4 → ∃ t, exec (.controlMessage r f) s = .next t ∧ t = { s with mesh := { s.mesh with ctrl := t.mesh.ctrl } } ∧
      Tab.get [] t.mesh.ctrl r.toNat = Tab.get [] s.mesh.ctrl r.toNat ++ [⟨o, f, s.now⟩] ∧ ∀ q, q ≠ r.toNat → Tab.get [] t.mesh.ctrl q = Tab.get [] s.mesh.ctrl q) ∧
    (o ∈ meshOuts r.toNat → 4 ≤ s.ctlWaits r.toNat o → exec (.controlMessage r f) s =
      .next { s with mesh := { s.mesh with flights := s.mesh.flights ++ [⟨s.now + 1, r.toNat, 4, ⟨true, true, 0, f, false, 0⟩, true⟩] } })) ∧
  (∀ r f s, Ctl.kind f = 1 → Ctl.dst f = BitVec.toNat (w := 11) r → Ctl.dport f = 0 → exec (.controlMessage r f) s = .next (s.regWrite (.ctrl (BitVec.ofNat 11 (Ctl.src f))) (Ctl.off f) (Ctl.data f))) ∧
  (∀ r f s, Ctl.kind f ≠ 4 → Ctl.dst f = BitVec.toNat (w := 11) r → (6 ≤ Ctl.dport f ∨ Ctl.dport f = 0 ∧ 2 ≤ Ctl.kind f) → exec (.controlMessage r f) s = .next s) ∧
  (∀ r f s, Ctl.kind f ≠ 4 → exec (.stopFlit r f) s = .next s) ∧
  (∀ r f s, Ctl.kind f = 4 → ∃ t, exec (.stopFlit r f) s = .next t ∧ t = { s with cores := t.cores, mesh := { s.mesh with ctrl := t.mesh.ctrl, stopSeen := t.mesh.stopSeen } } ∧
    Tab.find t.mesh.stopSeen (BitVec.toNat (w := 11) r) = some (Nat.lor (Tab.get 0 s.mesh.stopSeen r.toNat) (Ctl.heats f)) ∧
    (∀ h, s.coreOwner r.toNat = some h → Ctl.heats f / 2 ^ h % 2 = 1 → (Tab.find s.cores r.toNat).isSome = true → t.core r.toNat = (s.haltCore r.toNat).core r.toNat) ∧
    (∀ h, s.coreOwner r.toNat = some h → Ctl.heats f / 2 ^ h % 2 = 1 → (s.core r.toNat).run = .running → t.core r.toNat = { s.core r.toNat with run := .halted }) ∧
    (∀ k, k ≠ r.toNat → t.core k = s.core k) ∧
    (∀ seen, Tab.find s.mesh.stopSeen r.toNat = some seen → Nat.lor seen (Ctl.heats f) = seen → t.mesh = s.mesh) ∧
    ((∀ seen, Tab.find s.mesh.stopSeen r.toNat = some seen → Nat.lor seen (Ctl.heats f) ≠ seen) → Tab.get [] s.mesh.ctrl r.toNat = [] →
      Tab.get [] t.mesh.ctrl r.toNat = ((if coreRow r.toNat = 0 ∧ coreCol r.toNat < 63 then [1] else []) ++ (if coreRow r.toNat < 31 then [2] else [])).map fun o => ⟨o, f, s.now⟩)) ∧
  (∀ s, s.fcIn ≠ 0 → exec .regionClockChange s = .next s) ∧
  (∀ s, s.fcIn = 0 → (s.pwr.due = false ∨ s.stride ≠ 16) → Tab.wf s.mesh.clkReq = true → ∃ t, exec .regionClockChange s = .next t ∧ t = { s with mesh := { s.mesh with clk := t.mesh.clk, clkReq := [] } } ∧
    ∀ n, t.regionClk n = (Tab.find s.mesh.clkReq n).getD (s.regionClk n)) ∧
  ∀ s, s.fcIn = 0 → s.pwr.due = true → s.stride = 16 → s.mesh.clkReq = [] → ∃ t, exec .regionClockChange s = .next t ∧ t = { s with mesh := { s.mesh with clk := t.mesh.clk }, pwr := { s.pwr with due := false } } ∧
    ∀ n, t.regionClk n = if n < 256 ∧ s.regionClk n ≠ 0 then s.regionDue n else s.regionClk n

/-- Each event of the heat cycle acts only when its rule's condition holds, and else changes nothing. Activation of a
snapshot at a lap boundary makes its geometry and settings active and leaves the heat stopped, or free. A start of the
present lap, above the floor, makes it running; cold, each unfenced core runs from its entry point; below the floor
the heat is stopped. A team check unfinished at lap L - 1 ends the start. A recall with nothing in flight halts the
cores and drains; a drain's end stops the heat. The end of a scrub leaves the heat's scratchpads and tier 1 zero. An
image is staged, or refused with its error. A keeper check without moves to begin only clears spilling; the end of a
keeper's last move in a clean memory takes it off its list. -/
def Obligations.HeatCycleEvents : Prop :=
  (∀ (h : HeatId) (s : State), ((s.heat h.toNat).snap = none ∨ s.pos ≠ 0) → exec (.commitActivate h) s = .next s) ∧
  (∀ (h : HeatId) (s : State) x, (s.heat h.toNat).snap = some x → s.pos = 0 → ∃ t, exec (.commitActivate h) s = .next t ∧ (t.heat h.toNat).snap = none ∧ t.geomA h.toNat = x.geom.toNat ∧
    t.heatSt h.toNat = (if geomNone x.geom.toNat then 0 else 1) ∧ t.get F.HEAT_EVT_committed = 1 ∧
    (s.regsWf → Tab.wf x.regs = true → (∀ e ∈ x.regs, wsOf h.toNat x.geom.toNat e.1 = true) → ∀ r : Reg, t.rdA r = if wsOf h.toNat x.geom.toNat r.off then x.rd r else s.rdA r)) ∧
  (∀ (h : HeatId) (s : State), ((s.heat h.toNat).start = none ∨ s.heatSt h.toNat ≠ 2 ∨ s.pos ≠ 0) → exec (.heatStartLap h) s = .next s) ∧
  (∀ (h : HeatId) (s : State) lap resume, (s.heat h.toNat).start = some (lap, resume, none) → s.heatSt h.toNat = 2 → s.pos = 0 → (s.lapN < lap → exec (.heatStartLap h) s = .next s) ∧
    (lap ≤ s.lapN → s.floorOk h.toNat = false → ∃ t, exec (.heatStartLap h) s = .next t ∧ t.heatSt h.toNat = 1 ∧ (t.heat h.toNat).start = none ∧ t.cores = s.cores ∧ t.mem = s.mem) ∧
    (lap ≤ s.lapN → s.floorOk h.toNat = true → ∃ t, exec (.heatStartLap h) s = .next t ∧ t.heatSt h.toNat = 3 ∧ (t.heat h.toNat).start = none ∧ (t.heat h.toNat).holdBack = false ∧
      t.get48 (F.HEAT_H_START_LO_lap_lo h.toNat) (F.HEAT_H_START_HI_lap_hi h.toNat) = s.lapN ∧ t.get (F.HEAT_H_CNT_START_count h.toNat) = min (s.get (F.HEAT_H_CNT_START_count h.toNat) + 1) 0xFFFFFFFF ∧
      (resume = false → NoErrors s → ∀ k ∈ s.heatCores h.toNat, s.fenced k = false → (t.core k).run = .running ∧ (t.core k).pc = BitVec.ofNat 16 (4 * s.getA (F.CORE_ENTRY_entry k))) ∧
      (resume = true → ∀ k ∈ s.heatCores h.toNat, (Tab.find s.cores k).isSome = true → (s.core k).run = .halted → (s.core k).wait = none → (t.core k).run = .running ∧ (t.core k).pc = (s.core k).pc))) ∧
  (∀ (h : HeatId) (s : State), ((∀ lap b l, (s.heat h.toNat).start ≠ some (lap, b, some l)) ∨ s.heatSt h.toNat ≠ 2 ∨ s.halTeam h.toNat = false) → exec (.teamCheckDeadline h) s = .next s) ∧
  (∀ (h : HeatId) (s : State) lap b l, (s.heat h.toNat).start = some (lap, b, some l) → s.heatSt h.toNat = 2 → s.halTeam h.toNat = true → (s.lapN + 1 < lap → exec (.teamCheckDeadline h) s = .next s) ∧
    (lap ≤ s.lapN + 1 → ∃ t, exec (.teamCheckDeadline h) s = .next t ∧ t.heatSt h.toNat = 1 ∧ (t.heat h.toNat).start = none ∧ t.get (F.TEAM_H_STATUS_check h.toNat) = 3 ∧ t.get F.TEAM_EVT_incomplete = 1)) ∧
  (∀ (h : HeatId) (s : State), (s.heatSt h.toNat ≠ 4 ∨ (s.heat h.toNat).holdBack = false ∨ s.pos ≠ 0 ∨ s.halBusy h.toNat = true) → exec (.recallStop h) s = .next s) ∧
  (∀ (h : HeatId) (s : State), s.heatSt h.toNat = 4 → (s.heat h.toNat).holdBack = true → s.pos = 0 → s.halBusy h.toNat = false → ∃ t, exec (.recallStop h) s = .next t ∧ t.heatSt h.toNat = 5 ∧
    (t.heat h.toNat).drain = some s.lapN ∧ t.stopLap h.toNat = s.lapN ∧ (∀ k ∈ s.heatCores h.toNat, (Tab.find s.cores k).isSome = true → t.core k = (s.haltCore k).core k) ∧ t.mem = s.mem) ∧
  (∀ (h : HeatId) (s : State), (s.heatSt h.toNat ≠ 5 ∨ ∀ b, (s.heat h.toNat).drain = some b → s.lapN ≤ b ∧ s.stride < 16) → exec (.drainEnd h) s = .next s) ∧
  (∀ (h : HeatId) (s : State) b, (s.heat h.toNat).drain = some b → s.heatSt h.toNat = 5 → (b < s.lapN ∨ 16 ≤ s.stride) → ∃ t, exec (.drainEnd h) s = .next t ∧ t.heatSt h.toNat = 1 ∧ (t.heat h.toNat).drain = none ∧
    (t.heat h.toNat).holdBack = true ∧ (t.halH h.toNat).rankReset = false ∧ (t.halH h.toNat).memberLost = false ∧ t.get F.HEAT_EVT_stopped = 1) ∧
  (∀ (h : HeatId) (s : State), s.heatSt h.toNat ≠ 7 → exec (.scrubComplete h) s = .next s) ∧
  (∀ (h : HeatId) (s : State), s.heatSt h.toNat = 7 → ∃ t, exec (.scrubComplete h) s = .next t ∧ t.heatSt h.toNat = 1 ∧ t.get F.HEAT_EVT_reset = 1 ∧
    (∀ a u, s.memUnit a = some u → s.unitOwner u = some h.toNat → ((∃ k, u = .sp k) ∨ ∃ n, u = .slice n) → Cells.get t.mem.cells a = 0) ∧
    ∀ a, (∀ u, s.memUnit a = some u → s.unitOwner u ≠ some h.toNat ∨ ((∀ k, u ≠ .sp k) ∧ ∀ n, u ≠ .slice n)) → Cells.get t.mem.cells a = Cells.get s.mem.cells a) ∧
  (∀ (h : HeatId) (s : State), ∃ t, exec (.reserveScrubComplete h) s = .next t ∧ t = { s with regs := t.regs } ∧ t.get (F.HEAT_H_STATE_scrubbing h.toNat) = 0) ∧
  (∀ s, s.con.imageLoad = none → exec .imageLoadComplete s = .next s) ∧
  (∀ s l a n u e, s.con.imageLoad = some (l, a, n) → u = { s with con := { s.con with imageLoad := none } } → u.imageCheck (u.readMem a n) = .error e → exec .imageLoadComplete s = .next (u.replyC l [] ("ERR " ++ e))) ∧
  (∀ s l a n u xs, s.con.imageLoad = some (l, a, n) → u = { s with con := { s.con with imageLoad := none } } → u.imageCheck (u.readMem a n) = .ok xs → ∃ t, exec .imageLoadComplete s = .next t ∧ ∀ h ∈ imageHeats xs,
    (t.heat h).image = some ⟨BitVec.ofNat 64 (Img.id (s.readMem a n)), (xs.filter fun x => x.heat == h).length, ((xs.filter fun x => x.heat == h).filter fun x => x.type == 1).map (fun x => (x.target, x.body)),
      ((xs.filter fun x => x.heat == h).filter fun x => x.type == 2).map (fun x => (spBase x.target, x.body)), false⟩) ∧
  (∀ (h : HeatId) (s : State), (heatLive (s.heatSt h.toNat) = false ∨ s.get (F.KV_H_STATUS_ready h.toNat) ≠ 1 ∨ s.stride ≠ 0) → exec (.keeperCheck h) s = .next s) ∧
  (∀ (h : HeatId) (s : State), heatLive (s.heatSt h.toNat) = true → s.get (F.KV_H_STATUS_ready h.toNat) = 1 → s.stride = 0 → s.allMoves h.toNat = [] → 64 * s.getA (F.KV_H_WATER_low1 h.toNat) ≤ s.get (freeFld h.toNat 1) →
    s.getA (F.KV_H_CFG_far_en h.toNat) = 0 → s.getA (F.KV_H_COOL_promote h.toNat) = 0 → exec (.keeperCheck h) s = .next (s.putB (F.KV_H_STATUS_spilling h.toNat) false)) ∧
  (∀ (h : HeatId) (j : BitVec 6) (s : State), s.kvMoves h.toNat j.toNat = [] → exec (.keeperMoveCopyDone h j) s = .next s) ∧
  ∀ (h : HeatId) (j : BitVec 6) (s : State) m, s.kvMoves h.toNat j.toNat = [m] → m.begun = true → (s.pft h.toNat m.page).moving = true → (s.pft h.toNat m.page).tier = 1 ∨ (s.pft h.toNat m.page).tier = 2 → NoErrors s → ∃ t, exec (.keeperMoveCopyDone h j) s = .next t ∧ t.kvMoves h.toNat j.toNat = [] ∧
    t.get (F.KV_H_CNT_SPILL_count h.toNat) = if (s.pft h.toNat m.page).tier < m.tier then min (s.get (F.KV_H_CNT_SPILL_count h.toNat) + 1) 0xFFFFFFFF else s.get (F.KV_H_CNT_SPILL_count h.toNat)

/-- A codeword is judged by what the Reed-Solomon code makes of the symbols of its eight lanes: one without errors, one
corrected, or a bad one. Codewords at a port that takes none change nothing; out of lock a bad one tries the next offset
and the fourth good one in turn locks; in lock a corrected one counts CE, a bad one UE and, below the limits, no more. A
training port takes the steps that are ready: it leaves adaptation at once, and after 16 probes with the delay within
blat it is up. TRAINING_TIMEOUT reports it at S-16 only, 100 ms after that step began, 200 ms under alternative A. A
transceiver at an enabled port from S-16 on is held where it is long, and the port trains with auto. Loss of signal,
frame lock not regained in 1,200,000 fc, and a frame sent again 16 times take the port down with their cause: its replay
and receive buffers empty, and it trains again with auto; ACK_TIMEOUT otherwise sends the class's frames again and
counts them, 2,400 fc after the ack last advanced. -/
def Obligations.BatonTrainingAndRetry : Prop :=
  (∀ port ls (o : Nat) s, o = rsOutcome (fromLanes ls) → (s.portSt (Fin.val (n := 12) port) < 3 ∨ s.portSt port.val = 7) → exec (.codewordReceived port ls) s = .next s) ∧
  (∀ port ls (o : Nat) s, o = rsOutcome (fromLanes ls) → 3 ≤ s.portSt (Fin.val (n := 12) port) → s.portSt port.val ≠ 7 → s.get (F.BTN_P_STATUS_cw_lock port.val) = 0 →
    (o = 2 → exec (.codewordReceived port ls) s = .next (s.modPort port.val fun b => { b with cwOff := (b.cwOff + 1) % 544, cwGood := 0 })) ∧
    (o < 2 → ∃ t, exec (.codewordReceived port ls) s = .next t ∧ t.port port.val = { s.port port.val with cwGood := (s.port port.val).cwGood + 1, cwBad := 0 } ∧ t = { s with btn := t.btn, regs := t.regs } ∧
      t.get (F.BTN_P_STATUS_cw_lock port.val) = if 3 ≤ (s.port port.val).cwGood then 1 else 0)) ∧
  (∀ port ls (o : Nat) s, o = rsOutcome (fromLanes ls) → 3 ≤ s.portSt (Fin.val (n := 12) port) → s.portSt port.val ≠ 7 → s.get (F.BTN_P_STATUS_cw_lock port.val) = 1 →
    (o < 2 → ∃ t, exec (.codewordReceived port ls) s = .next t ∧ t.port port.val = { s.port port.val with cwBad := 0 } ∧ t = { s with btn := t.btn, regs := t.regs } ∧
      t.get (F.BTN_P_CNT_CE_count port.val) = if o = 1 then min (s.get (F.BTN_P_CNT_CE_count port.val) + 1) 0xFFFFFFFF else s.get (F.BTN_P_CNT_CE_count port.val)) ∧
    (o = 2 → (s.port port.val).cwBad < 7 → (s.port port.val).ueLap < s.get F.BTN_CFG_ue_down → ∃ t, exec (.codewordReceived port ls) s = .next t ∧ t = { s with btn := t.btn, regs := t.regs } ∧
      t.get (F.BTN_P_CNT_UE_count port.val) = min (s.get (F.BTN_P_CNT_UE_count port.val) + 1) 0xFFFFFFFF ∧ t.port port.val = { s.port port.val with cwBad := (s.port port.val).cwBad + 1, ueLap := (s.port port.val).ueLap + 1 })) ∧
  (∀ port s, (s.portSt (Fin.val (n := 12) port) ≠ 3 ∨ (s.port port.val).held = true) → exec (.portTraining port) s = .next s) ∧
  (∀ port s, s.portSt (Fin.val (n := 12) port) = 3 → (s.port port.val).held = false → (s.port port.val).step = 1 → s.get (F.BTN_P_STATUS_cw_lock port.val) = 0 →
    exec (.portTraining port) s = .next (s.modPort port.val fun b => { b with step := 2 })) ∧
  (∀ port s, s.portSt (Fin.val (n := 12) port) = 3 → (s.port port.val).held = false → (s.port port.val).step = 6 → 16 ≤ (s.port port.val).probes → s.get (F.BTN_P_STATUS_peer_nr port.val) = 0 →
    s.get (F.LAP_DELAY_delay port.val) + 80 * 16 ≤ s.get F.BTN_CFG_blat * 16 → ∃ t, exec (.portTraining port) s = .next t ∧ t.portSt port.val = 5 ∧ t.get (F.BTN_P_STATUS_local_nr port.val) = 0 ∧
      t.get (F.BTN_P_STATUS_long port.val) = 0 ∧ t.get F.BTN_EVT_up = 1 ∧ (t.port port.val).step = 0) ∧
  (∀ port s, (s.portSt (Fin.val (n := 12) port) ≠ 3 ∨ s.boot.step ≠ 16 ∨ s.boot.ms < s.boot.t0 + s.boot.stepMs + (if s.get (F.STA_STEP_alt 16) = 1 then 200 else 100)) → exec (.trainingTimeout port) s = .next s) ∧
  (∀ port s, s.portSt (Fin.val (n := 12) port) = 3 → s.boot.step = 16 → s.boot.t0 + s.boot.stepMs + (if s.get (F.STA_STEP_alt 16) = 1 then 200 else 100) ≤ s.boot.ms → exec (.trainingTimeout port) s = .next { s with boot := { s.boot with untrained := port.val :: s.boot.untrained } }) ∧
  (∀ port long s, (s.portEnabled (Fin.val (n := 12) port) = false ∨ s.boot.step < 16) → exec (.transceiverInserted port long) s = .next s) ∧
  (∀ port long s, s.portEnabled (Fin.val (n := 12) port) = true → 16 ≤ s.boot.step → ∃ t, exec (.transceiverInserted port long) s = .next t ∧ (t.port port.val).held = long ∧
    t.portSt port.val = (if s.get (F.BTN_P_CTL_auto port.val) = 1 ∧ s.portSt port.val ≠ 5 then 3 else s.portSt port.val)) ∧
  (∀ port s, exec (.lossOfSignal port) s = .next (s.portDown (Fin.val (n := 12) port) 1)) ∧
  (∀ port s, (s.get (F.BTN_P_STATUS_fr_lock (Fin.val (n := 12) port)) = 1 ∨ s.portSt port.val = 3 ∨ s.now < (s.port port.val).frLost + 1200000) → exec (.frameLockTimeout port) s = .next s) ∧
  (∀ port s, s.get (F.BTN_P_STATUS_fr_lock (Fin.val (n := 12) port)) = 0 → s.portSt port.val ≠ 3 → (s.port port.val).frLost + 1200000 ≤ s.now → exec (.frameLockTimeout port) s = .next (s.portDown port.val 3)) ∧
  (∀ (port : PortId) (c : Nat) (s : State), c < 16 → s.portSt port.val < 3 → s.portDown port.val c = s) ∧
  (∀ (port : PortId) (c : Nat) (s : State), c < 7 → 3 ≤ s.portSt port.val → s.portSt port.val ≠ 7 → (s.portDown port.val c).portSt port.val = (if s.get (F.BTN_P_CTL_auto port.val) = 1 ∧ s.portEnabled port.val = true then 3 else 7) ∧
    (s.portDown port.val c).get (F.BTN_P_STATUS_cause port.val) = c ∧ (s.portDown port.val c).get F.BTN_EVT_down = 1 ∧ ((s.portDown port.val c).port port.val).replayB = [] ∧ ((s.portDown port.val c).port port.val).replayX = [] ∧
    ((s.portDown port.val c).port port.val).rxBuf = [] ∧ (s.portDown port.val c).get (F.BTN_P_STATUS_cw_lock port.val) = 0 ∧ (s.portDown port.val c).mem = s.mem ∧ (s.portDown port.val c).cores = s.cores) ∧
  ∀ port x s fr w, fr = (if x = true then (s.port (Fin.val (n := 12) port)).replayX else (s.port port.val).replayB) → w = (if x = true then (s.port port.val).waitX else (s.port port.val).waitB) →
    ((fr = [] ∨ s.now < w + 2400) → exec (.ackTimeout port x) s = .next s) ∧
    (fr ≠ [] → w + 2400 ≤ s.now → (∀ f ∈ fr, f.tries < 16) → ∃ t, exec (.ackTimeout port x) s = .next t ∧ t.get (F.BTN_P_CNT_RETRY_count port.val) = min (s.get (F.BTN_P_CNT_RETRY_count port.val) + fr.length) 0xFFFFFFFF ∧
      (if x = true then (t.port port.val).againX else (t.port port.val).againB) = fr.map (fun f => { f with tries := f.tries + 1 }) ∧ (if x = true then (t.port port.val).waitX else (t.port port.val).waitB) = s.now) ∧
    (w + 2400 ≤ s.now → (∃ f ∈ fr, 16 ≤ f.tries) → exec (.ackTimeout port x) s = .next ((s.flag F.BTN_EVT_retry_limit).portDown port.val 4))

/-- A header without codeword lock or marker changes nothing; out of lock a good bulk header is a candidate, in lock
at its place it is the last header, and a bad one where it is due counts towards loss. A frame at a port that takes
none, or of another kind, changes nothing; one that is not accepted moves only what the check moves. Accepted: bulk
flits take the mirrored entries that have not passed, late ones counted; an identity is recorded, and one that does
not fit makes the port miswired; going-down takes the port down; a retrain request has no further effect; a tunnel
frame for another module without a route is dropped; a team stop new in the lap and not in black is recorded, raises
its event and halts the heats it names that are busy. A slot sends the frame in progress, then a control block, then
the bulk frame in progress; the slot that completes 5,140 bits of the stream sends them as a codeword on the lanes. -/
def Obligations.BatonFrames : Prop :=
  (∀ port slot blocks hdr s, (s.get (F.BTN_P_STATUS_cw_lock (Fin.val (n := 12) port)) = 0 ∨ BH.isMark hdr = false) → exec (.frameHeaderReceived port slot blocks hdr) s = .next s) ∧
  (∀ port slot blocks hdr s, s.get (F.BTN_P_STATUS_cw_lock (Fin.val (n := 12) port)) = 1 → s.get (F.BTN_P_STATUS_fr_lock port.val) = 0 → BH.ok hdr = true → BH.cls hdr = 0 → (s.port port.val).cands = [] →
    exec (.frameHeaderReceived port slot blocks hdr) s = .next ((s.modPort port.val fun b => { b with cands := [] }).modPort port.val fun b => { b with cands := [⟨BitVec.toNat (w := 48) slot, 1, s.now⟩] })) ∧
  (∀ port slot blocks hdr s, s.get (F.BTN_P_STATUS_cw_lock (Fin.val (n := 12) port)) = 1 → s.get (F.BTN_P_STATUS_fr_lock port.val) = 1 → BH.isMark hdr = true → BH.ok hdr = false →
    BitVec.toNat (w := 48) slot = (s.port port.val).lastHdr + 17 + (s.port port.val).rxIns + BitVec.toNat (w := 6) blocks → (s.port port.val).hdrBad < 2 →
    exec (.frameHeaderReceived port slot blocks hdr) s = .next (s.modPort port.val fun b => { b with hdrBad := b.hdrBad + 1, lastHdr := slot.toNat, rxIns := 0, rxNest := 0, xEnd := 0, dropB := true, nakB := true })) ∧
  (∀ port slot blocks hdr s, s.get (F.BTN_P_STATUS_cw_lock (Fin.val (n := 12) port)) = 1 → s.get (F.BTN_P_STATUS_fr_lock port.val) = 1 → BH.ok hdr = true → BH.cls hdr = 0 → (s.port port.val).xEnd ≤ BitVec.toNat (w := 48) slot →
    BitVec.toNat (w := 48) slot = (s.port port.val).lastHdr + 17 + BH.ins hdr → (s.port port.val).lastHdr + 17 + (s.port port.val).rxIns + BitVec.toNat (w := 6) blocks ≤ slot.toNat →
    ∃ t, exec (.frameHeaderReceived port slot blocks hdr) s = .next t ∧ (t.port port.val).lastHdr = slot.toNat ∧ (t.port port.val).hdrBad = 0) ∧
  (∀ port x (s : State), (s.portSt (Fin.val (n := 12) port) < 3 ∨ 6 ≤ s.portSt port.val) → exec (.bulkFrameReceived port x) s = .next s ∧ exec (.identityFrame port x) s = .next s ∧ exec (.goingDownFrame port x) s = .next s ∧
    exec (.retrainRequest port x) s = .next s ∧ exec (.tunnelFrame port x) s = .next s ∧ exec (.teamStopFrame port x) s = .next s) ∧
  (∀ port x (s : State) u, 3 ≤ s.portSt (Fin.val (n := 12) port) → s.portSt port.val < 6 → s.frameIn port.val true x = (none, u) → ((BH.kind (XFrame.hdr x) = 2 → exec (.identityFrame port x) s = .next u ∧ exec (.goingDownFrame port x) s = .next u ∧
      exec (.retrainRequest port x) s = .next u) ∧ (BH.kind x.hdr = 3 → exec (.tunnelFrame port x) s = .next u) ∧ (BH.kind x.hdr = 1 → exec (.teamStopFrame port x) s = .next u))) ∧
  (∀ port x (s : State) u body fl at_ due, 3 ≤ s.portSt (Fin.val (n := 12) port) → s.portSt port.val < 6 → BH.kind (XFrame.hdr x) ≠ 0 → s.frameIn port.val false x = (some body, u) →
    u.get (F.BTN_P_STATUS_local_nr port.val) = 0 → fl = body.zipIdx.filter (fun f => BH.side x.hdr f.2 % 4 != 0) → at_ = u.releaseAt port.val fl.length (u.now - (u.now + 65536 - BH.rel x.hdr) % 65536) →
    due = (fl.zip at_).filter (fun f => decide (u.now ≤ f.2)) → ∃ t, exec (.bulkFrameReceived port x) s = .next t ∧ t = { u with regs := t.regs, btn := t.btn } ∧
      (t.port port.val).rxBuf = (u.port port.val).rxBuf ++ (due.take (4096 - (u.port port.val).rxBuf.length)).map (fun f => ⟨BH.side x.hdr f.1.2, f.1.1, f.2⟩) ∧
      t.get (F.BTN_P_CNT_LATE_count port.val) = min (u.get (F.BTN_P_CNT_LATE_count port.val) + (fl.length - due.length)) 0xFFFFFFFF) ∧
  (∀ port x (s : State) u fs v, 3 ≤ s.portSt (Fin.val (n := 12) port) → s.portSt port.val < 6 → BH.kind (XFrame.hdr x) = 2 → s.frameIn port.val true x = (some fs, u) → v = (fs.getD 1 0).toNat →
    (linkMessage fs = 0 → u.portSt port.val = 3 → ∃ t, exec (.identityFrame port x) s = .next t ∧ t.get (F.BTN_P_PEER_addr port.val) = v % 1024 ∧ t.get (F.BTN_P_PEER_port port.val) = v / 1024 % 16 ∧ t.get (F.BTN_P_PEER_valid port.val) = 1 ∧
      t.portSt port.val = if v / 2 ^ 14 % 16 = u.get F.BTN_TOPO_xd_m1 ∧ v / 2 ^ 18 % 8 = u.get F.BTN_TOPO_yd_m1 ∧ v / 2 ^ 21 % 8 = u.get F.BTN_TOPO_zd_m1 ∧ v % 1024 = u.neighbourAddr port.val ∧ v / 1024 % 16 = peerPort port.val then 3 else 6) ∧
    (linkMessage fs ≠ 0 → exec (.identityFrame port x) s = .next u) ∧ exec (.goingDownFrame port x) s = .next (if linkMessage fs = 1 then u.portDown port.val 6 else u) ∧ exec (.retrainRequest port x) s = .next u) ∧
  (∀ port x (s : State) u fs, 3 ≤ s.portSt (Fin.val (n := 12) port) → s.portSt port.val < 6 → BH.kind (XFrame.hdr x) = 3 → s.frameIn port.val true x = (some fs, u) →
    (u.get (F.BTN_P_STATUS_local_nr port.val) = 1 → exec (.tunnelFrame port x) s = .next (u.bump (F.BTN_P_CNT_NRDROP_count port.val))) ∧
    (u.get (F.BTN_P_STATUS_local_nr port.val) = 0 → (fs.headD 0).toNat / 1024 % 1024 ≠ u.selfAddr → exec (.tunnelFrame port x) s =
      .next (match u.tunnelPort ((fs.headD 0).toNat / 1024 % 1024) with | some p => u.express p 3 fs | none => u))) ∧
  (∀ port x (s : State) u fs f, 3 ≤ s.portSt (Fin.val (n := 12) port) → s.portSt port.val < 6 → BH.kind (XFrame.hdr x) = 1 → s.frameIn port.val true x = (some fs, u) → u.get (F.BTN_P_STATUS_local_nr port.val) = 0 → f = (fs.headD 0).toNat →
    ((f % 16 ≠ 0 ∨ u.black = true ∨ (f / 16 % 1024, f / 2 ^ 14 % 256) ∈ u.mar.stops) → exec (.teamStopFrame port x) s = .next u) ∧
    (f % 16 = 0 → u.black = false → (f / 16 % 1024, f / 2 ^ 14 % 256) ∉ u.mar.stops → ∃ t, exec (.teamStopFrame port x) s = .next t ∧ t.mar.stops = (f / 16 % 1024, f / 2 ^ 14 % 256) :: u.mar.stops ∧ t.get F.MAR_EVT_team_stop = 1 ∧
      ∀ h, h < 32 → heatBusy (u.heatSt h) = true → u.getA (F.TEAM_H_CFG_en h) = 1 → f / 2 ^ (22 + u.getA (F.TEAM_H_CFG_id h)) % 2 = 1 → t.heatSt h = 6)) ∧
  (∀ port sub s, s.portSt (Fin.val (n := 12) port) ∈ [0, 1, 7] → exec (.batonFlitSlot port sub) s = .next s) ∧
  (∀ port sub s f rest, s.portSt (Fin.val (n := 12) port) ∉ [0, 1, 7] → (s.port port.val).curX = f :: rest →
    exec (.batonFlitSlot port sub) s = .next ((s.modPort port.val fun b => { b with curX := rest, slots := b.slots + 1 }).slotOut port.val f)) ∧
  (∀ port sub s at_ f rest, s.portSt (Fin.val (n := 12) port) ∈ [3, 4, 5] → (s.port port.val).curX = [] → (s.port port.val).ctlQ = (at_, f) :: rest → at_ ≤ 16 * s.now + BitVec.toNat (w := 4) sub → (s.port port.val).slots ≤ 62 →
    exec (.batonFlitSlot port sub) s = .next ((s.modPort port.val fun b => { b with ctlQ := rest, slots := b.slots + 1 }).slotOut port.val (CB.withLag f (16 * s.now + sub.toNat - at_)))) ∧
  (∀ port sub s f rest, s.portSt (Fin.val (n := 12) port) ∈ [2, 3, 4, 5, 6] → (s.port port.val).curX = [] → (s.port port.val).ctlQ = [] → s.nextExpress port.val = none → (s.port port.val).curB = f :: rest →
    exec (.batonFlitSlot port sub) s = .next ((s.modPort port.val fun b => { b with curB := rest, slots := b.slots + 1 }).slotOut port.val f)) ∧
  ∀ (s : State) (p : PortId) f n v, n = (s.port p.val).txN + 256 → v = (s.port p.val).txV + BitVec.toNat (w := 256) f * 2 ^ (s.port p.val).txN →
    (n < 5140 → s.slotOut p.val f = (s.send (.slot p.val f)).modPort p.val fun b => { b with txN := n, txV := v }) ∧
    (5140 ≤ n → s.slotOut p.val f = ((s.send (.slot p.val f)).modPort p.val fun b => { b with txN := n - 5140, txV := v / 2 ^ 5140 }).send (.codeword p.val (rsLanes (rsWord (v % 2 ^ 5140)))))

/-- CHECKER_REPORT of a code that no checker has, of a muted region, or with residues that agree, changes nothing; a parity
error in a heat's masthead ends its oldest operation without an end with checked fault; of a red class of a core in a
busy heat, it counts red and halts the heat with cause 1; of a black class, the module goes black and counts it. A
heartbeat is taken; its absence for 10 ms is recorded, and outside an announced restart counts yellow. Collected
signatures end equal, and a core whose signatures differed halts its busy heat. The audit acts when armed: it names
the lap's regions, and a silent region goes out of service with its cores in reset. A monitor that does not trip, and
each black excursion, turn the module black; the two yellow ones count yellow. SAFE_STOP_N halts every busy heat with
cause 3; its release clears the bit. An update ends armed. -/
def Obligations.MarshalReports : Prop :=
  (∀ code site detail ev s, ((BitVec.toNat (w := 12) code < 0x201 ∨ 0x20D < code.toNat ∧ code.toNat < 0x301 ∨ 0x303 < code.toNat) ∨ s.checks code.toNat (BitVec.toNat (w := 16) site) = false ∨ seesFault code.toNat ev = false) → exec (.checkerReport code site detail ev) s = .next s) ∧
  (∀ code site detail sa sb p s, sa % 3 * (sb % 3) % 3 = p % 3 → exec (.checkerReport code site detail (.product sa sb p)) s = .next s) ∧
  (∀ site detail s h op rest, BitVec.toNat (w := 16) site = h → h < 32 → (s.halH h).ops = op :: rest → op.final = none → op.team = none → (∀ o ∈ rest, o.seq ≠ op.seq) → ∃ t, exec (.checkerReport 0x20D site detail .found) s = .next t ∧
    t.halH h = { s.halH h with ops := { op with final := some ⟨6, false, false, false, [], none⟩ } :: rest } ∧ t.get F.HAL_EVT_checked = 1 ∧ t.get F.HAL_CNT_CHECKED_count = min (s.get F.HAL_CNT_CHECKED_count + 1) 0xFFFFFFFF ∧ t.mem = s.mem) ∧
  (∀ code site detail ev s h, seesFault (BitVec.toNat (w := 12) code) ev = true → 0x201 ≤ BitVec.toNat (w := 12) code → code.toNat ≤ 0x205 → s.checks code.toNat (BitVec.toNat (w := 16) site) = true → site.toNat < 2048 → s.coreOwner site.toNat = some h → heatBusy (s.heatSt h) = true →
    ∃ t, exec (.checkerReport code site detail ev) s = .next t ∧ t.heatSt h = 6 ∧ t.get (F.HEAT_H_STATE_cause h) = 1 ∧ t.get (F.HEAT_H_STATE_resumable h) = 0 ∧ t.get (F.MAR_H_FAIL_HI_red h) = 1 ∧
      t.get F.MAR_CNT_RED_count = min (s.get F.MAR_CNT_RED_count + 1) 0xFFFFFFFF ∧ t.mem = s.mem) ∧
  (∀ code site detail s ev, seesFault (BitVec.toNat (w := 12) code) ev = true → 0x301 ≤ BitVec.toNat (w := 12) code → code.toNat ≤ 0x303 → ∃ t, exec (.checkerReport code site detail ev) s = .next t ∧ t.get F.MAR_STATUS_state = 5 ∧
    t.get F.MAR_CNT_BLACK_count = min (s.get F.MAR_CNT_BLACK_count + 1) 0xFFFFFFFF ∧ (s.black = false → t.get F.MAR_STATUS_fault_n = 1 ∧ t.get F.STA_BOOT_state = 6 ∧ ∀ h, h < 32 → s.heatSt h ≠ 0 → t.heatSt h = 6)) ∧
  (∀ s, ∃ t, exec .starterHeartbeat s = .next t ∧ t = { s with mar := { s.mar with beatMs := s.boot.ms }, regs := t.regs } ∧ t.get F.MAR_STATUS_starter_ok = 1) ∧
  (∀ s, (s.boot.ms < s.mar.beatMs + 10 ∨ s.get F.MAR_STATUS_starter_ok = 0) → exec .heartbeatTimeout s = .next s) ∧
  (∀ s, s.mar.beatMs + 10 ≤ s.boot.ms → s.get F.MAR_STATUS_starter_ok = 1 → ∃ t, exec .heartbeatTimeout s = .next t ∧ t.get F.MAR_STATUS_starter_ok = 0 ∧
    t.get F.MAR_CNT_YELLOW_count = if s.boot.ms ≤ s.mar.quietTo then s.get F.MAR_CNT_YELLOW_count else min (s.get F.MAR_CNT_YELLOW_count + 1) 0xFFFFFFFF) ∧
  (∀ s, ∃ t, exec .signatureCollection s = .next t ∧ (∀ k, (t.core k).sigShadowLatched = (t.core k).sigLatched ∧ (t.core k).sigLatched = (s.core k).sigLatched) ∧
    ∀ k h c, k < 2048 → Tab.find s.cores k = some c → c.sigLatched ≠ c.sigShadowLatched → s.coreOwner k = some h → heatBusy (s.heatSt h) = true → t.heatSt h = 6) ∧
  (∀ silent restored s, s.get F.MAR_STATUS_state ≠ 3 → exec (.latentFaultAudit silent restored) s = .next s) ∧
  (∀ restored s, s.get F.MAR_STATUS_state = 3 → s.mar.restore = none → s.mar.mute = [] → ∃ t, exec (.latentFaultAudit 0 restored) s = .next t ∧ t = { s with regs := t.regs } ∧ t.get F.MAR_STATUS_audit = s.lapN % 64) ∧
  (∀ restored s r, s.get F.MAR_STATUS_state = 3 → s.mar.restore = none → s.mar.mute = [] → r = 4 * (s.lapN % 64) → ∃ t, exec (.latentFaultAudit 1 restored) s = .next t ∧ t.isOut r = true ∧ t.get F.MAR_EVT_audit_fail = 1 ∧
    ∀ k, k < 2048 → regionOf k = r → s.fenced k = false → (Tab.find s.cores k).isSome = true → (t.core k).run = .inReset) ∧
  (∀ s, exec (.monitorSelfTest true) s = .next s) ∧ (∀ s, ∃ t, exec (.monitorSelfTest false) s = .next t ∧ t.black = true ∧ t.get F.MAR_CNT_BLACK_count = min (s.get F.MAR_CNT_BLACK_count + 1) 0xFFFFFFFF) ∧
  (∀ m s, (m ∈ [.fabricLoss, .fabricFreq, .reference, .mainInput, .inputCurrent, .dieCritical, .hbmCritical, .marshalSupply, .marshalOscillator] ∨ ∃ n, m = .rail n) →
    ∃ t, exec (.monitorExcursion m) s = .next t ∧ t.black = true ∧ t.get F.MAR_CNT_BLACK_count = min (s.get F.MAR_CNT_BLACK_count + 1) 0xFFFFFFFF) ∧
  (∀ m s, m ∈ [.inputPower, .dieWarn] → ∃ t, exec (.monitorExcursion m) s = .next t ∧ t.get F.MAR_CNT_YELLOW_count = min (s.get F.MAR_CNT_YELLOW_count + 1) 0xFFFFFFFF ∧ t.heats = s.heats ∧ t.cores = s.cores ∧ t.mem = s.mem) ∧
  (∀ s, s.get F.MAR_STATUS_safe_stop = 1 → exec .safeStopN s = .next s) ∧
  (∀ s, s.get F.MAR_STATUS_safe_stop = 0 → ∃ t, exec .safeStopN s = .next t ∧ t.get F.MAR_STATUS_safe_stop = 1 ∧ ∀ h, h < 32 → heatBusy (s.heatSt h) = true → t.heatSt h = 6 ∧ t.get (F.HEAT_H_STATE_cause h) = 3) ∧
  (∀ s, ∃ t, exec .safeStopNReleased s = .next t ∧ t = { s with regs := t.regs } ∧ t.get F.MAR_STATUS_safe_stop = 0) ∧
  (∀ s, s.get F.MAR_STATUS_state ≠ 4 → exec .marshalUpdateArmed s = .next s) ∧
  ∀ s, s.get F.MAR_STATUS_state = 4 → ∃ t, exec .marshalUpdateArmed s = .next t ∧ t.get F.MAR_STATUS_state = 3 ∧ t.mar.armed = true ∧ t.boot.marPending = false ∧ t.con.marUpdate = none

/-- A doorbell at an attachment that no heat owns changes nothing; one that R605 does not accept is counted as
refused; an accepted one enters its entries in index order, each stamped with the present lap and held, up to the
index it carries. A drain with an empty or lost queue, without an attachment, or whose oldest entry is held, changes
nothing; with a full record ring it says so. A discarded entry, or a released one without data, leaves the queue with
its record in host memory at its place in the ring, and the done index passes it. -/
def Obligations.ReleaseQueue : Prop :=
  (∀ a src v s, s.coreOwner (hostSite (Fin.val (n := 2) a)) = none → exec (.releaseDoorbell a src v) s = .next s) ∧
  (∀ a src v s h prod n, s.coreOwner (hostSite (Fin.val (n := 2) a)) = some h → prod = s.get (F.HEAT_H_REL_PROD_prod h) → n = (BitVec.toNat (w := 32) v % 2 ^ 17 + 2 ^ 17 - prod) % 2 ^ 17 →
    (s.relAtt h ≠ some a.val ∨ s.coreOwner (BitVec.toNat (w := 11) src) ≠ some h ∨ s.rankOf src.toNat ≠ some (s.getA (F.HEAT_H_REL_CFG_rank h)) ∨ heatLive (s.heatSt h) = false ∨ n = 0 ∨ s.relN h - (prod + 2 ^ 17 - s.get (F.HEAT_H_REL_DONE_done h)) % 2 ^ 17 < n) →
    ∃ t, exec (.releaseDoorbell a src v) s = .next t ∧ t.get (F.HEAT_H_REL_CNT_REF_count h) = min (s.get (F.HEAT_H_REL_CNT_REF_count h) + 1) 0xFFFFFFFF ∧ t.rel = s.rel ∧ t.mem = s.mem ∧
      t.get (F.HEAT_H_REL_PROD_prod h) = prod ∧ t.get F.MAR_CNT_YELLOW_count = min (s.get F.MAR_CNT_YELLOW_count + 1) 0xFFFFFFFF) ∧
  (∀ a src v s h prod n, s.coreOwner (hostSite (Fin.val (n := 2) a)) = some h → prod = s.get (F.HEAT_H_REL_PROD_prod h) → n = (BitVec.toNat (w := 32) v % 2 ^ 17 + 2 ^ 17 - prod) % 2 ^ 17 → NoErrors s →
    s.relAtt h = some a.val → s.coreOwner (BitVec.toNat (w := 11) src) = some h → s.rankOf src.toNat = some (s.getA (F.HEAT_H_REL_CFG_rank h)) → heatLive (s.heatSt h) = true → 1 ≤ n →
    n ≤ s.relN h - (prod + 2 ^ 17 - s.get (F.HEAT_H_REL_DONE_done h)) % 2 ^ 17 →
    ∃ t, exec (.releaseDoorbell a src v) s = .next t ∧ t.get (F.HEAT_H_REL_PROD_prod h) = v.toNat % 2 ^ 17 ∧ (t.relH h).recs = (s.relH h).recs ∧ (∀ g, g ≠ h → t.relH g = s.relH g) ∧
      (t.relH h).ents.map (fun e => (e.idx, e.stamp, e.state)) = (s.relH h).ents.map (fun e => (e.idx, e.stamp, e.state)) ++ (List.range n).map fun j => ((prod + j) % 2 ^ 17, s.lapN, 1)) ∧
  (∀ (h : HeatId) (s : State), (s.relAtt h.toNat = none ∨ s.get (F.HEAT_H_REL_STATUS_state h.toNat) = 3 ∨ s.relDue h.toNat = false) → exec (.releaseDrain h) s = .next s) ∧
  (∀ (h : HeatId) (s : State) a, s.relAtt h.toNat = some a → s.get (F.HEAT_H_REL_STATUS_state h.toNat) ≠ 3 → s.relDue h.toNat = true →
    s.relM h.toNat ≤ ((s.relH h.toNat).recs + 2 ^ 17 - s.get (F.HEAT_H_REL_HCONS_hcons h.toNat)) % 2 ^ 17 → exec (.releaseDrain h) s = .next (s.put (F.HEAT_H_REL_STATUS_hring_full h.toNat) 1)) ∧
  ∀ (h : HeatId) (s : State) a e rest k m x, s.relAtt h.toNat = some a → s.get (F.HEAT_H_REL_STATUS_state h.toNat) ≠ 3 → (s.relH h.toNat).ents = e :: rest → NoErrors s → k = (s.relH h.toNat).recs → m = s.relM h.toNat → x = s.relEntry h.toNat e.idx →
    (k + 2 ^ 17 - s.get (F.HEAT_H_REL_HCONS_hcons h.toNat)) % 2 ^ 17 < m → (e.status ≠ 0 ∨ e.state = 2 ∧ RE.units x = 0) →
    ∃ t, exec (.releaseDrain h) s = .next t ∧ t.relH h.toNat = ⟨rest, (k + 1) % 2 ^ 32⟩ ∧ t.get (F.HEAT_H_REL_DONE_done h.toNat) = (e.idx + 1) % 2 ^ 17 ∧ t.get (F.HEAT_H_REL_STATUS_hring_full h.toNat) = 0 ∧
      t.outbox = .hostWrite a (s.relHost h.toNat + 32 * (k % m)) (relRecord k e.status h.toNat (RE.units x) e.stamp e.cause (RE.tag x) m) false false :: s.outbox

/-- AUX_APPLIED starts the standby clock of a new epoch, once; MGT_PORT_ACTIVE makes the port active where it has its
supply. POWER_UP without standby supply or with the main input on changes nothing; else a boot begins at S-01 at the
present standby time, every part of the rails reset. AUX_LOSS and a power cycle leave the main input off, the lap
count zero and the cores reset; the journal stays. MATE_N open with the main input on turns the module black.
BOOT_STEP outside a boot in progress changes nothing; from S-07 to S-14 a step that passes with no hold requested ends
with outcome 2 and the next is running, and one of S-08, S-09, S-14 or S-18 that fails is a false start: the next boot
is at S-01. SECTOR_ERASE_DONE marks the next sector erased. -/
def Obligations.PowerAndBootSteps : Prop :=
  (∀ s, s.boot.aux = true → exec .auxApplied s = .next s) ∧
  (∀ s, s.boot.aux = false → exec .auxApplied s = .next { s with boot := { s.boot with aux := true, ms := 0, sub := 0, epoch := (s.boot.epoch + 1) % 65536 } }) ∧
  (∀ s, exec .mgtPortActive s = .next { s with mgt := { s.mgt with active := s.boot.aux } }) ∧
  (∀ s, (s.boot.aux = false ∨ s.boot.main = true) → exec .powerUp s = .next s) ∧
  (∀ s, s.boot.aux = true → s.boot.main = false → ∃ t, exec .powerUp s = .next t ∧ t.boot.main = true ∧ t.boot.mate = true ∧ t.boot.step = 1 ∧ t.boot.t0 = s.boot.ms ∧ t.boot.journal = s.boot.journal ∧ t.pending = s.pending ∧
    t.cores = [] ∧ t.mem = MemSt.blank ∧ t.get F.STA_BOOT_step = 1 ∧ t.get (F.STA_STEP_outcome 1) = 1 ∧ t.lap = s.lap) ∧
  (∀ s, ∃ t, exec .auxLoss s = .next t ∧ t.boot.aux = false ∧ t.boot.main = false ∧ t.mgt = MgtSt.blank ∧ t.mar = MarSt.blank ∧ t.cores = [] ∧ t.mem = MemSt.blank ∧ t.lap = 0 ∧ t.boot.journal = s.boot.journal ∧ t.pending = s.pending) ∧
  (∀ s, ∃ t, exec .mainInputPowerCycle s = .next t ∧ t.boot.main = false ∧ t.boot.aux = s.boot.aux ∧ t.cores = [] ∧ t.mem = MemSt.blank ∧ t.lap = 0 ∧ t.boot.journal = s.boot.journal ∧ t.pending = s.pending ∧ t.get F.MAR_STATUS_lock = 0) ∧
  (∀ s, s.boot.main = false → exec .mateNOpen s = .next { s with boot := { s.boot with mate := false } }) ∧
  (∀ s, s.boot.main = true → ∃ t, exec .mateNOpen s = .next t ∧ t.boot.mate = false ∧ t.black = true ∧ t.get F.MAR_CNT_BLACK_count = min (s.get F.MAR_CNT_BLACK_count + 1) 0xFFFFFFFF) ∧
  (∀ r s, (s.boot.main = false ∨ s.black = true ∨ s.boot.holdAt.isSome = true ∨ s.boot.step = 0 ∨ 19 ≤ s.boot.step) → exec (.bootStep r) s = .next s) ∧
  (∀ s n dur flash, s.boot.main = true → s.black = false → s.boot.holdAt = none → s.boot.step = n → 7 ≤ n → n ≤ 14 → s.get F.STA_CTL_hold_req = 0 →
    ∃ t, exec (.bootStep ⟨dur, false, [], flash⟩) s = .next t ∧ t.boot.step = n + 1 ∧ t.get F.STA_BOOT_step = n + 1 ∧ t.get (F.STA_STEP_outcome n) = 2 ∧ t.get (F.STA_STEP_outcome (n + 1)) = 1 ∧ t.get F.STA_BOOT_last = 2 ∧ t.boot.holdAt = none) ∧
  (∀ s n dur bad flash, s.boot.main = true → s.black = false → s.boot.holdAt = none → s.boot.step = n → n ∈ [8, 9, 14, 18] → ∃ t, exec (.bootStep ⟨dur, true, bad, flash⟩) s = .next t ∧ t.boot.step = 1 ∧ t.get F.STA_BOOT_step = 1 ∧
    t.get (F.STA_STEP_outcome 1) = 1 ∧ t.boot.main = true) ∧
  (∀ s, s.boot.jErased = true → exec .sectorEraseDone s = .next s) ∧ ∀ s, s.boot.jErased = false → ∃ t, exec .sectorEraseDone s = .next t ∧ t = { s with boot := t.boot, regs := t.regs } ∧ t.boot.jErased = true

/-- PERST_N asserted with rail group 1 on takes the link down and empties the BAR2 sizes, and before S-15 withdraws
the release; deasserted, the deadline counts from there. The link trains from S-06 with PERST_N deasserted. A
configuration request is answered while the link is up. The deadline releases configuration with reduced functions,
where S-15 has not and a console is up. A function-level reset closes its mailbox. STARTER_RESTART begins a new boot
while the module boots, and else restarts the Starter alone, with every claim released; its completion ends that.
THROTTLE_STEP and THROTTLE_RAISE act at a lap boundary with their conditions met: each region 100 MHz down, not below
its floor, or up to its clock. -/
def Obligations.HostLinkStarterAndThrottle : Prop :=
  (∀ s, s.group1 = false → exec .perstNAsserted s = .next { s with boot := { s.boot with perst := true } }) ∧
  (∀ s, s.group1 = true → ∃ t, exec .perstNAsserted s = .next t ∧ t.boot = { s.boot with perst := true } ∧ t.get F.STA_BOOT_link = 0 ∧ t.mem = { s.mem with bar2 := [] } ∧ t.cores = s.cores ∧ t.heats = s.heats ∧
    t.get F.STA_BOOT_cfg_rel = if s.boot.s15 = true then s.get F.STA_BOOT_cfg_rel else 0) ∧
  (∀ s, exec .perstNDeasserted s = .next { s with boot := { s.boot with perst := false, perstMs := s.boot.ms - s.boot.t0 } }) ∧
  (∀ s, exec .hostLinkTrained s = .next (if s.boot.perst = true ∨ s.group1 = false ∨ s.boot.step < 6 then s else s.put F.STA_BOOT_link 1)) ∧
  (∀ pf s, exec (.configRequest pf) s = .next (if s.get F.STA_BOOT_link = 1 then s.send (.config (Fin.val (n := 2) pf) (decide (s.get F.STA_BOOT_cfg_rel = 1))) else s)) ∧
  (∀ s, (s.boot.s15 = true ∨ s.get F.STA_BOOT_cfg_rel = 1 ∨ s.boot.perst = true ∨ s.get F.STA_BOOT_console = 0) → exec .configDeadline s = .next s) ∧
  (∀ s, s.boot.s15 = false → s.get F.STA_BOOT_cfg_rel = 0 → s.boot.perst = false → s.get F.STA_BOOT_console = 1 → ∃ t, exec .configDeadline s = .next t ∧ t.get F.STA_BOOT_cfg_rel = 1 ∧ t.get F.STA_BOOT_reduced = 1 ∧
    t.get F.STA_EVT_cfg = 1 ∧ t.boot.reducedRel = true ∧ t = { s with boot := t.boot, regs := t.regs, sets := t.sets }) ∧
  (∀ pf s, ∃ t, exec (.functionLevelReset pf) s = .next t ∧ t = { s with con := t.con } ∧ (t.mailbox (Fin.val (n := 2) pf)).hctl = 0 ∧ (t.mailbox pf.val).mstat = 0 ∧ (Tab.wf s.con.sess = true → ∀ i x, t.session i = some x → x.ep = .mailbox pf → s.sessionOf (.mailbox pf) ≠ some i)) ∧
  (∀ s, (s.boot.main = false ∨ s.black = true ∨ s.boot.step = 0 ∨ s.boot.restarting = true) → exec .starterRestart s = .next s) ∧
  (∀ s, s.boot.main = true → s.black = false → s.boot.step ≠ 0 → s.boot.restarting = false →
    (s.boot.step < 19 → s.boot.holdAt = none → ∃ t, exec .starterRestart s = .next t ∧ t.boot.step = 1 ∧ t.get F.STA_BOOT_step = 1 ∧ t.cores = []) ∧
    ((19 ≤ s.boot.step ∨ s.boot.holdAt.isSome = true) → ∃ t, exec .starterRestart s = .next t ∧ t.boot = { s.boot with restarting := true } ∧ t.con.claim = none ∧ t.con.queue = [] ∧ t.get F.STA_BOOT_state = 7 ∧ t.mar = { s.mar with quietTo := s.boot.ms + 2500 } ∧
      t.cores = s.cores ∧ t.heats = s.heats ∧ t.mem = s.mem)) ∧
  (∀ f s, s.boot.restarting = false → exec (.starterRestartComplete f) s = .next s) ∧
  (∀ f s, s.boot.restarting = true → ∃ t, exec (.starterRestartComplete f) s = .next t ∧ t.boot.restarting = false ∧ t.get F.STA_EVT_restart = 1) ∧
  (∀ s, (s.pos ≠ 0 ∨ (∃ l, s.pwr.stepLap = some l ∧ s.lapN < l + 4) ∨ s.clocksSet = false) → exec .throttleStep s = .next s) ∧
  (∀ s, s.pos = 0 → (∀ l, s.pwr.stepLap = some l → l + 4 ≤ s.lapN) → s.clocksSet = true → ∃ t, exec .throttleStep s = .next t ∧ t = { s with pwr := { s.pwr with cap := t.pwr.cap, due := true, stepLap := some s.lapN } } ∧
    ∀ n, n < 256 → t.regionDue n = min (s.regionDue n) (max (s.regionDue n - 100) (max 800 (s.regionFloor n)))) ∧
  (∀ s, (s.pos ≠ 0 ∨ (∃ l, s.pwr.stepLap = some l ∧ s.lapN < l + 64) ∨ (∃ l, s.pwr.raiseLap = some l ∧ s.lapN < l + 64) ∨ s.throttled = false ∨ s.clocksSet = false) → exec .throttleRaise s = .next s) ∧
  ∀ s, s.pos = 0 → (∀ l, s.pwr.stepLap = some l → l + 64 ≤ s.lapN) → (∀ l, s.pwr.raiseLap = some l → l + 64 ≤ s.lapN) → s.throttled = true → s.clocksSet = true → Tab.wf s.pwr.cap = true →
    ∃ t, exec .throttleRaise s = .next t ∧ t = { s with pwr := { s.pwr with cap := t.pwr.cap, due := true, raiseLap := some s.lapN } } ∧ ∀ n, t.regionDue n = min (s.regionTarget n) (s.regionDue n + 100)

/-- A byte on USB without a session, or on the UART before S-03, changes nothing; during a restart of the Starter it
is counted as dropped; before session 0 it is buffered, up to 4 KiB; a printable one in a session with room joins the
partial line. A break ends the partial line at 115,200 baud; CTS_N is kept. A line in a mailbox session joins the
queue as it is; on the UART its bytes and a CR arrive. USB opens as the lowest free session once S-06 has passed,
closes with its session; a mailbox opens with its acknowledgement, and every hctl write is kept. A doorbell's bytes
enter the ring. A mailbox that takes no output for 10 s closes. Freed output leaves the session; flow control holds
it, and RTS_N asks for it between 3 KiB and 1 KiB of input. A tunnel session closes after 60 s without a line; a routed
line that has waited for 10 s is answered 0405. -/
def Obligations.ConsoleTransports : Prop :=
  (∀ b s, s.sessionOf .usb = none → exec (.uartByte true b) s = .next s) ∧
  (∀ b s, s.boot.restarting = true → ∃ t, exec (.uartByte false b) s = .next t ∧ t.con = s.con ∧ t.get F.STA_CNT_RXDROP_count = min (s.get F.STA_CNT_RXDROP_count + 1) 0xFFFFFFFF ∧ t.get F.STA_EVT_rxdrop = 1) ∧
  (∀ b s, s.boot.restarting = false → s.session 0 = none → (s.boot.main = false ∨ s.boot.step < 3) → exec (.uartByte false b) s = .next s) ∧
  (∀ b s, s.boot.restarting = false → s.session 0 = none → s.boot.main = true → 3 ≤ s.boot.step → s.con.early.length < 4096 → exec (.uartByte false b) s = .next { s with con := { s.con with early := s.con.early ++ [b] } }) ∧
  (∀ b s x, s.boot.restarting = false → s.session 0 = some x → x.ep = .uart → s.inUsed 0 < 4096 → x.part.length < 512 → 0x20 ≤ BitVec.toNat (w := 8) b → b.toNat ≤ 0x7E →
    ∃ t y, exec (.uartByte false b) s = .next t ∧ t.session 0 = some y ∧ y.part = x.part ++ [b] ∧ y.lastCr = false ∧ t.con.queue = s.con.queue ∧ t.con.claim = s.con.claim ∧ t.regs = s.regs ∧ t.heats = s.heats) ∧
  (∀ s, exec .uartBreak s = .next (s.modSession 0 fun x => { x with baud := 115200, newBaud := none, part := [], long_ := false })) ∧
  (∀ off s, exec (.uartCtsChange off) s = .next (s.modSession 0 fun x => { x with ctsOff := off })) ∧
  (∀ i text s, s.session (Fin.val (n := 4) i) = none → exec (.consoleLine i text) s = .next s) ∧
  (∀ i text s x, s.session (Fin.val (n := 4) i) = some x → x.ep = .uart → exec (.consoleLine i text) s = .next ((s.each text fun s b => s.byteIn i.val b).byteIn i.val 13).rts) ∧
  (∀ i text s x, s.session (Fin.val (n := 4) i) = some x → x.ep = .usb → exec (.consoleLine i text) s = .next ((s.each text fun s b => s.byteIn i.val b).byteIn i.val 13)) ∧
  (∀ (s : State) x, s.session 0 = some x → s.rts.session 0 = some { x with rtsOff := x.flow && (decide (3072 ≤ s.inUsed 0) || (x.rtsOff && decide (1024 ≤ s.inUsed 0))) } ∧ s.rts = { s with con := s.rts.con }) ∧
  (∀ i text s x pf, s.session (Fin.val (n := 4) i) = some x → x.ep = .mailbox pf → s.cmode ≠ .ready → (∃ b ∈ text, b ≠ 0x20) → text.length ≤ 512 →
    ∃ t, exec (.consoleLine i text) s = .next t ∧ t.con.queue = s.con.queue ++ [⟨i.val, text, false, none⟩] ∧ t = { s with con := t.con }) ∧
  (∀ s, s.transports = false → exec .usbOpen s = .next s) ∧
  (∀ s i, s.transports = true → s.sessionOf .usb = none → Endpoint.usb ∉ s.con.refused → i ∈ [1, 2, 3] → s.session i = none → (∀ j, 1 ≤ j → j < i → s.session j ≠ none) →
    exec .usbOpen s = .next (s.putSession i (s.freshSession .usb false))) ∧
  (∀ s, s.transports = true → s.sessionOf .usb = none → Endpoint.usb ∉ s.con.refused → (∀ j ∈ [1, 2, 3], s.session j ≠ none) →
    ∃ t, exec .usbOpen s = .next t ∧ t.outbox = .bytes .usb (lineBytes "ERR 0401 NO SESSION") :: s.outbox ∧ Endpoint.usb ∈ t.con.refused ∧ t.con.sess = s.con.sess) ∧
  (∀ s, s.sessionOf .usb = none → ∃ t, exec .usbClose s = .next t ∧ Endpoint.usb ∉ t.con.refused ∧ t = { s with con := { s.con with refused := t.con.refused } }) ∧
  (∀ s i, s.sessionOf .usb = some i → Tab.wf s.con.sess = true → ∃ t, exec .usbClose s = .next t ∧ t.session i = none ∧ t.con.claim ≠ some i ∧ ∀ j, j ≠ i → t.session j = s.session j) ∧
  (∀ pf v s, s.bar4 = false → exec (.mailboxHctlWrite pf v) s = .next s) ∧
  (∀ pf v s i, s.bar4 = true → s.boot.restarting = false → BitVec.toNat (w := 32) v % 2 = 1 → s.sessionOf (.mailbox pf) = none → Endpoint.mailbox pf ∉ s.con.refused → i ∈ [1, 2, 3] → s.session i = none → (∀ j, 1 ≤ j → j < i → s.session j ≠ none) →
    ∃ t, exec (.mailboxHctlWrite pf v) s = .next t ∧ t = { s with con := t.con } ∧ (t.mailbox (Fin.val (n := 2) pf)).hctl = v.toNat % 4 ∧ (t.mailbox pf.val).mstat = 1 + 2 * i ∧ t.session i = some (s.freshSession (.mailbox pf) true)) ∧
  (∀ pf v s, s.bar4 = true → s.boot.restarting = false → BitVec.toNat (w := 32) v % 2 = 0 → ∃ t, exec (.mailboxHctlWrite pf v) s = .next t ∧ (s.sessionOf (.mailbox pf) = none → (t.mailbox (Fin.val (n := 2) pf)).hctl = v.toNat % 4)) ∧
  (∀ pf bytes s, s.bar4 = false → exec (.mailboxDoorbell pf bytes) s = .next s) ∧
  (∀ pf bytes s m, s.bar4 = true → s.sessionOf (.mailbox pf) = none → m = s.mailbox (Fin.val (n := 2) pf) → (m.inProd + 2 ^ 32 - m.inCons) % 2 ^ 32 + List.length bytes ≤ 16384 →
    ∃ t, exec (.mailboxDoorbell pf bytes) s = .next t ∧ t = { s with con := t.con } ∧ (t.mailbox pf.val).inProd = (m.inProd + bytes.length) % 2 ^ 32 ∧ (t.mailbox pf.val).inCons = m.inCons) ∧
  (∀ pf s, (s.sessionOf (.mailbox pf) = none ∨ ∀ t0, (s.mailbox (Fin.val (n := 2) pf)).fullMs = some t0 → s.boot.ms < t0 + 10000) → exec (.mailboxOutputTimeout pf) s = .next s) ∧
  (∀ pf s i t0, s.sessionOf (.mailbox pf) = some i → (s.mailbox (Fin.val (n := 2) pf)).fullMs = some t0 → t0 + 10000 ≤ s.boot.ms → Tab.wf s.con.sess = true →
    ∃ t, exec (.mailboxOutputTimeout pf) s = .next t ∧ (t.mailbox pf.val).mstat = 64 ∧ t.session i = none ∧ t.con.claim ≠ some i) ∧
  (∀ i n s, s.session (Fin.val (n := 4) i) = none → exec (.outputSpaceFree i n) s = .next s) ∧
  (∀ i n s x, s.session (Fin.val (n := 4) i) = some x → x.ep = .uart → x.flow = true → x.ctsOff = true → exec (.outputSpaceFree i n) s = .next s) ∧
  (∀ i n s x, s.session (Fin.val (n := 4) i) = some x → (x.ep = .uart ∧ (x.flow = false ∨ x.ctsOff = false) ∨ x.ep = .usb) → x.paused = [] → x.dropped = 0 → x.newBaud = none →
    ∃ t, exec (.outputSpaceFree i n) s = .next t ∧ t.session i.val = some { x with out := x.out.drop (BitVec.toNat (w := 16) n) } ∧ t.outbox = .bytes x.ep (x.out.take n.toNat) :: s.outbox ∧ t.con.queue = s.con.queue ∧ t.regs = s.regs) ∧
  (∀ i s x m n, s.session (Fin.val (n := 4) i) = some x → x.ep = .tunnel m n → x.lastMs + 60000 ≤ s.boot.ms → Tab.wf s.con.sess = true → ∃ t, exec (.tunnelIdleTimeout i) s = .next t ∧ t.session i.val = none ∧ t.con.claim ≠ some i.val) ∧
  (∀ i s x, s.session (Fin.val (n := 4) i) = some x → ((∀ m n, x.ep ≠ .tunnel m n) ∨ s.boot.ms < x.lastMs + 60000) → exec (.tunnelIdleTimeout i) s = .next s) ∧
  (∀ i s, (∀ r ∈ s.con.routed, r.dead = true ∨ r.line.sess ≠ i ∨ s.boot.ms < r.sentMs + 10000) → exec (.tunnelTimeout i) s = .next s) ∧
  ∀ i s r rest, s.con.routed = r :: rest → r.dead = false → r.line.sess = i → r.sentMs + 10000 ≤ s.boot.ms → exec (.tunnelTimeout i) s = .next (({ s with con := { s.con with routed := { r with dead := true } :: rest } } : State).reply r.line [] "ERR 0405 TUNNEL TIMEOUT")

/-- With no line that may begin, LINE_EXECUTE changes nothing. A line that passes the first checks and whose verb and
object name a command runs that command on its arguments, and then complete lines waiting in the mailboxes' rings are
taken. A line with an error of step 1 or 2, of its verb or object, or of its route, is answered with that error and
runs nothing. A command line of a session that is not open changes nothing. A state that does not admit it, an
argument that does not parse, a missing key, and, for class C, a missing claim are answered in this order, with
nothing else changed; the claim is not asked where the command excepts the state. -/
def Obligations.ConsoleLinesRun : Prop :=
  (∀ s, s.nextLine = none → exec .lineExecute s = .next s) ∧
  (∀ s q j i x u p v o ts c t, s.nextLine = some (q, j) → q.sess = Fin.val (n := 4) i → s.session q.sess = some x → u = { s with con := { s.con with queue := s.con.queue.eraseIdx j } } →
    p = parseLine x.mailbox q.long_ q.text → p.stepOne u.selfAddr = none → u.verbErr p.toks = none → verbOf p.gen.isSome p.toks = .ok (v, o, ts) → (∃ a, p.route = .ok a) → v ≠ "stop" →
    VerbRow v o c → (v = "claim" → forced (lineOf i p ts) = false) → exec (c (lineOf i p ts)) u = .next t → exec .lineExecute s = .next ((t.mailTake 0 512).mailTake 1 512).rts) ∧
  (∀ s q j i x u p e t, s.nextLine = some (q, j) → q.sess = Fin.val (n := 4) i → s.session q.sess = some x → u = { s with con := { s.con with queue := s.con.queue.eraseIdx j } } →
    p = parseLine x.mailbox q.long_ q.text →
    (p.stepOne u.selfAddr = some e ∨ p.stepOne u.selfAddr = none ∧ u.verbErr p.toks = some e ∨ p.stepOne u.selfAddr = none ∧ u.verbErr p.toks = none ∧ verbOf p.gen.isSome p.toks = .error e) →
    t = (u.modSession q.sess fun x => { x with line := some (lineOf i p []) }).reply (lineOf i p []) [] e → exec .lineExecute s = .next ((t.mailTake 0 512).mailTake 1 512).rts) ∧
  (∀ (f : Line → Instr) c, ClaimedRow f c → ∀ s l, s.session l.sess.val = none → exec (f l) s = .next s) ∧
  (∀ (f : Line → Instr) c, ClaimedRow f c → ∀ s l, (s.session l.sess.val).isSome = true → s.elsewhere l = none → s.keptFor l = none → s.cmode ∉ c.modes →
    exec (f l) s = .next ((s.begun l).replyC l [] s.notAdmitted)) ∧
  (∀ (f : Line → Instr) c, ClaimedRow f c → ∀ s l e, (s.session l.sess.val).isSome = true → s.elsewhere l = none → s.keptFor l = none → s.cmode ∈ c.modes → parseArgs c.keys [] 16 l.args = .error e →
    exec (f l) s = .next ((s.begun l).replyC l [] e)) ∧
  (∀ (f : Line → Instr) c, ClaimedRow f c → ∀ s l a k, (s.session l.sess.val).isSome = true → s.elsewhere l = none → s.keptFor l = none → s.cmode ∈ c.modes → parseArgs c.keys [] 16 l.args = .ok a →
    k ∈ c.req → a.has k = false → exec (f l) s = .next ((s.begun l).replyC l [] (errCol "0202 MISSING KEY" l.endCol))) ∧
  (∀ (f : Line → Instr) c, ClaimedRow f c → ∀ s l a, (s.session l.sess.val).isSome = true → s.elsewhere l = none → s.keptFor l = none → s.cmode ∈ c.modes → parseArgs c.keys [] 16 l.args = .ok a →
    (∀ k ∈ c.req, a.has k = true) → s.con.claim = none → exec (f l) s = .next ((s.begun l).replyC l [] "ERR 0304 NOT CLAIMED")) ∧
  (∀ (f : Line → Instr) c, ClaimedRow f c → ∀ s l a j, (s.session l.sess.val).isSome = true → s.elsewhere l = none → s.keptFor l = none → s.cmode ∈ c.modes → parseArgs c.keys [] 16 l.args = .ok a →
    (∀ k ∈ c.req, a.has k = true) → s.con.claim = some j → j ≠ l.sess.val → exec (f l) s = .next ((s.begun l).replyC l [] ("ERR 0302 CLAIMED BY SESSION " ++ toString j))) ∧
  ∀ (f : Line → Instr) c, ClaimedRow f c → ∀ s l k, (s.session l.sess.val).isSome = true → s.elsewhere l = none → s.keptFor l = some k → exec (f l) s = .next ((s.begun l).reply l [] k.final)

/-- Each class R command, on a line the state admits and where its own conditions hold, answers with the data lines
written here and `OK` and changes nothing but its session: the line of `lap status`, `lap counters`, `mesh show`, `mesh
dist` of a site that exists, `num show`, `get session`, `update show`, and, for a heat that is not free, `team show`,
and `team tail` of a team heat; the two lines of `halyard counters` and the three of `kv show` of such a heat; a line
for each port, each heat that is not free, each loaded image, each journal entry or pennant asked for, each verb of
`help`; the lines of the boot, module, heats and Marshal of `status`. `get reg` prints the value that a read through the
console gives, and a field of it, with the read's own effects. `power show` and `thermal show` draw the sensor readings
as free values (the model's choice, log entry 4). -/
def Obligations.ConsoleShows : Prop :=
  Shows Instr.lapStatus (cmdR [] []) (fun _ _ => True) (fun _ b => [b.lapStatusLine]) ∧ Shows Instr.lapCounters (cmdR [] []) (fun _ _ => True) (fun _ b => [b.lapCountersLine]) ∧
  Shows Instr.batonShow (cmdR [("port", .num 0 11 1)] []) (fun _ _ => True) (fun a b => ((match a.nat? "port" with | some p => [p] | none => List.range 12).map b.batonLine)) ∧
  Shows Instr.halyardShow (cmdR [("heat", .num 0 31 1)] []) (fun a b => ∀ h, a.nat? "heat" = some h → b.heatExists h = true)
    (fun a b => (match a.nat? "heat" with | some h => [h] | none => (List.range 32).filter b.heatExists).map b.halLine) ∧
  Shows Instr.halyardCounters (cmdR [("heat", .num 0 31 1)] ["heat"]) (fun a b => b.heatExists (a.nat "heat") = true) (fun a b => b.halCountLines (a.nat "heat")) ∧
  Shows Instr.kvShow (cmdR [("heat", .num 0 31 1)] ["heat"]) (fun a b => b.heatExists (a.nat "heat") = true) (fun a b => b.kvLines (a.nat "heat")) ∧
  Shows Instr.meshShow (cmdR [("heat", .num 0 31 1)] []) (fun _ _ => True) (fun a b => [match a.nat? "heat" with | some h => b.meshHeatLine h | none => b.meshLine]) ∧
  Shows Instr.meshDist (cmdR [("src", .num 0 2047 1), ("kind", .word distKinds), ("dst", .num 0 2047 1)] ["src", "kind", "dst"])
    (fun a _ => (distSite (distKinds.findIdx (· == a.str "kind")) (a.nat "dst")).isSome = true)
    (fun a _ => (distSite (distKinds.findIdx (· == a.str "kind")) (a.nat "dst")).toList.map fun x => distLine (distVal (a.nat "src") x)) ∧
  Shows Instr.meshSlot (cmdR [("router", .num 0 2047 1), ("output", .word outNames), ("slot", .num 0 127 1), ("view", .word ["staged", "active"])] ["router", "output", "slot"])
    (fun a _ => outNames.findIdx (· == a.str "output") ∈ meshOuts (a.nat "router") ++ relayOuts (a.nat "router"))
    (fun a b => let o := outNames.findIdx (· == a.str "output")
      let e := (Tab.get (slotReset o) (if a.str "view" = "staged" then b.mesh.slotS else b.mesh.slotA) (slotKey (a.nat "router") o (a.nat "slot"))).toNat
      [join [kvp "entry" e, "meaning=" ++ slotMeaning o e]]) ∧
  Shows Instr.meshLate (cmdR [("cons", .num 0 278 1)] ["cons"]) (fun _ _ => True) (fun a b => [kvp "count" (Tab.get 0 b.mesh.late (a.nat "cons")).toNat]) ∧
  Shows Instr.numShow (cmdR [("core", .num 0 2047 1)] ["core"]) (fun _ _ => True) (fun a b => [b.numLine (a.nat "core")]) ∧
  Shows Instr.teamShow (cmdR [("heat", .num 0 31 1)] ["heat"]) (fun a b => b.heatExists (a.nat "heat") = true) (fun a b => [b.teamLine (a.nat "heat")]) ∧
  Shows Instr.teamTail (cmdR [("heat", .num 0 31 1), ("last", .num 1 255 1)] ["heat"]) (fun a b => b.heatExists (a.nat "heat") = true ∧ b.getA (F.TEAM_H_CFG_en (a.nat "heat")) = 1)
    (fun a b => b.tailLines (a.nat "heat") (a.nat "last" 1)) ∧
  Shows Instr.heatShow { classC := false, modes := [.ready], keys := [heatKey, ("detail", .num 0 1 1)] } (fun _ _ => True)
    (fun a b => (match a.nat? "id" with | some h => [h] | none => (List.range 32).filter b.heatExists).flatMap fun h => b.heatLines h (a.nat "detail" == 1)) ∧
  Shows Instr.imageShow { classC := false, modes := [.ready] } (fun _ _ => True) (fun _ b => (List.range 32).filterMap fun h => (b.heat h).image.map (imageLine h)) ∧
  Shows Instr.marshalShow { classC := false, modes := [.hold, .ready, .black], keys := [("heat", .num 0 31 1)] } (fun _ _ => True)
    (fun a b => [match a.nat? "heat" with | some h => b.marHeatLine h | none => b.marLine]) ∧
  Shows Instr.statusCmd { classC := false, modes := allModes } (fun _ b => b.boot.step < 19) (fun _ b => [b.statusBoot]) ∧
  Shows Instr.statusCmd { classC := false, modes := allModes } (fun _ b => 19 ≤ b.boot.step)
    (fun _ b => [b.statusBoot, b.statusModule] ++ ((List.range 32).filter b.heatExists).map b.statusHeat ++ [b.statusMarshal]) ∧
  Shows Instr.statusFence { classC := false, modes := allModes } (fun _ _ => True)
    (fun _ b => ((List.range 64).filter fun n => b.fenceReg n != 0 || b.outReg n != 0).map fun n => join [kvp "block" n, "fenced=0x" ++ hexN 8 (b.fenceReg n), "oos=0x" ++ hexN 8 (b.outReg n)]) ∧
  Shows Instr.journalCmd { classC := false, modes := allModes, keys := [("n", .num 1 256 1)] } (fun _ _ => True)
    (fun a b => ((jSorted b.jEntries).take (a.nat "n" 16)).map fun e => entryLine e.1 e.2.1 e.2.2) ∧
  Shows Instr.journalShow { classC := false, modes := allModes, keys := [("slot", .num 0 255 1)], req := ["slot"] } (fun _ _ => True)
    (fun a b => if jValid (b.jSlot (a.nat "slot")) = true then entryFull (a.nat "slot") (jNum (b.jSlot (a.nat "slot")) 4 4) (b.jSlot (a.nat "slot")) else []) ∧
  Shows Instr.updateShow { classC := false, modes := [.hold, .ready] } (fun _ _ => True) (fun _ b => [b.updateLine]) ∧
  (∀ s l a b x, Admitted s l { classC := false, modes := [.hold, .ready] } a → b = s.begun l → b.session l.sess.val = some x → exec (.getSession l) s = .next (b.ok l [b.sessionLine l.sess.val x])) ∧
  Shows Instr.helpCmd { classC := false, modes := [.hold, .ready] } (fun _ _ => True) (fun _ _ => verbTable.map helpLine) ∧
  (∀ s l w v ls, Admitted s { l with args := [] } { classC := false, modes := [.hold, .ready] } [] → l.args = [w] → w.key = "" → List.find? (fun x => x.1 == lower w.val) syntaxLines = some (v, ls) →
    exec (.helpCmd l) s = .next ((s.begun { l with args := [] }).ok { l with args := [] } ls)) ∧
  Shows Instr.logCmd { classC := false, modes := [.hold, .ready, .black], keys := [("n", .num 1 1024 1), ("colour", .word ["yellow", "red", "black"]), ("heat", .num 0 31 1)] }
    (fun _ _ => True) (fun a b => ((b.logNewest.filter fun e => (match a.str? "colour" with | some c => penName e.pen == c | none => true) && (match a.nat? "heat" with | some h => e.heat == some h | none => true)).take (a.nat "n" 16)).map pennantText) ∧
  (∀ s l a b n v u, Admitted s l { classC := false, modes := [.hold, .ready], keys := [("reg", Form.name), ("field", .name), ("view", .word ["staged", "active"])], req := ["reg"] } a → b = s.begun l →
    regLookup (a.str "reg") = some n → (a.str "view" = "active" → n.spec.acc = .ws) → b.blockUp n.spec n.off = true → b.readNamed n (a.str "view" == "active") = (v, u) →
    (a.str? "field" = none → exec (.getReg l) s = .next (u.ok l [join ["reg=" ++ n.text, "access=" ++ accessName n.spec.acc, "value=" ++ valueText n v]])) ∧
    ∀ k f, a.str? "field" = some k → b.fieldNamed n k = some f →
      exec (.getReg l) s = .next (u.ok l [join ["reg=" ++ n.text, "access=" ++ accessName n.spec.acc, "value=" ++ valueText n v, "field=" ++ lower f.name, "fvalue=" ++ fieldText n.spec.name f v]])) ∧
  (∀ s l a b v s1 i s2 w s3 k s4, Admitted s l { classC := false, modes := [.ready], keys := [("regions", .num 0 1 1)] } a → b = s.begun l → b.sense 3 = (v, s1) → s1.sense 4 = (i, s2) → s2.sense 2 = (w, s3) → s3.sense 5 = (k, s4) →
    exec (.powerShow l) s = .next (s4.ok l (b.powerLine v i w k :: if a.nat "regions" = 1 then (List.range 256).map b.regionLine else [])) ∧ s4 = { b with freeCtr := b.freeCtr + 4 }) ∧
  ∀ s l a b d s1 h s2, Admitted s l { classC := false, modes := [.ready] } a → b = s.begun l → b.sense 0 = (d, s1) → s1.sense 1 = (h, s2) → exec (.thermalShow l) s = .next (s2.ok l [b.thermalLine d h]) ∧ s2 = { b with freeCtr := b.freeCtr + 2 }

/-- Where the conditions written here hold, each setting command of class C leaves the fields whose keys are given at
those values, leaves alone the registers that are not named here, and answers `OK`: `lap set`, `lap out`, `baton eq`,
`baton set`, `thermal warn`, `heat set`, `team set`, `num cfg`, `num seed`, `num clear`, `marshal service`, `marshal
lock`, `marshal inject`, `power clock`, `set session`; `lap set ref=0` ends the qualification of LAP_IN as well (the
model's reading, log entry 70), and `marshal lock persist=1` stores the lock. The lock refuses the locked ones with
0317, a busy heat with 0312, a halted one with 0335, a clock below the floor with 0341; what does not fit is refused at
its column. A `num` command with core=all passes over fenced cores. `claim` takes a free claim and keeps its own; `claim
force=1` from session 0, or in hold, takes it from its holder; `unclaim` gives it up. -/
def Obligations.ConsoleSettings : Prop :=
  Acts Instr.lapSet (cmdC [("role", .word ["follower", "eligible", "forced"]), ("pri", .num 0 15 1), ("ref", .num 0 1 1)] []) (fun _ b => b.locked = false)
    (fun a b t ds => ds = [] ∧ Taken a "pri" F.LAP_CFG_pri b t ∧ Taken a "ref" F.LAP_CFG_ref_en b t ∧ OnlyRegs b t [R.LAP_CFG.off, R.LAP_STATUS.off, R.LAP_PACER.off] ∧ (t.get F.LAP_CFG_ref_en = 0 → t.get F.LAP_STATUS_ref_ok = 0) ∧ (t.get F.LAP_CFG_ref_en = 1 → OnlyRegs b t [R.LAP_CFG.off]) ∧
      t.get F.LAP_CFG_role = match a.str? "role" with | some w => roleNum w | none => b.get F.LAP_CFG_role) ∧
  Acts Instr.lapOut (cmdC [("en", .num 0 1 1), ("div", .num 0 12 1)] []) (fun _ _ => True)
    (fun a b t ds => ds = [] ∧ Taken a "en" F.LAP_CTL_out_en b t ∧ Taken a "div" F.LAP_CTL_out_div b t ∧ OnlyRegs b t [R.LAP_CTL.off]) ∧
  Acts Instr.batonEq (cmdC [("port", .list 0 11 true), ("preset", .num 0 11 1)] ["port", "preset"]) (fun _ b => b.locked = false)
    (fun a b t ds => ds = [] ∧ (∀ p < 12, t.get (F.BTN_P_EQ_preset p) = if p ∈ a.list "port" then a.nat "preset" % 2 ^ 4 else b.get (F.BTN_P_EQ_preset p)) ∧ OnlyRegs b t ((a.list "port").map fun p => (R.BTN_P_EQ p).off)) ∧
  Acts Instr.batonSet (cmdC [("blat", .num 256 1792 1), ("ue_down", .num 0 255 1)] []) (fun _ b => b.locked = false ∧ ∀ h < 32, heatBusy (b.heatSt h) = true → b.getA (F.TEAM_H_CFG_en h) ≠ 1)
    (fun a b t ds => ds = [] ∧ Taken a "blat" F.BTN_CFG_blat b t ∧ Taken a "ue_down" F.BTN_CFG_ue_down b t ∧ OnlyRegs b t [R.BTN_CFG.off]) ∧
  Turned Instr.batonSet (cmdC [("blat", .num 256 1792 1), ("ue_down", .num 0 255 1)] []) (fun _ b => b.locked = false ∧ ∃ h < 32, heatBusy (b.heatSt h) = true ∧ b.getA (F.TEAM_H_CFG_en h) = 1) "0312 HEAT RUNNING" ∧
  Acts Instr.thermalWarn (cmdC [("t", .num 80 105 1)] ["t"]) (fun _ b => b.locked = false) (fun a b t ds => ds = [] ∧ Taken a "t" F.MAR_CFG_t_warn b t ∧ OnlyRegs b t [R.MAR_CFG.off]) ∧
  (∀ (f : Line → Instr) c, (f, c) ∈ ([(Instr.lapSet, cmdC [("role", .word ["follower", "eligible", "forced"]), ("pri", .num 0 15 1), ("ref", .num 0 1 1)] []),
      (Instr.batonEq, cmdC [("port", .list 0 11 true), ("preset", .num 0 11 1)] ["port", "preset"]), (Instr.batonSet, cmdC [("blat", .num 256 1792 1), ("ue_down", .num 0 255 1)] []),
      (Instr.thermalWarn, cmdC [("t", .num 80 105 1)] ["t"]), (Instr.marshalService, cmdC [("on", .num 0 1 1)] ["on"]), (Instr.marshalLock, cmdC [("persist", .num 0 1 1)] [])] : List ((Line → Instr) × Cmd)) →
    Turned f c (fun _ b => b.locked = true) "0317 LOCKED") ∧
  Acts Instr.marshalService (cmdC [("on", .num 0 1 1)] ["on"]) (fun a b => b.locked = false ∧ a.nat "on" < 2)
    (fun a b t ds => ds = [] ∧ t.get F.MAR_SVC_on = a.nat "on" ∧ t.get F.MAR_STATUS_service = a.nat "on" ∧ OnlyRegs b t [R.MAR_SVC.off, R.MAR_STATUS.off]) ∧
  Acts Instr.marshalLock (cmdC [("persist", .num 0 1 1)] []) (fun a b => b.locked = false ∧ b.mar.lockUsed = false ∧ a.nat "persist" = 0)
    (fun _ b t ds => ds = [] ∧ t.get F.MAR_SVC_on = 0 ∧ t.get F.MAR_LOCK_lock = 1 ∧ t.get F.MAR_STATUS_lock = 1 ∧ t = { b with regs := t.regs, mar := { b.mar with lockUsed := true } }) ∧
  (∀ s l a b, Admitted s l (cmdC [("persist", .num 0 1 1)] []) a → b = s.begun l → b.locked = false → b.mar.lockUsed = false → a.nat "persist" = 1 →
    (∀ e, b.flashErr = some e → exec (.marshalLock l) s = .next (b.replyC l [] ("ERR " ++ e))) ∧
    (b.flashErr = none → exec (.marshalLock l) s = .next ((((b.storeSettings l.sess.val [] (some true)).setService false).setLock true).okC l []))) ∧
  Turned Instr.marshalLock (cmdC [("persist", .num 0 1 1)] []) (fun _ b => b.mar.lockUsed = true) "0317 LOCKED" ∧
  Turned Instr.marshalInject (cmdC [("kind", .num 0 12 1), ("site", .num 0 65535 1), ("heat", .num 0 31 1), ("at", .pos)] ["kind", "site", "heat", "at"]) (fun _ b => b.get F.MAR_SVC_on = 0) "0610 SERVICE MODE REQUIRED" ∧
  Turned Instr.marshalInject (cmdC [("kind", .num 0 12 1), ("site", .num 0 65535 1), ("heat", .num 0 31 1), ("at", .pos)] ["kind", "site", "heat", "at"]) (fun a b => b.get F.MAR_SVC_on = 1 ∧ (a.pos "at").1 ≤ b.lapN) "0240 LAP TOO EARLY" ∧
  Acts Instr.marshalInject (cmdC [("kind", .num 0 12 1), ("site", .num 0 65535 1), ("heat", .num 0 31 1), ("at", .pos)] ["kind", "site", "heat", "at"])
    (fun a b => b.get F.MAR_SVC_on = 1 ∧ b.lapN < (a.pos "at").1 ∧ (a.pos "at").2.2 = none ∧ a.nat "site" < p2 16 ∧ a.nat "heat" < 32 ∧ b.injOk (a.nat "kind") (a.nat "site") (a.nat "heat") = true)
    (fun a _ t ds => ds = [] ∧ t.get F.MAR_INJ_SITE_site = a.nat "site" % 2 ^ 16 ∧ t.get F.MAR_INJ_SITE_heat = a.nat "heat" % 2 ^ 5 ∧ t.get F.MAR_INJ_POS_stride = (a.pos "at").2.1 % 2 ^ 11 ∧
      t.get F.MAR_INJ_LAP_lap_lo = (a.pos "at").1 % p2 32 ∧ t.get F.MAR_INJ_POS_lap_hi = (a.pos "at").1 / p2 32 % 2 ^ 16 ∧ t.get F.MAR_INJ_CTL_kind = a.nat "kind" ∧
      t.get F.MAR_INJ_CTL_arm = 1 ∧ t.get F.MAR_INJ_CTL_done = 0 ∧ t.get F.MAR_INJ_CTL_cancelled = 0) ∧
  Turned Instr.marshalInject (cmdC [("kind", .num 0 12 1), ("site", .num 0 65535 1), ("heat", .num 0 31 1), ("at", .pos)] ["kind", "site", "heat", "at"])
    (fun a b => b.get F.MAR_SVC_on = 1 ∧ b.lapN < (a.pos "at").1 ∧ (a.pos "at").2.2 = none ∧ b.injOk (a.nat "kind") (a.nat "site") (a.nat "heat") = false) "0611 INJECTION TARGET INVALID" ∧
  (∀ s l a b, Admitted s l (cmdC [("kind", .num 0 12 1), ("site", .num 0 65535 1), ("heat", .num 0 31 1), ("at", .pos)] ["kind", "site", "heat", "at"]) a → b = s.begun l → b.get F.MAR_SVC_on = 1 → b.lapN < (a.pos "at").1 →
    (a.pos "at").2.2.isSome = true → exec (.marshalInject l) s = .next (b.replyC l [] (errCol "0205 BAD POSITION" (a.col "at")))) ∧
  Acts Instr.heatSet (cmdC heatSetKeys ["id"])
    (fun a b => (b.get F.MAR_STATUS_lock = 0 ∨ ∀ k ∈ ["bc0", "br0", "w", "h"], a.has k = false) ∧ b.heatSt (a.nat "id") ≠ 6 ∧ heatBusy (b.heatSt (a.nat "id")) = false ∧ (b.heatSt (a.nat "id") ≠ 7 ∨ ∀ k ∈ ["bc0", "br0", "w", "h"], a.has k = false))
    (fun a b t ds => ds = [] ∧ Taken a "bc0" (F.HEAT_H_GEOM_bc0 (a.nat "id")) b t ∧ Taken a "br0" (F.HEAT_H_GEOM_br0 (a.nat "id")) b t ∧ Taken a "w" (F.HEAT_H_GEOM_w (a.nat "id")) b t ∧ Taken a "h" (F.HEAT_H_GEOM_h (a.nat "id")) b t ∧
      Taken a "rel" (F.HEAT_H_CFG_rel_en (a.nat "id")) b t ∧ Taken a "scrub" (F.HEAT_H_CFG_scrub (a.nat "id")) b t ∧ Taken a "uniform" (F.MSH_H_CFG_uniform (a.nat "id")) b t ∧ Taken a "prov" (F.HAL_H_CFG_prov_en (a.nat "id")) b t ∧
      OnlyRegs b t ([R.HEAT_H_GEOM, R.HEAT_H_CFG, R.MSH_H_CFG, R.HAL_H_CFG].map fun r => (r (a.nat "id")).off) ∧
      (∀ v, a.nat? "floor" = some v → v / 10 < 256 → t.get (F.MSH_H_CFG_floor (a.nat "id")) = v / 10) ∧ ∀ v : Int, a.int? "smxc_k" = some v → t.get (F.HAL_H_CFG_smxc_k (a.nat "id")) = (v % 16).toNat) ∧
  Turned Instr.heatSet (cmdC heatSetKeys ["id"]) (fun a b => b.get F.MAR_STATUS_lock = 1 ∧ a.has "w" = true) "0317 LOCKED" ∧
  Turned Instr.heatSet (cmdC heatSetKeys ["id"]) (fun a b => b.get F.MAR_STATUS_lock = 0 ∧ b.heatSt (a.nat "id") = 6) "0335 HEAT HALTED" ∧
  Turned Instr.heatSet (cmdC heatSetKeys ["id"]) (fun a b => b.get F.MAR_STATUS_lock = 0 ∧ heatBusy (b.heatSt (a.nat "id")) = true) "0312 HEAT RUNNING" ∧
  (∀ s l a b c, Admitted s l c a → b = s.begun l → c = cmdC [("heat", .num 0 31 1), ("id", .num 0 63 1), ("en", .num 0 1 1), ("ox", .num 0 15 1), ("oy", .num 0 7 1), ("oz", .num 0 7 1), ("ex", .num 1 16 1), ("ey", .num 1 8 1),
      ("ez", .num 1 8 1), ("rx", .num 0 15 1), ("ry", .num 0 7 1), ("rz", .num 0 7 1)] ["heat"] →
    (∀ k, b.teamMisfit a (a.nat "heat") = some k → exec (.teamSet l) s = .next (b.replyC l [] (errCol outOfRange (a.col k)))) ∧
    (b.teamMisfit a (a.nat "heat") = none → b.heatSt (a.nat "heat") = 6 → exec (.teamSet l) s = .next (b.replyC l [] "ERR 0335 HEAT HALTED")) ∧
    (b.teamMisfit a (a.nat "heat") = none → b.heatSt (a.nat "heat") ≠ 6 → heatBusy (b.heatSt (a.nat "heat")) = true → exec (.teamSet l) s = .next (b.replyC l [] "ERR 0312 HEAT RUNNING")) ∧
    (b.teamMisfit a (a.nat "heat") = none → b.heatSt (a.nat "heat") ≠ 6 → heatBusy (b.heatSt (a.nat "heat")) = false →
    ∃ u : State, exec (.teamSet l) s = .next (u.okC l []) ∧ Taken a "id" (F.TEAM_H_CFG_id (a.nat "heat")) b u ∧ Taken a "en" (F.TEAM_H_CFG_en (a.nat "heat")) b u ∧ Taken a "ox" (F.TEAM_H_BLOCK_ox (a.nat "heat")) b u ∧
      Taken a "oy" (F.TEAM_H_BLOCK_oy (a.nat "heat")) b u ∧ Taken a "oz" (F.TEAM_H_BLOCK_oz (a.nat "heat")) b u ∧ Taken a "rx" (F.TEAM_H_ROOT_rx (a.nat "heat")) b u ∧
      Taken a "ry" (F.TEAM_H_ROOT_ry (a.nat "heat")) b u ∧ Taken a "rz" (F.TEAM_H_ROOT_rz (a.nat "heat")) b u ∧
      u.get (F.TEAM_H_BLOCK_ex_m1 (a.nat "heat")) = ((a.nat? "ex").map (· - 1)).getD (b.get (F.TEAM_H_BLOCK_ex_m1 (a.nat "heat"))) % 2 ^ 4 ∧
      u.get (F.TEAM_H_BLOCK_ey_m1 (a.nat "heat")) = ((a.nat? "ey").map (· - 1)).getD (b.get (F.TEAM_H_BLOCK_ey_m1 (a.nat "heat"))) % 2 ^ 3 ∧
      u.get (F.TEAM_H_BLOCK_ez_m1 (a.nat "heat")) = ((a.nat? "ez").map (· - 1)).getD (b.get (F.TEAM_H_BLOCK_ez_m1 (a.nat "heat"))) % 2 ^ 3 ∧
      OnlyRegs b u ([R.TEAM_H_CFG, R.TEAM_H_BLOCK, R.TEAM_H_ROOT].map fun r => (r (a.nat "heat")).off))) ∧
  (∀ s l a b, Admitted s l (cmdC [("core", .list 0 2047 true), ("seed", .num 0 (p2 32 - 1) 1)] ["core", "seed"]) a → b = s.begun l → (∀ k ∈ b.numCores l a, b.fenced k = false ∧ ∀ h, b.coreOwner k = some h → heatLive (b.heatSt h) = false) →
    exec (.numSeed l) s = .next ((b.each (b.numCores l a) fun s k => (s.wr (R.NUM_SEED k) (a.nat "seed")).seedGens k).okC l [])) ∧
  (∀ s l a b ks, Admitted s l (cmdC [("core", .list 0 2047 true)] ["core"]) a → b = s.begun l → ks = b.numCores l a → (∀ k ∈ ks, k < 2048 ∧ b.fenced k = false ∧ ∀ h, b.coreOwner k = some h → heatLive (b.heatSt h) = false) →
    ∃ t : State, exec (.numClear l) s = .next (t.okC l []) ∧ t = { b with regs := t.regs } ∧ ∀ k ∈ ks, t.rd (R.NUM_CNT_SAT k) = 0 ∧ t.rd (R.NUM_CNT_FLUSH k) = 0 ∧ t.rd (R.NUM_CNT_NAN k) = 0 ∧ t.rd (R.NUM_CNT_RETRY k) = 0 ∧ t.rd (R.NUM_FLAGS k) % 512 = 0) ∧
  (∀ s l a b ks, Admitted s l (cmdC [("core", .list 0 2047 true), ("passes", .num 1 3 1), ("ftz32", .num 0 1 1), ("sat8", .num 0 1 1), ("iq", .num 0 31 1)] ["core"]) a → b = s.begun l → ks = b.numCores l a →
    (∀ k ∈ ks, k < 2048 ∧ b.fenced k = false ∧ ∀ h, b.coreOwner k = some h → heatLive (b.heatSt h) = false) →
    ∃ t : State, exec (.numCfg l) s = .next (t.okC l []) ∧ OnlyRegs b t (ks.map fun k => (R.NUM_CFG k).off) ∧ ∀ k ∈ ks, Taken a "passes" (F.NUM_CFG_passes k) b t ∧ Taken a "ftz32" (F.NUM_CFG_ftz32 k) b t ∧ Taken a "sat8" (F.NUM_CFG_sat8 k) b t ∧ Taken a "iq" (F.NUM_CFG_iq k) b t) ∧
  (∀ f c, (f, c) ∈ ([(Instr.numSeed, cmdC [("core", .list 0 2047 true), ("seed", .num 0 (p2 32 - 1) 1)] ["core", "seed"]), (Instr.numClear, cmdC [("core", .list 0 2047 true)] ["core"]),
      (Instr.numCfg, cmdC [("core", .list 0 2047 true), ("passes", .num 1 3 1), ("ftz32", .num 0 1 1), ("sat8", .num 0 1 1), ("iq", .num 0 31 1)] ["core"])] : List ((Line → Instr) × Cmd)) →
    ∀ s l a b, Admitted s l c a → b = s.begun l →
      ((∃ k ∈ b.numCores l a, b.fenced k = true) → exec (f l) s = .next (b.replyC l [] (errCol outOfRange (a.col "core")))) ∧
      ((∀ k ∈ b.numCores l a, b.fenced k = false) → (∃ k ∈ b.numCores l a, ∃ h, b.coreOwner k = some h ∧ heatLive (b.heatSt h) = true) → exec (f l) s = .next (b.replyC l [] "ERR 0312 HEAT RUNNING"))) ∧
  Acts Instr.powerClock (cmdC [("region", .list 0 255 true), ("mhz", .num 800 1800 10)] ["region", "mhz"]) (fun a b => ∀ n ∈ a.list "region", b.regionFloor n ≤ a.nat "mhz")
    (fun a b t ds => ds = [] ∧ t = { b with pwr := { b.pwr with target := t.pwr.target }, mesh := { b.mesh with clkReq := t.mesh.clkReq } } ∧ ∀ n, t.regionTarget n = if n ∈ a.list "region" then a.nat "mhz" else b.regionTarget n) ∧
  Turned Instr.powerClock (cmdC [("region", .list 0 255 true), ("mhz", .num 800 1800 10)] ["region", "mhz"]) (fun a b => ∃ n ∈ a.list "region", a.nat "mhz" < b.regionFloor n) "0341 BELOW SCHEDULE FLOOR" ∧
  (∀ s l a b x c, Admitted s l c a → b = s.begun l → s.session l.sess.val = some x → c = { classC := true, modes := [.ready], keys := sessionKeys x.ep, anyIn := [.ready] } → (∀ v, a.nat? "baud" = some v → v ∈ uartRates) →
    ∃ (t : State) (y : Session), exec (.setSession l) s = .next (t.okC l []) ∧ t = { b with con := { b.con with sess := t.con.sess } } ∧ t.session l.sess.val = some y ∧ y.events = a.nat "events" x.events ∧
      y.newBaud = ((a.nat? "baud").orElse fun _ => x.newBaud) ∧ y.baud = x.baud ∧ (a.str? "form" = none → y.form = x.form) ∧
      (∀ w ∈ [SForm.typed, .generated, .auto], a.str? "form" = some (formName w) → y.form = w) ∧ (a.nat? "echo" = none → y.echo = x.echo) ∧ (∀ v, a.nat? "echo" = some v → y.echo = decide (v = 1)) ∧
      (a.nat? "flow" = none → y.flow = x.flow) ∧ ∀ v, a.nat? "flow" = some v → y.flow = decide (v = 1)) ∧
  (∀ s l a b x c v, Admitted s l c a → b = s.begun l → s.session l.sess.val = some x → c = { classC := true, modes := [.ready], keys := sessionKeys x.ep, anyIn := [.ready] } → a.nat? "baud" = some v → v ∉ uartRates →
    exec (.setSession l) s = .next (b.replyC l [] (errCol outOfRange (a.col "baud")))) ∧
  (∀ s l a b, Admitted s l { classC := true, modes := [.hold, .ready], keys := [("force", .num 0 1 1)], anyIn := [.hold, .ready] } a → b = s.begun l → s.con.claim = none →
    exec (.claimCmd l) s = .next (({ b with con := { b.con with claim := some l.sess.val } } : State).okC l [])) ∧
  (∀ s l a b j, Admitted s l { classC := true, modes := [.hold, .ready], keys := [("force", .num 0 1 1)], anyIn := [.hold, .ready] } a → b = s.begun l → s.con.claim = some j →
    exec (.claimCmd l) s = .next (if j = l.sess.val then b.okC l [] else b.replyC l [] ("ERR 0302 CLAIMED BY SESSION " ++ toString j))) ∧
  (∀ s l a b, Admitted s l { classC := true, modes := [.hold, .ready], keys := [("force", .num 0 1 1)], anyIn := [.hold, .ready] } a → b = s.begun l →
    (l.sess.val ≠ 0 → s.cmode = .ready → exec (.claimForce l) s = .next (b.replyC l [] "ERR 0303 FORCE NOT PERMITTED")) ∧
    (l.sess.val = 0 ∨ s.cmode = .hold → ∃ t : State, exec (.claimForce l) s = .next (t.okC l []) ∧ t.con.claim = some l.sess.val)) ∧
  ∀ s l a b, Admitted s l { classC := true, modes := [.ready], anyIn := [.ready] } a → b = s.begun l →
    exec (.unclaim l) s = .next (if s.con.claim = some l.sess.val then ({ b with con := { b.con with claim := none } } : State).okC l [] else b.replyC l [] "ERR 0304 NOT CLAIMED")

/-- Each acting command of class C does what is written here where the conditions written here hold, and is answered
with the error written here where one does not; that `lap pacer adopt` of a module that is not locked waits, and with
force is refused while it searches or elects, is the model's choice (log entry 71). A deferred one (`heat commit`, `heat
recall` of a running heat, `heat reset` with a scrub, `heat start` of a team, `image load`, `marshal restore` of a
region out of service, `lap pacer adopt` without force) leaves its line waiting: `lap realign` takes its step at the
next boundary, or is refused below the lap count; `heat start` puts a stopped heat in starting with its lap, a team with
its check; `heat reset` ends stopped, or resetting while it scrubs; `hold` requests the hold, `hold release` withdraws
it, and from a hold by command goes on with the next boot step; `reboot` begins a new boot; `update begin` takes its
bytes from memory where an address is given; `update apply` restarts the Starter; `set reg` writes through the console's
path, stores what it wrote with persist=1, and prints what then reads; `stop` halts the busy heats it names with cause
2. -/
def Obligations.ConsoleActions : Prop :=
  (∀ s l a b p m, Admitted s l (cmdC [] []) a → b = s.begun l → (∀ h < 32, b.heatSt h ≤ 1) → b.bestParent = some (p, m) →
    (b.below p m = false → exec (.lapRealign l) s = .next ((b.modLap fun x => { x with step := true, holdL0 := none, locked1 := true }).okC l [])) ∧
    (b.below p m = true → exec (.lapRealign l) s = .next (b.replyC l [] "ERR 0240 LAP TOO EARLY"))) ∧
  Turned Instr.lapRealign (cmdC [] []) (fun _ b => ∃ h < 32, 1 < b.heatSt h) "0312 HEAT RUNNING" ∧
  Turned Instr.lapRealign (cmdC [] []) (fun _ b => (∀ h < 32, b.heatSt h ≤ 1) ∧ b.bestParent = none) "0404 MODULE UNREACHABLE" ∧
  (∀ s l a b c, Admitted s l c a → c = { cmdC [("at", .lap), ("force", .num 0 1 1)] ["at"] with anyIn := [.ready] } → b = s.begun l → b.get F.LAP_CFG_role ≠ 0 → b.get F.LAP_HO_HI_valid = 0 → b.laps.adopt = none → b.laps.forceAt = none →
    s.con.claim = some l.sess.val →
    (a.nat "force" = 1 → b.lapN + 2 ≤ a.nat "at" → b.lapState = 4 ∨ 5 ≤ b.lapState → exec (.lapPacerAdopt l) s = .next ((b.modLap fun x => { x with forceAt := some (a.nat "at") }).okC l [])) ∧
    (a.nat "force" = 1 → b.lapN + 2 ≤ a.nat "at" → b.lapState ∈ [0, 1, 3] → exec (.lapPacerAdopt l) s = .next (b.replyC l [] "ERR 0332 PACER PRESENT")) ∧
    (a.nat "force" = 0 → b.lapN + 32 ≤ a.nat "at" → b.lapState = 3 → exec (.lapPacerAdopt l) s =
      .next ((b.modLap fun x => { x with adopt := some ⟨l, a.nat "at", b.now + 4 * 262144⟩ }).express (b.get F.LAP_STATUS_parent) 2 (adoptFlits b.selfAddr (b.get F.LAP_CFG_pri) (a.nat "at")))) ∧
    (a.nat "force" = 0 → b.lapN + 32 ≤ a.nat "at" → b.lapState ≠ 3 → b.lapState ≠ 2 → exec (.lapPacerAdopt l) s = .next (b.modLap fun x => { x with adopt := some ⟨l, a.nat "at", b.now + 4 * 262144⟩ }))) ∧
  (∀ s l a b, Admitted s l (cmdC [("x", .num 0 15 1), ("y", .num 0 7 1), ("z", .num 0 7 1), ("xd", .num 1 16 1), ("yd", .num 1 8 1), ("zd", .num 1 8 1)] ["x", "y", "z", "xd", "yd", "zd"]) a → b = s.begun l →
    a.nat "x" < a.nat "xd" → a.nat "y" < a.nat "yd" → a.nat "z" < a.nat "zd" → b.locked = false → b.flashErr = none →
    exec (.batonTopo l) s = .next ((b.storeSettings l.sess.val [(R.BTN_TOPO.off, BitVec.ofNat 32 (topoValue (a.nat "x") (a.nat "y") (a.nat "z") (a.nat "xd") (a.nat "yd") (a.nat "zd")))] none).okC l [])) ∧
  (∀ s l a b, Admitted s l (cmdC [("port", .list 0 11 true)] ["port"]) a → b = s.begun l →
    exec (.batonRetrain l) s = .next ((b.each (a.list "port") fun s p => s.portCtl p (s.get (F.BTN_P_CTL_en p) + 2 + s.get (F.BTN_P_CTL_auto p) * 4)).okC l [])) ∧
  (∀ s l a b, Admitted s l (cmdC [("port", .list 0 11 true), ("en", .num 0 1 1), ("auto", .num 0 1 1)] ["port", "en"]) a → b = s.begun l →
    exec (.batonEnable l) s = .next ((b.each (a.list "port") fun s p => s.portCtl p (a.nat "en" + a.nat "auto" (s.get (F.BTN_P_CTL_auto p)) * 4)).okC l [])) ∧
  (∀ s l a b h c x u, Admitted s l (cmdC [heatKey] ["id"]) a → b = s.begun l → h = a.nat "id" → c = b.abandonCommit h → x = c.snapshot h l →
    (b.heatSt h = 6 → exec (.heatCommit l) s = .next ((b.flag F.HEAT_EVT_commit_fail).replyC l [] "ERR 0335 HEAT HALTED")) ∧
    (1 < b.heatSt h → b.heatSt h ≠ 6 → exec (.heatCommit l) s = .next ((b.flag F.HEAT_EVT_commit_fail).replyC l [] "ERR 0312 HEAT RUNNING")) ∧
    (b.heatSt h ≤ 1 → c.commitCheck h x = (u, none) → exec (.heatCommit l) s = .next (u.modHeat h fun r => { r with snap := some x })) ∧
    ∀ e, b.heatSt h ≤ 1 → c.commitCheck h x = (u, some e) → exec (.heatCommit l) s = .next ((u.flag F.HEAT_EVT_commit_fail).replyC l [] ("ERR " ++ e))) ∧
  (∀ s l a b h lap res, Admitted s l (cmdC [heatKey, ("at", .lap), ("resume", .num 0 1 1)] ["id", "at"]) a → b = s.begun l → h = a.nat "id" → lap = a.nat "at" → res = (a.nat "resume" == 1) →
    (∀ e, b.startErr h lap res = some e → exec (.heatStart l) s = .next (b.replyC l [] ("ERR " ++ e))) ∧
    (b.startErr h lap res = none → h < 32 → b.halTeam h = false → ∃ t : State, exec (.heatStart l) s = .next (t.okC l []) ∧ t.heatSt h = 2 ∧ (t.heat h).start = some (lap, res, none)) ∧
    (b.startErr h lap res = none → b.halTeam h = true → b.teamSetupBad h = true → exec (.heatStart l) s = .next (((b.put (F.TEAM_H_STATUS_check h) 3).flag F.TEAM_EVT_check_fail).replyC l [] "ERR 0345 TEAM SETUP INVALID")) ∧
    (b.startErr h lap res = none → b.halTeam h = true → b.teamSetupBad h = false → exec (.heatStart l) s = .next (((b.modHeat h fun r => { r with start := some (lap, res, some l) }).setHeatSt h 2).teamCheckTry h))) ∧
  (∀ s l a b h, Admitted s l (cmdC [heatKey, ("at", .lap)] ["id"]) a → b = s.begun l → h = a.nat "id" →
    (b.heatSt h = 0 → exec (.heatRecall l) s = .next (b.replyC l [] "ERR 0336 HEAT NOT COMMITTED")) ∧ (b.heatSt h = 1 → a.nat? "at" = none → exec (.heatRecall l) s = .next (b.okC l [b.stoppedLine h])) ∧
    (b.heatSt h = 6 ∨ b.heatSt h = 2 → h < 32 → a.nat? "at" = none → ∃ t : State, exec (.heatRecall l) s = .next t ∧ t.heatSt h = 1 ∧ t.get F.HEAT_EVT_stopped = 1) ∧
    (b.heatSt h = 3 → h < 32 → ∀ n, a.nat? "at" = some n → b.lapN < n → ∃ t : State, exec (.heatRecall l) s = .next t ∧ t.heatSt h = 4 ∧ (t.heat h).recallAt = some n ∧ (t.heat h).stopLines = (b.heat h).stopLines ++ [l])) ∧
  (∀ s l a b h, Admitted s l (cmdC [heatKey] ["id"]) a → b = s.begun l → h = a.nat "id" →
    (b.heatSt h = 0 → exec (.heatReset l) s = .next (b.replyC l [] "ERR 0336 HEAT NOT COMMITTED")) ∧
    (b.heatSt h ≠ 0 → h < 32 → NoErrors s → ∃ t : State, exec (.heatReset l) s = .next t ∧ t.heatSt h = if s.getA (F.HEAT_H_CFG_scrub h) = 1 then 7 else 1)) ∧
  (∀ s l a b, Admitted s l (cmdC [("addr", .num 0 (p2 64) 32), ("len", .num 256 (p2 32) 1)] ["addr", "len"]) a → b = s.begun l → farRange (a.nat "addr") (a.nat "len") = true →
    exec (.imageLoad l) s = .next { b with con := { b.con with imageLoad := some (l, a.nat "addr", a.nat "len") } }) ∧
  (∀ s l a b, Admitted s l (cmdC [("addr", .num 0 (p2 64) 32), ("len", .num 256 (p2 32) 1)] ["addr", "len"]) a → b = s.begun l → farRange (a.nat "addr") (a.nat "len") = false →
    exec (.imageLoad l) s = .next (b.replyC l [] (errCol outOfRange (a.col "addr")))) ∧
  (∀ s l a b, Admitted s l (cmdC [("region", .num 0 255 1)] ["region"]) a → b = s.begun l →
    exec (.marshalRestore l) s = .next (if b.isOut (a.nat "region") then { b with mar := { b.mar with restore := some (l, a.nat "region") } } else b.okC l ["region=" ++ toString (a.nat "region") ++ " restored=1"])) ∧
  (∀ s l a b, Admitted s l { classC := true, modes := [.boot, .hold, .ready], anyIn := [.boot, .hold, .ready] } a → b = s.begun l → exec (.holdCmd l) s = .next ((if s.boot.holdAt.isSome then b else b.put F.STA_CTL_hold_req 1).okC l [])) ∧
  (∀ s l a b, Admitted s l { classC := true, modes := [.boot, .hold, .ready], anyIn := [.boot, .hold] } a → b = s.begun l → s.boot.holdAt = none →
    exec (.holdRelease l) s = .next (if s.get F.STA_CTL_hold_req = 1 then (b.put F.STA_CTL_hold_req 0).okC l [] else b.replyC l [] "ERR 0306 HOLD NOT RELEASABLE")) ∧
  (∀ s l a b, Admitted s l { classC := true, modes := [.boot, .hold, .ready], anyIn := [.boot, .hold] } a → b = s.begun l → s.boot.holdAt.isSome = true →
    (s.get F.STA_BOOT_state ≠ 3 → exec (.holdRelease l) s = .next (b.replyC l [] "ERR 0306 HOLD NOT RELEASABLE")) ∧
    (s.get F.STA_BOOT_state = 3 → ∃ u : State, u = (b.put F.STA_BOOT_state 0).put F.STA_CTL_hold_req 0 ∧ exec (.holdRelease l) s = .next (({ u with boot := { u.boot with holdAt := none } }.nextStep).okC l []))) ∧
  (∀ s l a b, Admitted s l { classC := true, modes := [.hold, .ready], keys := [("step", .list 1 19 true)] } a → b = s.begun l →
    (∀ e, b.flashErr = some e → exec (.journalClear l) s = .next (b.replyC l [] ("ERR " ++ e))) ∧
    (b.flashErr = none → exec (.journalClear l) s = .next ((b.settingsEntries b.record l.sess.val 0xFFFFFFFF (((a.list? "step").getD ((List.range 19).map (· + 1))).foldl (fun m n => Nat.lor m (p2 (n - 1))) 0) [] 1).okC l []))) ∧
  (∀ s l a b, Admitted s l { classC := true, modes := [.hold, .ready, .black], keys := [("force", .num 0 1 1)], anyIn := [.hold, .black] } a → b = s.begun l →
    (s.cmode = .ready → a.nat "force" ≠ 1 → (∃ h < 32, heatBusy (b.heatSt h) = true) → exec (.rebootCmd l) s = .next (b.replyC l [] "ERR 0312 HEAT RUNNING")) ∧
    (s.cmode ≠ .ready ∨ a.nat "force" = 1 ∨ (∀ h < 32, heatBusy (b.heatSt h) = false) → ∃ t : State, exec (.rebootCmd l) s = .next t ∧ t.boot.step = 1 ∧ t.get F.STA_BOOT_step = 1 ∧ t.cores = [] ∧ t.mem = MemSt.blank ∧ t.boot.holdAt = none)) ∧
  (∀ s l a b, Admitted s l { classC := true, modes := [.hold, .ready], keys := [("target", .word ["starter", "marshal"]), ("len", .num 256 8388608 1), ("addr", .num 0 (p2 64) 1)], req := ["target", "len"] } a → b = s.begun l →
    (a.str "target" = "marshal" → 2097152 < a.nat "len" → exec (.updateBegin l) s = .next (b.replyC l [] (errCol outOfRange (a.col "len")))) ∧
    ((a.str "target" = "marshal" → a.nat "len" ≤ 2097152) →
      (a.nat? "addr" = none → exec (.updateBegin l) s = .next (({ b with con := { b.con with transfer := some ⟨l.sess.val, a.str "target" == "marshal", a.nat "len", []⟩ } } : State).okC l [])) ∧
      ∀ x, a.nat? "addr" = some x → (farRange x (a.nat "len") = false → exec (.updateBegin l) s = .next (b.replyC l [] (errCol outOfRange (a.col "addr")))) ∧
        (farRange x (a.nat "len") = true → s.boot.holdAt = none →
          exec (.updateBegin l) s = .next (({ b with con := { b.con with transfer := some ⟨l.sess.val, a.str "target" == "marshal", a.nat "len", b.readMem x (a.nat "len")⟩ } } : State).okC l [])) ∧
        (farRange x (a.nat "len") = true → s.boot.holdAt.isSome = true → s.boot.step < (if x < 256 * sliceSize then 12 else 13) →
          exec (.updateBegin l) s = .next (b.replyC l [] "ERR 0501 REGISTER NOT RESPONDING")))) ∧
  (∀ s l a b, Admitted s l { classC := true, modes := [.hold, .ready], keys := [("off", .num 0 (p2 64) 1), ("d", .name)], req := ["off", "d"] } a → b = s.begun l →
    (s.con.transfer = none → exec (.updateData l) s = .next (b.replyC l [] (errCol outOfRange (a.col "off")))) ∧
    ∀ tr, s.con.transfer = some tr → tr.sess = l.sess.val → a.nat "off" = tr.bytes.length → (∀ c ∈ (a.str "d").toList, (charHex c).isSome = true) → (a.str "d").toList.length % 2 = 0 → (a.str "d").toList.length ≤ 448 →
      tr.bytes.length + (a.str "d").toList.length / 2 ≤ tr.len → ∃ bs : List Byte, bs.length = (a.str "d").toList.length / 2 ∧
        exec (.updateData l) s = .next (({ b with con := { b.con with transfer := some { tr with bytes := tr.bytes ++ bs } } } : State).okC l [])) ∧
  (∀ s l a b, Admitted s l { classC := true, modes := [.hold, .ready] } a → b = s.begun l →
    (s.con.transfer = none → exec (.updateEnd l) s = .next (b.replyC l [] ("ERR " ++ (outOfRange ++ " col=1")))) ∧
    (∀ tr, s.con.transfer = some tr → tr.sess = l.sess.val → tr.bytes.length < tr.len → exec (.updateEnd l) s = .next (b.replyC l [] "ERR 0423 IMAGE MALFORMED")) ∧
    (∀ tr, s.con.transfer = some tr → tr.sess = l.sess.val → tr.len ≤ tr.bytes.length → tr.marshal = false → Img.headerOk tr.bytes = true → Img.signErr s.fuse.revoked tr.bytes = none → b.flashErr = none →
      ∃ (t : State) (d : String), exec (.updateEnd l) s = .next (t.okC l [d]) ∧ t.get F.STA_SLOT_pending = 1 ∧ t.con.transfer = none) ∧
    (s.boot.holdAt.isSome = true → exec (.updateApply l) s = .next (b.replyC l [] "ERR 0305 IN HOLD")) ∧
    (s.boot.holdAt = none → s.get F.STA_SLOT_pending = 0 → exec (.updateApply l) s = .next (b.replyC l [] ("ERR " ++ (outOfRange ++ " col=1")))) ∧
    (s.boot.holdAt = none → s.get F.STA_SLOT_pending = 1 → ∃ t : State, exec (.updateApply l) s = .next t ∧ t.boot.restarting = true ∧ t.con.claim = none ∧ t.con.queue = [] ∧ t.get F.STA_BOOT_state = 7)) ∧
  (∀ s l a b n v u w t, Admitted s l (cmdC [("reg", .name), ("value", .sgn (-(p2 63 : Nat)) (p2 64 : Nat)), ("field", .name), ("persist", .num 0 1 1)] ["reg", "value"]) a → b = s.begun l → regLookup (a.str "reg") = some n →
    (∀ k, a.str? "field" = some k → b.fieldNamed n k = none → exec (.setReg l) s = .next (b.replyC l [] (errCol outOfRange (a.col "field")))) ∧
    ∀ f : Option FieldSpec, (a.str? "field").map (b.fieldNamed n) = f.map some →
      (b.setValue n f ((a.int? "value").getD 0) = none → exec (.setReg l) s = .next (b.replyC l [] (errCol outOfRange (a.col "value")))) ∧
      (b.setValue n f ((a.int? "value").getD 0) = some v → b.setErr n v (a.nat "persist" == 1) = none →
        u = (if a.nat "persist" = 1 then (b.regWrite .console n.off v).storeSettings l.sess.val [(n.off, BitVec.ofNat 32 v)] none else b.regWrite .console n.off v) → u.readNamed n false = (w, t) →
        exec (.setReg l) s = .next (t.okC l [join ["reg=" ++ n.text, "value=" ++ valueText n w]])) ∧
      ∀ e k, b.setValue n f ((a.int? "value").getD 0) = some v → b.setErr n v (a.nat "persist" == 1) = some (e, k) →
        exec (.setReg l) s = .next (b.replyC l [] (match k with | some k => errCol e (a.col k) | none => "ERR " ++ e))) ∧
  ∀ s l a b hs, Admitted s l { classC := true, modes := [.ready], keys := [("heat", .list 0 31 false)], anyIn := [.ready] } a → b = s.begun l → hs = (a.list? "heat").getD b.stopAll →
    ∃ t : State, exec (.stopCmd l) s = .next (t.okC l ["stopped=" ++ listText (hs.filter fun h => heatBusy (b.heatSt h))]) ∧ ∀ h ∈ hs, h < 32 → heatBusy (b.heatSt h) = true → t.heatSt h = 6 ∧ t.get (F.HEAT_H_STATE_cause h) = 2

/-- A transaction on a port that is not active changes nothing. A whole read of n words shifts out n words, with no
fill, and counts; a word that names no register reads 0xFFFFFFFF. A write with its trailer commits nothing when it is
cut or its trailer does not match, and the status says so. A word committed without a trailer to a block behind the
fabric joins the write queue, is refused under the lock, is discarded before S-15, or finds the queue full. The oldest
queued word is applied as a register write of the port. A whole fetch starts behind the queued words; one that finds a
fetch busy is discarded; one that has come to its turn ends with done set and busy clear. An op of 3 sets badcmd and
changes nothing else. -/
def Obligations.ManagementPort : Prop :=
  (∀ crc nM1 addr edges s, s.mgt.active = false → exec (.mgtRead crc nM1 addr edges) s = .next s) ∧ (∀ crc addr words tr edges s, s.mgt.active = false → exec (.mgtWrite crc addr words tr edges) s = .next s) ∧
  (∀ crc nM1 addr tr edges s, s.mgt.active = false → exec (.mgtFetch crc nM1 addr tr edges) s = .next s) ∧ (∀ s, s.mgt.active = false → exec .mgtBadCommand s = .next s) ∧
  (∀ s, s.mgt.active = true → exec .mgtBadCommand s = .next (s.mgtFlag F.MGT_STATUS_badcmd)) ∧
  (∀ (crc : Bool) nM1 addr edges s, s.mgt.active = true → BitVec.toNat (w := 16) edges = 40 + 32 * (BitVec.toNat (w := 5) nM1 + 1) + 8 * crc.toNat →
    ∃ t ws c, exec (.mgtRead crc nM1 addr edges) s = .next t ∧ ws.length = nM1.toNat + 1 ∧ t.outbox.head? = some (.spi ws c 0) ∧ (c.isSome = crc) ∧ t.mgt = s.mgt) ∧
  (∀ addr edges s, s.mgt.active = true → edges = 72#16 → regNamed (4 * BitVec.toNat (w := 24) addr) = none → ∃ t, exec (.mgtRead false 0 addr edges) s = .next t ∧ t.outbox = .spi [0xFFFFFFFF] none 0 :: s.outbox ∧
    t.get F.MGT_CNT_TRANS_count = min (s.get F.MGT_CNT_TRANS_count + 1) 0xFFFFFFFF) ∧
  (∀ addr words tr edges s, s.mgt.active = true → 8 ≤ BitVec.toNat (w := 16) edges → edges.toNat < 40 + 32 * List.length words → ∃ t, exec (.mgtWrite true addr words tr edges) s = .next t ∧ t = { s with regs := t.regs, sets := t.sets } ∧ t.get F.MGT_STATUS_trunc = 1 ∧
    ∀ q : Reg, q.off ∉ [R.MGT_STATUS.off, R.MGT_ALERT.off, R.MGT_CNT_TRANS.off] → t.rd q = s.rd q) ∧
  (∀ addr words tr edges s, s.mgt.active = true → BitVec.toNat (w := 16) edges = 40 + 32 * List.length words → mgtCrc 1 true (words.length - 1) (BitVec.toNat (w := 24) addr) words ≠ BitVec.toNat (w := 8) tr →
    ∃ t, exec (.mgtWrite true addr words tr edges) s = .next t ∧ t = { s with regs := t.regs, sets := t.sets } ∧ t.get F.MGT_STATUS_crc_err = 1 ∧ ∀ q : Reg, q.off ∉ [R.MGT_STATUS.off, R.MGT_ALERT.off, R.MGT_CNT_TRANS.off] → t.rd q = s.rd q) ∧
  (∀ addr v tr edges s, s.mgt.active = true → edges = 64#16 → standby (4 * BitVec.toNat (w := 24) addr) = false →
    (s.locked = true → ∃ t, exec (.mgtWrite false addr [v] tr edges) s = .next t ∧ t = { s with regs := t.regs, sets := t.sets } ∧ t.get F.MGT_CNT_REFUSED_count = min (s.get F.MGT_CNT_REFUSED_count + 1) 0xFFFFFFFF ∧ t.get F.MGT_STATUS_refused = 1) ∧
    (s.locked = false → s.mgtClosed = true → ∃ t, exec (.mgtWrite false addr [v] tr edges) s = .next t ∧ t = { s with regs := t.regs, sets := t.sets } ∧ t.get F.MGT_STATUS_early = 1) ∧
    (s.locked = false → s.mgtClosed = false → 64 ≤ s.mgt.queue.length → ∃ t, exec (.mgtWrite false addr [v] tr edges) s = .next t ∧ t = { s with regs := t.regs, sets := t.sets } ∧ t.get F.MGT_STATUS_qfull = 1) ∧
    (s.locked = false → s.mgtClosed = false → s.mgt.queue.length < 64 → ∃ t, exec (.mgtWrite false addr [v] tr edges) s = .next t ∧ t = { s with regs := t.regs, sets := t.sets, mgt := { s.mgt with queue := s.mgt.queue ++ [(addr.toNat, v)] } })) ∧
  (∀ s, s.mgt.queue = [] → exec .mgtWriteQueueApply s = .next s) ∧
  (∀ s a v rest, s.mgt.queue = (a, v) :: rest → exec .mgtWriteQueueApply s =
    .next (({ s with mgt := { s.mgt with queue := rest, fetch := s.mgt.fetch.map fun f => (f.1, f.2.1, f.2.2 - 1) } } : State).regWrite .mgt (4 * a) v.toNat)) ∧
  (∀ nM1 addr tr edges s, s.mgt.active = true → edges = 32#16 → s.mgt.fetch = none → ∃ t, exec (.mgtFetch false nM1 addr tr edges) s = .next t ∧ t.mgt = { s.mgt with fetch := some (BitVec.toNat (w := 24) addr, BitVec.toNat (w := 5) nM1 + 1, s.mgt.queue.length) } ∧
    t.get F.MGT_FETCH_busy = 1 ∧ t.get F.MGT_FETCH_done = 0 ∧ t.get F.MGT_FETCH_addr = addr.toNat ∧ t.get F.MGT_FETCH_n_m1 = nM1.toNat) ∧
  (∀ nM1 addr tr edges s f, s.mgt.active = true → edges = 32#16 → s.mgt.fetch = some f → ∃ t, exec (.mgtFetch false nM1 addr tr edges) s = .next t ∧ t = { s with regs := t.regs, sets := t.sets } ∧ t.get F.MGT_STATUS_fbusy = 1) ∧
  (∀ late s, (s.mgt.fetch = none ∨ ∃ a n k, s.mgt.fetch = some (a, n, k + 1)) → exec (.mgtFetchComplete late) s = .next s) ∧
  ∀ late s a n, s.mgt.fetch = some (a, n, 0) → n ≤ 32 → ∃ t, exec (.mgtFetchComplete late) s = .next t ∧ t.mgt.fetch = none ∧ t.get F.MGT_FETCH_busy = 0 ∧ t.get F.MGT_FETCH_done = 1 ∧ t.mem = s.mem ∧ t.heats = s.heats

/-- For every command c and state s, the step of s with c at the front of its queue is exec of c on s with the queue's
rest. With no command waiting one fc passes: the step answers the tick of the state (the model's choice, log entry
60). From every state a step answers a next state. -/
def Obligations.StepRunsTheFrontCommand : Prop :=
  (∀ (c : Instr) (q : List Instr) (s : State), step { s with pending := c :: q } = exec c { s with pending := q }) ∧
  (∀ s : State, s.pending = [] → step s = .next s.tick) ∧ ∀ s : State, Goes s

/-- Right after reset no command waits, nothing is powered, the lap and position are zero, every register reads its
reset value and so does its active copy, no heat is allotted, every core is in reset, memory lists no byte, no session
is open, the claim is free, no line is queued, the management port is not active, and the canonical forms of memory
and of the register lists hold. Values that the spec does not give for reset (among them the empty lists of queues)
are the model's choices, in the assumption log. -/
def Obligations.ResetState : Prop :=
  State.reset.pending = [] ∧ State.reset.boot.main = false ∧ State.reset.boot.aux = false ∧ State.reset.lap = 0 ∧ State.reset.pos = 0 ∧ (∀ r : Reg, State.reset.rd r = r.rst % 2 ^ 32 ∧ State.reset.rdA r = r.rst % 2 ^ 32) ∧
  (∀ h < 32, State.reset.heatSt h = 0) ∧ (∀ k, (State.reset.core k).run = .inReset) ∧ State.reset.mem.cells = [] ∧ (∀ i, State.reset.session i = none) ∧ State.reset.con.claim = none ∧ State.reset.con.queue = [] ∧
  State.reset.mgt.active = false ∧ State.reset.memWf ∧ State.reset.regsWf

/-- For every state whose memory lists its bytes by strictly rising address and none that equals what an unlisted
address reads as, and whose registers, active copies and captured halves are listed by strictly rising offset, every
step, whatever command stands at the front of the queue, leads to a state of the same form. So equal memories and
equal register contents are equal data along every run. -/
def Obligations.StepKeepsMemoryCanonical : Prop :=
  ∀ s t : State, s.memWf → s.regsWf → step s = .next t → t.memWf ∧ t.regsWf

/-- For every command of the table that is an instruction of a core, with every operand at every value of its type,
the word that encodes it for its core decodes to it again, so that no operand is dropped and no two instructions share
a word. -/
def Obligations.CoreInstructionsDecodeAsEncoded : Prop :=
  ∀ (i : Instr) (k : CoreId) (w : Word), encodeCore i = some (k, w) → decodeCore k w = some i
end

