-- ==== Sys2Proof/Laws/State.lean ====
section
/-! SUPPORT. What each plain update of the state leaves as it is, field by field, so that no proof unfolds an update. -/

namespace Sys2Proof.Machine

/-! ### wr -/

@[simp] theorem State.wr_pending (s : State) (r : Reg) (v : Nat) : (s.wr r v).pending = s.pending := rfl
@[simp] theorem State.wr_freeCtr (s : State) (r : Reg) (v : Nat) : (s.wr r v).freeCtr = s.freeCtr := rfl
@[simp] theorem State.wr_lap (s : State) (r : Reg) (v : Nat) : (s.wr r v).lap = s.lap := rfl
@[simp] theorem State.wr_pos (s : State) (r : Reg) (v : Nat) : (s.wr r v).pos = s.pos := rfl
@[simp] theorem State.wr_act (s : State) (r : Reg) (v : Nat) : (s.wr r v).act = s.act := rfl
@[simp] theorem State.wr_caps (s : State) (r : Reg) (v : Nat) : (s.wr r v).caps = s.caps := rfl
@[simp] theorem State.wr_sets (s : State) (r : Reg) (v : Nat) : (s.wr r v).sets = s.sets := rfl
@[simp] theorem State.wr_was (s : State) (r : Reg) (v : Nat) : (s.wr r v).was = s.was := rfl
@[simp] theorem State.wr_laps (s : State) (r : Reg) (v : Nat) : (s.wr r v).laps = s.laps := rfl
@[simp] theorem State.wr_cores (s : State) (r : Reg) (v : Nat) : (s.wr r v).cores = s.cores := rfl
@[simp] theorem State.wr_heats (s : State) (r : Reg) (v : Nat) : (s.wr r v).heats = s.heats := rfl
@[simp] theorem State.wr_mesh (s : State) (r : Reg) (v : Nat) : (s.wr r v).mesh = s.mesh := rfl
@[simp] theorem State.wr_hal (s : State) (r : Reg) (v : Nat) : (s.wr r v).hal = s.hal := rfl
@[simp] theorem State.wr_mem (s : State) (r : Reg) (v : Nat) : (s.wr r v).mem = s.mem := rfl
@[simp] theorem State.wr_kv (s : State) (r : Reg) (v : Nat) : (s.wr r v).kv = s.kv := rfl
@[simp] theorem State.wr_btn (s : State) (r : Reg) (v : Nat) : (s.wr r v).btn = s.btn := rfl
@[simp] theorem State.wr_team (s : State) (r : Reg) (v : Nat) : (s.wr r v).team = s.team := rfl
@[simp] theorem State.wr_rel (s : State) (r : Reg) (v : Nat) : (s.wr r v).rel = s.rel := rfl
@[simp] theorem State.wr_mar (s : State) (r : Reg) (v : Nat) : (s.wr r v).mar = s.mar := rfl
@[simp] theorem State.wr_con (s : State) (r : Reg) (v : Nat) : (s.wr r v).con = s.con := rfl
@[simp] theorem State.wr_boot (s : State) (r : Reg) (v : Nat) : (s.wr r v).boot = s.boot := rfl
@[simp] theorem State.wr_mgt (s : State) (r : Reg) (v : Nat) : (s.wr r v).mgt = s.mgt := rfl
@[simp] theorem State.wr_pwr (s : State) (r : Reg) (v : Nat) : (s.wr r v).pwr = s.pwr := rfl
@[simp] theorem State.wr_fuse (s : State) (r : Reg) (v : Nat) : (s.wr r v).fuse = s.fuse := rfl
@[simp] theorem State.wr_outbox (s : State) (r : Reg) (v : Nat) : (s.wr r v).outbox = s.outbox := rfl

/-! ### put -/

@[simp] theorem State.put_pending (s : State) (f : Fld) (v : Nat) : (s.put f v).pending = s.pending := rfl
@[simp] theorem State.put_freeCtr (s : State) (f : Fld) (v : Nat) : (s.put f v).freeCtr = s.freeCtr := rfl
@[simp] theorem State.put_lap (s : State) (f : Fld) (v : Nat) : (s.put f v).lap = s.lap := rfl
@[simp] theorem State.put_pos (s : State) (f : Fld) (v : Nat) : (s.put f v).pos = s.pos := rfl
@[simp] theorem State.put_act (s : State) (f : Fld) (v : Nat) : (s.put f v).act = s.act := rfl
@[simp] theorem State.put_caps (s : State) (f : Fld) (v : Nat) : (s.put f v).caps = s.caps := rfl
@[simp] theorem State.put_sets (s : State) (f : Fld) (v : Nat) : (s.put f v).sets = s.sets := rfl
@[simp] theorem State.put_was (s : State) (f : Fld) (v : Nat) : (s.put f v).was = s.was := rfl
@[simp] theorem State.put_laps (s : State) (f : Fld) (v : Nat) : (s.put f v).laps = s.laps := rfl
@[simp] theorem State.put_cores (s : State) (f : Fld) (v : Nat) : (s.put f v).cores = s.cores := rfl
@[simp] theorem State.put_heats (s : State) (f : Fld) (v : Nat) : (s.put f v).heats = s.heats := rfl
@[simp] theorem State.put_mesh (s : State) (f : Fld) (v : Nat) : (s.put f v).mesh = s.mesh := rfl
@[simp] theorem State.put_hal (s : State) (f : Fld) (v : Nat) : (s.put f v).hal = s.hal := rfl
@[simp] theorem State.put_mem (s : State) (f : Fld) (v : Nat) : (s.put f v).mem = s.mem := rfl
@[simp] theorem State.put_kv (s : State) (f : Fld) (v : Nat) : (s.put f v).kv = s.kv := rfl
@[simp] theorem State.put_btn (s : State) (f : Fld) (v : Nat) : (s.put f v).btn = s.btn := rfl
@[simp] theorem State.put_team (s : State) (f : Fld) (v : Nat) : (s.put f v).team = s.team := rfl
@[simp] theorem State.put_rel (s : State) (f : Fld) (v : Nat) : (s.put f v).rel = s.rel := rfl
@[simp] theorem State.put_mar (s : State) (f : Fld) (v : Nat) : (s.put f v).mar = s.mar := rfl
@[simp] theorem State.put_con (s : State) (f : Fld) (v : Nat) : (s.put f v).con = s.con := rfl
@[simp] theorem State.put_boot (s : State) (f : Fld) (v : Nat) : (s.put f v).boot = s.boot := rfl
@[simp] theorem State.put_mgt (s : State) (f : Fld) (v : Nat) : (s.put f v).mgt = s.mgt := rfl
@[simp] theorem State.put_pwr (s : State) (f : Fld) (v : Nat) : (s.put f v).pwr = s.pwr := rfl
@[simp] theorem State.put_fuse (s : State) (f : Fld) (v : Nat) : (s.put f v).fuse = s.fuse := rfl
@[simp] theorem State.put_outbox (s : State) (f : Fld) (v : Nat) : (s.put f v).outbox = s.outbox := rfl

/-! ### putB -/

@[simp] theorem State.putB_pending (s : State) (f : Fld) (b : Bool) : (s.putB f b).pending = s.pending := rfl
@[simp] theorem State.putB_freeCtr (s : State) (f : Fld) (b : Bool) : (s.putB f b).freeCtr = s.freeCtr := rfl
@[simp] theorem State.putB_lap (s : State) (f : Fld) (b : Bool) : (s.putB f b).lap = s.lap := rfl
@[simp] theorem State.putB_pos (s : State) (f : Fld) (b : Bool) : (s.putB f b).pos = s.pos := rfl
@[simp] theorem State.putB_act (s : State) (f : Fld) (b : Bool) : (s.putB f b).act = s.act := rfl
@[simp] theorem State.putB_caps (s : State) (f : Fld) (b : Bool) : (s.putB f b).caps = s.caps := rfl
@[simp] theorem State.putB_sets (s : State) (f : Fld) (b : Bool) : (s.putB f b).sets = s.sets := rfl
@[simp] theorem State.putB_was (s : State) (f : Fld) (b : Bool) : (s.putB f b).was = s.was := rfl
@[simp] theorem State.putB_laps (s : State) (f : Fld) (b : Bool) : (s.putB f b).laps = s.laps := rfl
@[simp] theorem State.putB_cores (s : State) (f : Fld) (b : Bool) : (s.putB f b).cores = s.cores := rfl
@[simp] theorem State.putB_heats (s : State) (f : Fld) (b : Bool) : (s.putB f b).heats = s.heats := rfl
@[simp] theorem State.putB_mesh (s : State) (f : Fld) (b : Bool) : (s.putB f b).mesh = s.mesh := rfl
@[simp] theorem State.putB_hal (s : State) (f : Fld) (b : Bool) : (s.putB f b).hal = s.hal := rfl
@[simp] theorem State.putB_mem (s : State) (f : Fld) (b : Bool) : (s.putB f b).mem = s.mem := rfl
@[simp] theorem State.putB_kv (s : State) (f : Fld) (b : Bool) : (s.putB f b).kv = s.kv := rfl
@[simp] theorem State.putB_btn (s : State) (f : Fld) (b : Bool) : (s.putB f b).btn = s.btn := rfl
@[simp] theorem State.putB_team (s : State) (f : Fld) (b : Bool) : (s.putB f b).team = s.team := rfl
@[simp] theorem State.putB_rel (s : State) (f : Fld) (b : Bool) : (s.putB f b).rel = s.rel := rfl
@[simp] theorem State.putB_mar (s : State) (f : Fld) (b : Bool) : (s.putB f b).mar = s.mar := rfl
@[simp] theorem State.putB_con (s : State) (f : Fld) (b : Bool) : (s.putB f b).con = s.con := rfl
@[simp] theorem State.putB_boot (s : State) (f : Fld) (b : Bool) : (s.putB f b).boot = s.boot := rfl
@[simp] theorem State.putB_mgt (s : State) (f : Fld) (b : Bool) : (s.putB f b).mgt = s.mgt := rfl
@[simp] theorem State.putB_pwr (s : State) (f : Fld) (b : Bool) : (s.putB f b).pwr = s.pwr := rfl
@[simp] theorem State.putB_fuse (s : State) (f : Fld) (b : Bool) : (s.putB f b).fuse = s.fuse := rfl
@[simp] theorem State.putB_outbox (s : State) (f : Fld) (b : Bool) : (s.putB f b).outbox = s.outbox := rfl

/-! ### bump -/

@[simp] theorem State.bump_pending (s : State) (f : Fld) (n : Nat) : (s.bump f n).pending = s.pending := rfl
@[simp] theorem State.bump_freeCtr (s : State) (f : Fld) (n : Nat) : (s.bump f n).freeCtr = s.freeCtr := rfl
@[simp] theorem State.bump_lap (s : State) (f : Fld) (n : Nat) : (s.bump f n).lap = s.lap := rfl
@[simp] theorem State.bump_pos (s : State) (f : Fld) (n : Nat) : (s.bump f n).pos = s.pos := rfl
@[simp] theorem State.bump_act (s : State) (f : Fld) (n : Nat) : (s.bump f n).act = s.act := rfl
@[simp] theorem State.bump_caps (s : State) (f : Fld) (n : Nat) : (s.bump f n).caps = s.caps := rfl
@[simp] theorem State.bump_sets (s : State) (f : Fld) (n : Nat) : (s.bump f n).sets = s.sets := rfl
@[simp] theorem State.bump_was (s : State) (f : Fld) (n : Nat) : (s.bump f n).was = s.was := rfl
@[simp] theorem State.bump_laps (s : State) (f : Fld) (n : Nat) : (s.bump f n).laps = s.laps := rfl
@[simp] theorem State.bump_cores (s : State) (f : Fld) (n : Nat) : (s.bump f n).cores = s.cores := rfl
@[simp] theorem State.bump_heats (s : State) (f : Fld) (n : Nat) : (s.bump f n).heats = s.heats := rfl
@[simp] theorem State.bump_mesh (s : State) (f : Fld) (n : Nat) : (s.bump f n).mesh = s.mesh := rfl
@[simp] theorem State.bump_hal (s : State) (f : Fld) (n : Nat) : (s.bump f n).hal = s.hal := rfl
@[simp] theorem State.bump_mem (s : State) (f : Fld) (n : Nat) : (s.bump f n).mem = s.mem := rfl
@[simp] theorem State.bump_kv (s : State) (f : Fld) (n : Nat) : (s.bump f n).kv = s.kv := rfl
@[simp] theorem State.bump_btn (s : State) (f : Fld) (n : Nat) : (s.bump f n).btn = s.btn := rfl
@[simp] theorem State.bump_team (s : State) (f : Fld) (n : Nat) : (s.bump f n).team = s.team := rfl
@[simp] theorem State.bump_rel (s : State) (f : Fld) (n : Nat) : (s.bump f n).rel = s.rel := rfl
@[simp] theorem State.bump_mar (s : State) (f : Fld) (n : Nat) : (s.bump f n).mar = s.mar := rfl
@[simp] theorem State.bump_con (s : State) (f : Fld) (n : Nat) : (s.bump f n).con = s.con := rfl
@[simp] theorem State.bump_boot (s : State) (f : Fld) (n : Nat) : (s.bump f n).boot = s.boot := rfl
@[simp] theorem State.bump_mgt (s : State) (f : Fld) (n : Nat) : (s.bump f n).mgt = s.mgt := rfl
@[simp] theorem State.bump_pwr (s : State) (f : Fld) (n : Nat) : (s.bump f n).pwr = s.pwr := rfl
@[simp] theorem State.bump_fuse (s : State) (f : Fld) (n : Nat) : (s.bump f n).fuse = s.fuse := rfl
@[simp] theorem State.bump_outbox (s : State) (f : Fld) (n : Nat) : (s.bump f n).outbox = s.outbox := rfl

/-! ### put48 -/

@[simp] theorem State.put48_pending (s : State) (lo hi : Fld) (v : Nat) : (s.put48 lo hi v).pending = s.pending := rfl
@[simp] theorem State.put48_freeCtr (s : State) (lo hi : Fld) (v : Nat) : (s.put48 lo hi v).freeCtr = s.freeCtr := rfl
@[simp] theorem State.put48_lap (s : State) (lo hi : Fld) (v : Nat) : (s.put48 lo hi v).lap = s.lap := rfl
@[simp] theorem State.put48_pos (s : State) (lo hi : Fld) (v : Nat) : (s.put48 lo hi v).pos = s.pos := rfl
@[simp] theorem State.put48_act (s : State) (lo hi : Fld) (v : Nat) : (s.put48 lo hi v).act = s.act := rfl
@[simp] theorem State.put48_caps (s : State) (lo hi : Fld) (v : Nat) : (s.put48 lo hi v).caps = s.caps := rfl
@[simp] theorem State.put48_sets (s : State) (lo hi : Fld) (v : Nat) : (s.put48 lo hi v).sets = s.sets := rfl
@[simp] theorem State.put48_was (s : State) (lo hi : Fld) (v : Nat) : (s.put48 lo hi v).was = s.was := rfl
@[simp] theorem State.put48_laps (s : State) (lo hi : Fld) (v : Nat) : (s.put48 lo hi v).laps = s.laps := rfl
@[simp] theorem State.put48_cores (s : State) (lo hi : Fld) (v : Nat) : (s.put48 lo hi v).cores = s.cores := rfl
@[simp] theorem State.put48_heats (s : State) (lo hi : Fld) (v : Nat) : (s.put48 lo hi v).heats = s.heats := rfl
@[simp] theorem State.put48_mesh (s : State) (lo hi : Fld) (v : Nat) : (s.put48 lo hi v).mesh = s.mesh := rfl
@[simp] theorem State.put48_hal (s : State) (lo hi : Fld) (v : Nat) : (s.put48 lo hi v).hal = s.hal := rfl
@[simp] theorem State.put48_mem (s : State) (lo hi : Fld) (v : Nat) : (s.put48 lo hi v).mem = s.mem := rfl
@[simp] theorem State.put48_kv (s : State) (lo hi : Fld) (v : Nat) : (s.put48 lo hi v).kv = s.kv := rfl
@[simp] theorem State.put48_btn (s : State) (lo hi : Fld) (v : Nat) : (s.put48 lo hi v).btn = s.btn := rfl
@[simp] theorem State.put48_team (s : State) (lo hi : Fld) (v : Nat) : (s.put48 lo hi v).team = s.team := rfl
@[simp] theorem State.put48_rel (s : State) (lo hi : Fld) (v : Nat) : (s.put48 lo hi v).rel = s.rel := rfl
@[simp] theorem State.put48_mar (s : State) (lo hi : Fld) (v : Nat) : (s.put48 lo hi v).mar = s.mar := rfl
@[simp] theorem State.put48_con (s : State) (lo hi : Fld) (v : Nat) : (s.put48 lo hi v).con = s.con := rfl
@[simp] theorem State.put48_boot (s : State) (lo hi : Fld) (v : Nat) : (s.put48 lo hi v).boot = s.boot := rfl
@[simp] theorem State.put48_mgt (s : State) (lo hi : Fld) (v : Nat) : (s.put48 lo hi v).mgt = s.mgt := rfl
@[simp] theorem State.put48_pwr (s : State) (lo hi : Fld) (v : Nat) : (s.put48 lo hi v).pwr = s.pwr := rfl
@[simp] theorem State.put48_fuse (s : State) (lo hi : Fld) (v : Nat) : (s.put48 lo hi v).fuse = s.fuse := rfl
@[simp] theorem State.put48_outbox (s : State) (lo hi : Fld) (v : Nat) : (s.put48 lo hi v).outbox = s.outbox := rfl

/-! ### wrA -/

@[simp] theorem State.wrA_pending (s : State) (r : Reg) (v : Nat) : (s.wrA r v).pending = s.pending := rfl
@[simp] theorem State.wrA_freeCtr (s : State) (r : Reg) (v : Nat) : (s.wrA r v).freeCtr = s.freeCtr := rfl
@[simp] theorem State.wrA_lap (s : State) (r : Reg) (v : Nat) : (s.wrA r v).lap = s.lap := rfl
@[simp] theorem State.wrA_pos (s : State) (r : Reg) (v : Nat) : (s.wrA r v).pos = s.pos := rfl
@[simp] theorem State.wrA_regs (s : State) (r : Reg) (v : Nat) : (s.wrA r v).regs = s.regs := rfl
@[simp] theorem State.wrA_caps (s : State) (r : Reg) (v : Nat) : (s.wrA r v).caps = s.caps := rfl
@[simp] theorem State.wrA_sets (s : State) (r : Reg) (v : Nat) : (s.wrA r v).sets = s.sets := rfl
@[simp] theorem State.wrA_was (s : State) (r : Reg) (v : Nat) : (s.wrA r v).was = s.was := rfl
@[simp] theorem State.wrA_laps (s : State) (r : Reg) (v : Nat) : (s.wrA r v).laps = s.laps := rfl
@[simp] theorem State.wrA_cores (s : State) (r : Reg) (v : Nat) : (s.wrA r v).cores = s.cores := rfl
@[simp] theorem State.wrA_heats (s : State) (r : Reg) (v : Nat) : (s.wrA r v).heats = s.heats := rfl
@[simp] theorem State.wrA_mesh (s : State) (r : Reg) (v : Nat) : (s.wrA r v).mesh = s.mesh := rfl
@[simp] theorem State.wrA_hal (s : State) (r : Reg) (v : Nat) : (s.wrA r v).hal = s.hal := rfl
@[simp] theorem State.wrA_mem (s : State) (r : Reg) (v : Nat) : (s.wrA r v).mem = s.mem := rfl
@[simp] theorem State.wrA_kv (s : State) (r : Reg) (v : Nat) : (s.wrA r v).kv = s.kv := rfl
@[simp] theorem State.wrA_btn (s : State) (r : Reg) (v : Nat) : (s.wrA r v).btn = s.btn := rfl
@[simp] theorem State.wrA_team (s : State) (r : Reg) (v : Nat) : (s.wrA r v).team = s.team := rfl
@[simp] theorem State.wrA_rel (s : State) (r : Reg) (v : Nat) : (s.wrA r v).rel = s.rel := rfl
@[simp] theorem State.wrA_mar (s : State) (r : Reg) (v : Nat) : (s.wrA r v).mar = s.mar := rfl
@[simp] theorem State.wrA_con (s : State) (r : Reg) (v : Nat) : (s.wrA r v).con = s.con := rfl
@[simp] theorem State.wrA_boot (s : State) (r : Reg) (v : Nat) : (s.wrA r v).boot = s.boot := rfl
@[simp] theorem State.wrA_mgt (s : State) (r : Reg) (v : Nat) : (s.wrA r v).mgt = s.mgt := rfl
@[simp] theorem State.wrA_pwr (s : State) (r : Reg) (v : Nat) : (s.wrA r v).pwr = s.pwr := rfl
@[simp] theorem State.wrA_fuse (s : State) (r : Reg) (v : Nat) : (s.wrA r v).fuse = s.fuse := rfl
@[simp] theorem State.wrA_outbox (s : State) (r : Reg) (v : Nat) : (s.wrA r v).outbox = s.outbox := rfl

/-! ### setCore -/

@[simp] theorem State.setCore_pending (s : State) (k : Nat) (c : Core) : (s.setCore k c).pending = s.pending := rfl
@[simp] theorem State.setCore_freeCtr (s : State) (k : Nat) (c : Core) : (s.setCore k c).freeCtr = s.freeCtr := rfl
@[simp] theorem State.setCore_lap (s : State) (k : Nat) (c : Core) : (s.setCore k c).lap = s.lap := rfl
@[simp] theorem State.setCore_pos (s : State) (k : Nat) (c : Core) : (s.setCore k c).pos = s.pos := rfl
@[simp] theorem State.setCore_regs (s : State) (k : Nat) (c : Core) : (s.setCore k c).regs = s.regs := rfl
@[simp] theorem State.setCore_act (s : State) (k : Nat) (c : Core) : (s.setCore k c).act = s.act := rfl
@[simp] theorem State.setCore_caps (s : State) (k : Nat) (c : Core) : (s.setCore k c).caps = s.caps := rfl
@[simp] theorem State.setCore_sets (s : State) (k : Nat) (c : Core) : (s.setCore k c).sets = s.sets := rfl
@[simp] theorem State.setCore_was (s : State) (k : Nat) (c : Core) : (s.setCore k c).was = s.was := rfl
@[simp] theorem State.setCore_laps (s : State) (k : Nat) (c : Core) : (s.setCore k c).laps = s.laps := rfl
@[simp] theorem State.setCore_heats (s : State) (k : Nat) (c : Core) : (s.setCore k c).heats = s.heats := rfl
@[simp] theorem State.setCore_mesh (s : State) (k : Nat) (c : Core) : (s.setCore k c).mesh = s.mesh := rfl
@[simp] theorem State.setCore_hal (s : State) (k : Nat) (c : Core) : (s.setCore k c).hal = s.hal := rfl
@[simp] theorem State.setCore_mem (s : State) (k : Nat) (c : Core) : (s.setCore k c).mem = s.mem := rfl
@[simp] theorem State.setCore_kv (s : State) (k : Nat) (c : Core) : (s.setCore k c).kv = s.kv := rfl
@[simp] theorem State.setCore_btn (s : State) (k : Nat) (c : Core) : (s.setCore k c).btn = s.btn := rfl
@[simp] theorem State.setCore_team (s : State) (k : Nat) (c : Core) : (s.setCore k c).team = s.team := rfl
@[simp] theorem State.setCore_rel (s : State) (k : Nat) (c : Core) : (s.setCore k c).rel = s.rel := rfl
@[simp] theorem State.setCore_mar (s : State) (k : Nat) (c : Core) : (s.setCore k c).mar = s.mar := rfl
@[simp] theorem State.setCore_con (s : State) (k : Nat) (c : Core) : (s.setCore k c).con = s.con := rfl
@[simp] theorem State.setCore_boot (s : State) (k : Nat) (c : Core) : (s.setCore k c).boot = s.boot := rfl
@[simp] theorem State.setCore_mgt (s : State) (k : Nat) (c : Core) : (s.setCore k c).mgt = s.mgt := rfl
@[simp] theorem State.setCore_pwr (s : State) (k : Nat) (c : Core) : (s.setCore k c).pwr = s.pwr := rfl
@[simp] theorem State.setCore_fuse (s : State) (k : Nat) (c : Core) : (s.setCore k c).fuse = s.fuse := rfl
@[simp] theorem State.setCore_outbox (s : State) (k : Nat) (c : Core) : (s.setCore k c).outbox = s.outbox := rfl

/-! ### modCore -/

@[simp] theorem State.modCore_pending (s : State) (k : Nat) (f : Core → Core) : (s.modCore k f).pending = s.pending := rfl
@[simp] theorem State.modCore_freeCtr (s : State) (k : Nat) (f : Core → Core) : (s.modCore k f).freeCtr = s.freeCtr := rfl
@[simp] theorem State.modCore_lap (s : State) (k : Nat) (f : Core → Core) : (s.modCore k f).lap = s.lap := rfl
@[simp] theorem State.modCore_pos (s : State) (k : Nat) (f : Core → Core) : (s.modCore k f).pos = s.pos := rfl
@[simp] theorem State.modCore_regs (s : State) (k : Nat) (f : Core → Core) : (s.modCore k f).regs = s.regs := rfl
@[simp] theorem State.modCore_act (s : State) (k : Nat) (f : Core → Core) : (s.modCore k f).act = s.act := rfl
@[simp] theorem State.modCore_caps (s : State) (k : Nat) (f : Core → Core) : (s.modCore k f).caps = s.caps := rfl
@[simp] theorem State.modCore_sets (s : State) (k : Nat) (f : Core → Core) : (s.modCore k f).sets = s.sets := rfl
@[simp] theorem State.modCore_was (s : State) (k : Nat) (f : Core → Core) : (s.modCore k f).was = s.was := rfl
@[simp] theorem State.modCore_laps (s : State) (k : Nat) (f : Core → Core) : (s.modCore k f).laps = s.laps := rfl
@[simp] theorem State.modCore_heats (s : State) (k : Nat) (f : Core → Core) : (s.modCore k f).heats = s.heats := rfl
@[simp] theorem State.modCore_mesh (s : State) (k : Nat) (f : Core → Core) : (s.modCore k f).mesh = s.mesh := rfl
@[simp] theorem State.modCore_hal (s : State) (k : Nat) (f : Core → Core) : (s.modCore k f).hal = s.hal := rfl
@[simp] theorem State.modCore_mem (s : State) (k : Nat) (f : Core → Core) : (s.modCore k f).mem = s.mem := rfl
@[simp] theorem State.modCore_kv (s : State) (k : Nat) (f : Core → Core) : (s.modCore k f).kv = s.kv := rfl
@[simp] theorem State.modCore_btn (s : State) (k : Nat) (f : Core → Core) : (s.modCore k f).btn = s.btn := rfl
@[simp] theorem State.modCore_team (s : State) (k : Nat) (f : Core → Core) : (s.modCore k f).team = s.team := rfl
@[simp] theorem State.modCore_rel (s : State) (k : Nat) (f : Core → Core) : (s.modCore k f).rel = s.rel := rfl
@[simp] theorem State.modCore_mar (s : State) (k : Nat) (f : Core → Core) : (s.modCore k f).mar = s.mar := rfl
@[simp] theorem State.modCore_con (s : State) (k : Nat) (f : Core → Core) : (s.modCore k f).con = s.con := rfl
@[simp] theorem State.modCore_boot (s : State) (k : Nat) (f : Core → Core) : (s.modCore k f).boot = s.boot := rfl
@[simp] theorem State.modCore_mgt (s : State) (k : Nat) (f : Core → Core) : (s.modCore k f).mgt = s.mgt := rfl
@[simp] theorem State.modCore_pwr (s : State) (k : Nat) (f : Core → Core) : (s.modCore k f).pwr = s.pwr := rfl
@[simp] theorem State.modCore_fuse (s : State) (k : Nat) (f : Core → Core) : (s.modCore k f).fuse = s.fuse := rfl
@[simp] theorem State.modCore_outbox (s : State) (k : Nat) (f : Core → Core) : (s.modCore k f).outbox = s.outbox := rfl

/-! ### modHeat -/

@[simp] theorem State.modHeat_pending (s : State) (h : Nat) (f : HeatRec → HeatRec) : (s.modHeat h f).pending = s.pending := rfl
@[simp] theorem State.modHeat_freeCtr (s : State) (h : Nat) (f : HeatRec → HeatRec) : (s.modHeat h f).freeCtr = s.freeCtr := rfl
@[simp] theorem State.modHeat_lap (s : State) (h : Nat) (f : HeatRec → HeatRec) : (s.modHeat h f).lap = s.lap := rfl
@[simp] theorem State.modHeat_pos (s : State) (h : Nat) (f : HeatRec → HeatRec) : (s.modHeat h f).pos = s.pos := rfl
@[simp] theorem State.modHeat_regs (s : State) (h : Nat) (f : HeatRec → HeatRec) : (s.modHeat h f).regs = s.regs := rfl
@[simp] theorem State.modHeat_act (s : State) (h : Nat) (f : HeatRec → HeatRec) : (s.modHeat h f).act = s.act := rfl
@[simp] theorem State.modHeat_caps (s : State) (h : Nat) (f : HeatRec → HeatRec) : (s.modHeat h f).caps = s.caps := rfl
@[simp] theorem State.modHeat_sets (s : State) (h : Nat) (f : HeatRec → HeatRec) : (s.modHeat h f).sets = s.sets := rfl
@[simp] theorem State.modHeat_was (s : State) (h : Nat) (f : HeatRec → HeatRec) : (s.modHeat h f).was = s.was := rfl
@[simp] theorem State.modHeat_laps (s : State) (h : Nat) (f : HeatRec → HeatRec) : (s.modHeat h f).laps = s.laps := rfl
@[simp] theorem State.modHeat_cores (s : State) (h : Nat) (f : HeatRec → HeatRec) : (s.modHeat h f).cores = s.cores := rfl
@[simp] theorem State.modHeat_mesh (s : State) (h : Nat) (f : HeatRec → HeatRec) : (s.modHeat h f).mesh = s.mesh := rfl
@[simp] theorem State.modHeat_hal (s : State) (h : Nat) (f : HeatRec → HeatRec) : (s.modHeat h f).hal = s.hal := rfl
@[simp] theorem State.modHeat_mem (s : State) (h : Nat) (f : HeatRec → HeatRec) : (s.modHeat h f).mem = s.mem := rfl
@[simp] theorem State.modHeat_kv (s : State) (h : Nat) (f : HeatRec → HeatRec) : (s.modHeat h f).kv = s.kv := rfl
@[simp] theorem State.modHeat_btn (s : State) (h : Nat) (f : HeatRec → HeatRec) : (s.modHeat h f).btn = s.btn := rfl
@[simp] theorem State.modHeat_team (s : State) (h : Nat) (f : HeatRec → HeatRec) : (s.modHeat h f).team = s.team := rfl
@[simp] theorem State.modHeat_rel (s : State) (h : Nat) (f : HeatRec → HeatRec) : (s.modHeat h f).rel = s.rel := rfl
@[simp] theorem State.modHeat_mar (s : State) (h : Nat) (f : HeatRec → HeatRec) : (s.modHeat h f).mar = s.mar := rfl
@[simp] theorem State.modHeat_con (s : State) (h : Nat) (f : HeatRec → HeatRec) : (s.modHeat h f).con = s.con := rfl
@[simp] theorem State.modHeat_boot (s : State) (h : Nat) (f : HeatRec → HeatRec) : (s.modHeat h f).boot = s.boot := rfl
@[simp] theorem State.modHeat_mgt (s : State) (h : Nat) (f : HeatRec → HeatRec) : (s.modHeat h f).mgt = s.mgt := rfl
@[simp] theorem State.modHeat_pwr (s : State) (h : Nat) (f : HeatRec → HeatRec) : (s.modHeat h f).pwr = s.pwr := rfl
@[simp] theorem State.modHeat_fuse (s : State) (h : Nat) (f : HeatRec → HeatRec) : (s.modHeat h f).fuse = s.fuse := rfl
@[simp] theorem State.modHeat_outbox (s : State) (h : Nat) (f : HeatRec → HeatRec) : (s.modHeat h f).outbox = s.outbox := rfl

/-! ### modHal -/

@[simp] theorem State.modHal_pending (s : State) (h : Nat) (f : HalHeat → HalHeat) : (s.modHal h f).pending = s.pending := rfl
@[simp] theorem State.modHal_freeCtr (s : State) (h : Nat) (f : HalHeat → HalHeat) : (s.modHal h f).freeCtr = s.freeCtr := rfl
@[simp] theorem State.modHal_lap (s : State) (h : Nat) (f : HalHeat → HalHeat) : (s.modHal h f).lap = s.lap := rfl
@[simp] theorem State.modHal_pos (s : State) (h : Nat) (f : HalHeat → HalHeat) : (s.modHal h f).pos = s.pos := rfl
@[simp] theorem State.modHal_regs (s : State) (h : Nat) (f : HalHeat → HalHeat) : (s.modHal h f).regs = s.regs := rfl
@[simp] theorem State.modHal_act (s : State) (h : Nat) (f : HalHeat → HalHeat) : (s.modHal h f).act = s.act := rfl
@[simp] theorem State.modHal_caps (s : State) (h : Nat) (f : HalHeat → HalHeat) : (s.modHal h f).caps = s.caps := rfl
@[simp] theorem State.modHal_sets (s : State) (h : Nat) (f : HalHeat → HalHeat) : (s.modHal h f).sets = s.sets := rfl
@[simp] theorem State.modHal_was (s : State) (h : Nat) (f : HalHeat → HalHeat) : (s.modHal h f).was = s.was := rfl
@[simp] theorem State.modHal_laps (s : State) (h : Nat) (f : HalHeat → HalHeat) : (s.modHal h f).laps = s.laps := rfl
@[simp] theorem State.modHal_cores (s : State) (h : Nat) (f : HalHeat → HalHeat) : (s.modHal h f).cores = s.cores := rfl
@[simp] theorem State.modHal_heats (s : State) (h : Nat) (f : HalHeat → HalHeat) : (s.modHal h f).heats = s.heats := rfl
@[simp] theorem State.modHal_mesh (s : State) (h : Nat) (f : HalHeat → HalHeat) : (s.modHal h f).mesh = s.mesh := rfl
@[simp] theorem State.modHal_mem (s : State) (h : Nat) (f : HalHeat → HalHeat) : (s.modHal h f).mem = s.mem := rfl
@[simp] theorem State.modHal_kv (s : State) (h : Nat) (f : HalHeat → HalHeat) : (s.modHal h f).kv = s.kv := rfl
@[simp] theorem State.modHal_btn (s : State) (h : Nat) (f : HalHeat → HalHeat) : (s.modHal h f).btn = s.btn := rfl
@[simp] theorem State.modHal_team (s : State) (h : Nat) (f : HalHeat → HalHeat) : (s.modHal h f).team = s.team := rfl
@[simp] theorem State.modHal_rel (s : State) (h : Nat) (f : HalHeat → HalHeat) : (s.modHal h f).rel = s.rel := rfl
@[simp] theorem State.modHal_mar (s : State) (h : Nat) (f : HalHeat → HalHeat) : (s.modHal h f).mar = s.mar := rfl
@[simp] theorem State.modHal_con (s : State) (h : Nat) (f : HalHeat → HalHeat) : (s.modHal h f).con = s.con := rfl
@[simp] theorem State.modHal_boot (s : State) (h : Nat) (f : HalHeat → HalHeat) : (s.modHal h f).boot = s.boot := rfl
@[simp] theorem State.modHal_mgt (s : State) (h : Nat) (f : HalHeat → HalHeat) : (s.modHal h f).mgt = s.mgt := rfl
@[simp] theorem State.modHal_pwr (s : State) (h : Nat) (f : HalHeat → HalHeat) : (s.modHal h f).pwr = s.pwr := rfl
@[simp] theorem State.modHal_fuse (s : State) (h : Nat) (f : HalHeat → HalHeat) : (s.modHal h f).fuse = s.fuse := rfl
@[simp] theorem State.modHal_outbox (s : State) (h : Nat) (f : HalHeat → HalHeat) : (s.modHal h f).outbox = s.outbox := rfl

/-! ### modRel -/

@[simp] theorem State.modRel_pending (s : State) (h : Nat) (f : RelSt → RelSt) : (s.modRel h f).pending = s.pending := rfl
@[simp] theorem State.modRel_freeCtr (s : State) (h : Nat) (f : RelSt → RelSt) : (s.modRel h f).freeCtr = s.freeCtr := rfl
@[simp] theorem State.modRel_lap (s : State) (h : Nat) (f : RelSt → RelSt) : (s.modRel h f).lap = s.lap := rfl
@[simp] theorem State.modRel_pos (s : State) (h : Nat) (f : RelSt → RelSt) : (s.modRel h f).pos = s.pos := rfl
@[simp] theorem State.modRel_regs (s : State) (h : Nat) (f : RelSt → RelSt) : (s.modRel h f).regs = s.regs := rfl
@[simp] theorem State.modRel_act (s : State) (h : Nat) (f : RelSt → RelSt) : (s.modRel h f).act = s.act := rfl
@[simp] theorem State.modRel_caps (s : State) (h : Nat) (f : RelSt → RelSt) : (s.modRel h f).caps = s.caps := rfl
@[simp] theorem State.modRel_sets (s : State) (h : Nat) (f : RelSt → RelSt) : (s.modRel h f).sets = s.sets := rfl
@[simp] theorem State.modRel_was (s : State) (h : Nat) (f : RelSt → RelSt) : (s.modRel h f).was = s.was := rfl
@[simp] theorem State.modRel_laps (s : State) (h : Nat) (f : RelSt → RelSt) : (s.modRel h f).laps = s.laps := rfl
@[simp] theorem State.modRel_cores (s : State) (h : Nat) (f : RelSt → RelSt) : (s.modRel h f).cores = s.cores := rfl
@[simp] theorem State.modRel_heats (s : State) (h : Nat) (f : RelSt → RelSt) : (s.modRel h f).heats = s.heats := rfl
@[simp] theorem State.modRel_mesh (s : State) (h : Nat) (f : RelSt → RelSt) : (s.modRel h f).mesh = s.mesh := rfl
@[simp] theorem State.modRel_hal (s : State) (h : Nat) (f : RelSt → RelSt) : (s.modRel h f).hal = s.hal := rfl
@[simp] theorem State.modRel_mem (s : State) (h : Nat) (f : RelSt → RelSt) : (s.modRel h f).mem = s.mem := rfl
@[simp] theorem State.modRel_kv (s : State) (h : Nat) (f : RelSt → RelSt) : (s.modRel h f).kv = s.kv := rfl
@[simp] theorem State.modRel_btn (s : State) (h : Nat) (f : RelSt → RelSt) : (s.modRel h f).btn = s.btn := rfl
@[simp] theorem State.modRel_team (s : State) (h : Nat) (f : RelSt → RelSt) : (s.modRel h f).team = s.team := rfl
@[simp] theorem State.modRel_mar (s : State) (h : Nat) (f : RelSt → RelSt) : (s.modRel h f).mar = s.mar := rfl
@[simp] theorem State.modRel_con (s : State) (h : Nat) (f : RelSt → RelSt) : (s.modRel h f).con = s.con := rfl
@[simp] theorem State.modRel_boot (s : State) (h : Nat) (f : RelSt → RelSt) : (s.modRel h f).boot = s.boot := rfl
@[simp] theorem State.modRel_mgt (s : State) (h : Nat) (f : RelSt → RelSt) : (s.modRel h f).mgt = s.mgt := rfl
@[simp] theorem State.modRel_pwr (s : State) (h : Nat) (f : RelSt → RelSt) : (s.modRel h f).pwr = s.pwr := rfl
@[simp] theorem State.modRel_fuse (s : State) (h : Nat) (f : RelSt → RelSt) : (s.modRel h f).fuse = s.fuse := rfl
@[simp] theorem State.modRel_outbox (s : State) (h : Nat) (f : RelSt → RelSt) : (s.modRel h f).outbox = s.outbox := rfl

/-! ### modPort -/

@[simp] theorem State.modPort_pending (s : State) (p : Nat) (f : BtnPort → BtnPort) : (s.modPort p f).pending = s.pending := rfl
@[simp] theorem State.modPort_freeCtr (s : State) (p : Nat) (f : BtnPort → BtnPort) : (s.modPort p f).freeCtr = s.freeCtr := rfl
@[simp] theorem State.modPort_lap (s : State) (p : Nat) (f : BtnPort → BtnPort) : (s.modPort p f).lap = s.lap := rfl
@[simp] theorem State.modPort_pos (s : State) (p : Nat) (f : BtnPort → BtnPort) : (s.modPort p f).pos = s.pos := rfl
@[simp] theorem State.modPort_regs (s : State) (p : Nat) (f : BtnPort → BtnPort) : (s.modPort p f).regs = s.regs := rfl
@[simp] theorem State.modPort_act (s : State) (p : Nat) (f : BtnPort → BtnPort) : (s.modPort p f).act = s.act := rfl
@[simp] theorem State.modPort_caps (s : State) (p : Nat) (f : BtnPort → BtnPort) : (s.modPort p f).caps = s.caps := rfl
@[simp] theorem State.modPort_sets (s : State) (p : Nat) (f : BtnPort → BtnPort) : (s.modPort p f).sets = s.sets := rfl
@[simp] theorem State.modPort_was (s : State) (p : Nat) (f : BtnPort → BtnPort) : (s.modPort p f).was = s.was := rfl
@[simp] theorem State.modPort_laps (s : State) (p : Nat) (f : BtnPort → BtnPort) : (s.modPort p f).laps = s.laps := rfl
@[simp] theorem State.modPort_cores (s : State) (p : Nat) (f : BtnPort → BtnPort) : (s.modPort p f).cores = s.cores := rfl
@[simp] theorem State.modPort_heats (s : State) (p : Nat) (f : BtnPort → BtnPort) : (s.modPort p f).heats = s.heats := rfl
@[simp] theorem State.modPort_mesh (s : State) (p : Nat) (f : BtnPort → BtnPort) : (s.modPort p f).mesh = s.mesh := rfl
@[simp] theorem State.modPort_hal (s : State) (p : Nat) (f : BtnPort → BtnPort) : (s.modPort p f).hal = s.hal := rfl
@[simp] theorem State.modPort_mem (s : State) (p : Nat) (f : BtnPort → BtnPort) : (s.modPort p f).mem = s.mem := rfl
@[simp] theorem State.modPort_kv (s : State) (p : Nat) (f : BtnPort → BtnPort) : (s.modPort p f).kv = s.kv := rfl
@[simp] theorem State.modPort_team (s : State) (p : Nat) (f : BtnPort → BtnPort) : (s.modPort p f).team = s.team := rfl
@[simp] theorem State.modPort_rel (s : State) (p : Nat) (f : BtnPort → BtnPort) : (s.modPort p f).rel = s.rel := rfl
@[simp] theorem State.modPort_mar (s : State) (p : Nat) (f : BtnPort → BtnPort) : (s.modPort p f).mar = s.mar := rfl
@[simp] theorem State.modPort_con (s : State) (p : Nat) (f : BtnPort → BtnPort) : (s.modPort p f).con = s.con := rfl
@[simp] theorem State.modPort_boot (s : State) (p : Nat) (f : BtnPort → BtnPort) : (s.modPort p f).boot = s.boot := rfl
@[simp] theorem State.modPort_mgt (s : State) (p : Nat) (f : BtnPort → BtnPort) : (s.modPort p f).mgt = s.mgt := rfl
@[simp] theorem State.modPort_pwr (s : State) (p : Nat) (f : BtnPort → BtnPort) : (s.modPort p f).pwr = s.pwr := rfl
@[simp] theorem State.modPort_fuse (s : State) (p : Nat) (f : BtnPort → BtnPort) : (s.modPort p f).fuse = s.fuse := rfl
@[simp] theorem State.modPort_outbox (s : State) (p : Nat) (f : BtnPort → BtnPort) : (s.modPort p f).outbox = s.outbox := rfl

/-! ### modLap -/

@[simp] theorem State.modLap_pending (s : State) (f : LapSt → LapSt) : (s.modLap f).pending = s.pending := rfl
@[simp] theorem State.modLap_freeCtr (s : State) (f : LapSt → LapSt) : (s.modLap f).freeCtr = s.freeCtr := rfl
@[simp] theorem State.modLap_lap (s : State) (f : LapSt → LapSt) : (s.modLap f).lap = s.lap := rfl
@[simp] theorem State.modLap_pos (s : State) (f : LapSt → LapSt) : (s.modLap f).pos = s.pos := rfl
@[simp] theorem State.modLap_regs (s : State) (f : LapSt → LapSt) : (s.modLap f).regs = s.regs := rfl
@[simp] theorem State.modLap_act (s : State) (f : LapSt → LapSt) : (s.modLap f).act = s.act := rfl
@[simp] theorem State.modLap_caps (s : State) (f : LapSt → LapSt) : (s.modLap f).caps = s.caps := rfl
@[simp] theorem State.modLap_sets (s : State) (f : LapSt → LapSt) : (s.modLap f).sets = s.sets := rfl
@[simp] theorem State.modLap_was (s : State) (f : LapSt → LapSt) : (s.modLap f).was = s.was := rfl
@[simp] theorem State.modLap_cores (s : State) (f : LapSt → LapSt) : (s.modLap f).cores = s.cores := rfl
@[simp] theorem State.modLap_heats (s : State) (f : LapSt → LapSt) : (s.modLap f).heats = s.heats := rfl
@[simp] theorem State.modLap_mesh (s : State) (f : LapSt → LapSt) : (s.modLap f).mesh = s.mesh := rfl
@[simp] theorem State.modLap_hal (s : State) (f : LapSt → LapSt) : (s.modLap f).hal = s.hal := rfl
@[simp] theorem State.modLap_mem (s : State) (f : LapSt → LapSt) : (s.modLap f).mem = s.mem := rfl
@[simp] theorem State.modLap_kv (s : State) (f : LapSt → LapSt) : (s.modLap f).kv = s.kv := rfl
@[simp] theorem State.modLap_btn (s : State) (f : LapSt → LapSt) : (s.modLap f).btn = s.btn := rfl
@[simp] theorem State.modLap_team (s : State) (f : LapSt → LapSt) : (s.modLap f).team = s.team := rfl
@[simp] theorem State.modLap_rel (s : State) (f : LapSt → LapSt) : (s.modLap f).rel = s.rel := rfl
@[simp] theorem State.modLap_mar (s : State) (f : LapSt → LapSt) : (s.modLap f).mar = s.mar := rfl
@[simp] theorem State.modLap_con (s : State) (f : LapSt → LapSt) : (s.modLap f).con = s.con := rfl
@[simp] theorem State.modLap_boot (s : State) (f : LapSt → LapSt) : (s.modLap f).boot = s.boot := rfl
@[simp] theorem State.modLap_mgt (s : State) (f : LapSt → LapSt) : (s.modLap f).mgt = s.mgt := rfl
@[simp] theorem State.modLap_pwr (s : State) (f : LapSt → LapSt) : (s.modLap f).pwr = s.pwr := rfl
@[simp] theorem State.modLap_fuse (s : State) (f : LapSt → LapSt) : (s.modLap f).fuse = s.fuse := rfl
@[simp] theorem State.modLap_outbox (s : State) (f : LapSt → LapSt) : (s.modLap f).outbox = s.outbox := rfl

/-! ### send -/

@[simp] theorem State.send_pending (s : State) (o : Out) : (s.send o).pending = s.pending := rfl
@[simp] theorem State.send_freeCtr (s : State) (o : Out) : (s.send o).freeCtr = s.freeCtr := rfl
@[simp] theorem State.send_lap (s : State) (o : Out) : (s.send o).lap = s.lap := rfl
@[simp] theorem State.send_pos (s : State) (o : Out) : (s.send o).pos = s.pos := rfl
@[simp] theorem State.send_regs (s : State) (o : Out) : (s.send o).regs = s.regs := rfl
@[simp] theorem State.send_act (s : State) (o : Out) : (s.send o).act = s.act := rfl
@[simp] theorem State.send_caps (s : State) (o : Out) : (s.send o).caps = s.caps := rfl
@[simp] theorem State.send_sets (s : State) (o : Out) : (s.send o).sets = s.sets := rfl
@[simp] theorem State.send_was (s : State) (o : Out) : (s.send o).was = s.was := rfl
@[simp] theorem State.send_laps (s : State) (o : Out) : (s.send o).laps = s.laps := rfl
@[simp] theorem State.send_cores (s : State) (o : Out) : (s.send o).cores = s.cores := rfl
@[simp] theorem State.send_heats (s : State) (o : Out) : (s.send o).heats = s.heats := rfl
@[simp] theorem State.send_mesh (s : State) (o : Out) : (s.send o).mesh = s.mesh := rfl
@[simp] theorem State.send_hal (s : State) (o : Out) : (s.send o).hal = s.hal := rfl
@[simp] theorem State.send_mem (s : State) (o : Out) : (s.send o).mem = s.mem := rfl
@[simp] theorem State.send_kv (s : State) (o : Out) : (s.send o).kv = s.kv := rfl
@[simp] theorem State.send_btn (s : State) (o : Out) : (s.send o).btn = s.btn := rfl
@[simp] theorem State.send_team (s : State) (o : Out) : (s.send o).team = s.team := rfl
@[simp] theorem State.send_rel (s : State) (o : Out) : (s.send o).rel = s.rel := rfl
@[simp] theorem State.send_mar (s : State) (o : Out) : (s.send o).mar = s.mar := rfl
@[simp] theorem State.send_con (s : State) (o : Out) : (s.send o).con = s.con := rfl
@[simp] theorem State.send_boot (s : State) (o : Out) : (s.send o).boot = s.boot := rfl
@[simp] theorem State.send_mgt (s : State) (o : Out) : (s.send o).mgt = s.mgt := rfl
@[simp] theorem State.send_pwr (s : State) (o : Out) : (s.send o).pwr = s.pwr := rfl
@[simp] theorem State.send_fuse (s : State) (o : Out) : (s.send o).fuse = s.fuse := rfl

/-! ### writeMem -/

@[simp] theorem State.writeMem_pending (s : State) (a : Nat) (bs : List Byte) : (s.writeMem a bs).pending = s.pending := rfl
@[simp] theorem State.writeMem_freeCtr (s : State) (a : Nat) (bs : List Byte) : (s.writeMem a bs).freeCtr = s.freeCtr := rfl
@[simp] theorem State.writeMem_lap (s : State) (a : Nat) (bs : List Byte) : (s.writeMem a bs).lap = s.lap := rfl
@[simp] theorem State.writeMem_pos (s : State) (a : Nat) (bs : List Byte) : (s.writeMem a bs).pos = s.pos := rfl
@[simp] theorem State.writeMem_regs (s : State) (a : Nat) (bs : List Byte) : (s.writeMem a bs).regs = s.regs := rfl
@[simp] theorem State.writeMem_act (s : State) (a : Nat) (bs : List Byte) : (s.writeMem a bs).act = s.act := rfl
@[simp] theorem State.writeMem_caps (s : State) (a : Nat) (bs : List Byte) : (s.writeMem a bs).caps = s.caps := rfl
@[simp] theorem State.writeMem_sets (s : State) (a : Nat) (bs : List Byte) : (s.writeMem a bs).sets = s.sets := rfl
@[simp] theorem State.writeMem_was (s : State) (a : Nat) (bs : List Byte) : (s.writeMem a bs).was = s.was := rfl
@[simp] theorem State.writeMem_laps (s : State) (a : Nat) (bs : List Byte) : (s.writeMem a bs).laps = s.laps := rfl
@[simp] theorem State.writeMem_cores (s : State) (a : Nat) (bs : List Byte) : (s.writeMem a bs).cores = s.cores := rfl
@[simp] theorem State.writeMem_heats (s : State) (a : Nat) (bs : List Byte) : (s.writeMem a bs).heats = s.heats := rfl
@[simp] theorem State.writeMem_mesh (s : State) (a : Nat) (bs : List Byte) : (s.writeMem a bs).mesh = s.mesh := rfl
@[simp] theorem State.writeMem_hal (s : State) (a : Nat) (bs : List Byte) : (s.writeMem a bs).hal = s.hal := rfl
@[simp] theorem State.writeMem_kv (s : State) (a : Nat) (bs : List Byte) : (s.writeMem a bs).kv = s.kv := rfl
@[simp] theorem State.writeMem_btn (s : State) (a : Nat) (bs : List Byte) : (s.writeMem a bs).btn = s.btn := rfl
@[simp] theorem State.writeMem_team (s : State) (a : Nat) (bs : List Byte) : (s.writeMem a bs).team = s.team := rfl
@[simp] theorem State.writeMem_rel (s : State) (a : Nat) (bs : List Byte) : (s.writeMem a bs).rel = s.rel := rfl
@[simp] theorem State.writeMem_mar (s : State) (a : Nat) (bs : List Byte) : (s.writeMem a bs).mar = s.mar := rfl
@[simp] theorem State.writeMem_con (s : State) (a : Nat) (bs : List Byte) : (s.writeMem a bs).con = s.con := rfl
@[simp] theorem State.writeMem_boot (s : State) (a : Nat) (bs : List Byte) : (s.writeMem a bs).boot = s.boot := rfl
@[simp] theorem State.writeMem_mgt (s : State) (a : Nat) (bs : List Byte) : (s.writeMem a bs).mgt = s.mgt := rfl
@[simp] theorem State.writeMem_pwr (s : State) (a : Nat) (bs : List Byte) : (s.writeMem a bs).pwr = s.pwr := rfl
@[simp] theorem State.writeMem_fuse (s : State) (a : Nat) (bs : List Byte) : (s.writeMem a bs).fuse = s.fuse := rfl
@[simp] theorem State.writeMem_outbox (s : State) (a : Nat) (bs : List Byte) : (s.writeMem a bs).outbox = s.outbox := rfl

/-! ### setMark -/

@[simp] theorem State.setMark_pending (s : State) (g v : Nat) : (s.setMark g v).pending = s.pending := rfl
@[simp] theorem State.setMark_freeCtr (s : State) (g v : Nat) : (s.setMark g v).freeCtr = s.freeCtr := rfl
@[simp] theorem State.setMark_lap (s : State) (g v : Nat) : (s.setMark g v).lap = s.lap := rfl
@[simp] theorem State.setMark_pos (s : State) (g v : Nat) : (s.setMark g v).pos = s.pos := rfl
@[simp] theorem State.setMark_regs (s : State) (g v : Nat) : (s.setMark g v).regs = s.regs := rfl
@[simp] theorem State.setMark_act (s : State) (g v : Nat) : (s.setMark g v).act = s.act := rfl
@[simp] theorem State.setMark_caps (s : State) (g v : Nat) : (s.setMark g v).caps = s.caps := rfl
@[simp] theorem State.setMark_sets (s : State) (g v : Nat) : (s.setMark g v).sets = s.sets := rfl
@[simp] theorem State.setMark_was (s : State) (g v : Nat) : (s.setMark g v).was = s.was := rfl
@[simp] theorem State.setMark_laps (s : State) (g v : Nat) : (s.setMark g v).laps = s.laps := rfl
@[simp] theorem State.setMark_cores (s : State) (g v : Nat) : (s.setMark g v).cores = s.cores := rfl
@[simp] theorem State.setMark_heats (s : State) (g v : Nat) : (s.setMark g v).heats = s.heats := rfl
@[simp] theorem State.setMark_mesh (s : State) (g v : Nat) : (s.setMark g v).mesh = s.mesh := rfl
@[simp] theorem State.setMark_hal (s : State) (g v : Nat) : (s.setMark g v).hal = s.hal := rfl
@[simp] theorem State.setMark_kv (s : State) (g v : Nat) : (s.setMark g v).kv = s.kv := rfl
@[simp] theorem State.setMark_btn (s : State) (g v : Nat) : (s.setMark g v).btn = s.btn := rfl
@[simp] theorem State.setMark_team (s : State) (g v : Nat) : (s.setMark g v).team = s.team := rfl
@[simp] theorem State.setMark_rel (s : State) (g v : Nat) : (s.setMark g v).rel = s.rel := rfl
@[simp] theorem State.setMark_mar (s : State) (g v : Nat) : (s.setMark g v).mar = s.mar := rfl
@[simp] theorem State.setMark_con (s : State) (g v : Nat) : (s.setMark g v).con = s.con := rfl
@[simp] theorem State.setMark_boot (s : State) (g v : Nat) : (s.setMark g v).boot = s.boot := rfl
@[simp] theorem State.setMark_mgt (s : State) (g v : Nat) : (s.setMark g v).mgt = s.mgt := rfl
@[simp] theorem State.setMark_pwr (s : State) (g v : Nat) : (s.setMark g v).pwr = s.pwr := rfl
@[simp] theorem State.setMark_fuse (s : State) (g v : Nat) : (s.setMark g v).fuse = s.fuse := rfl
@[simp] theorem State.setMark_outbox (s : State) (g v : Nat) : (s.setMark g v).outbox = s.outbox := rfl

/-! ### retire -/

@[simp] theorem State.retire_pending (s : State) (k : Nat) (pc : BitVec 16) (w : Word) : (s.retire k pc w).pending = s.pending := rfl
@[simp] theorem State.retire_freeCtr (s : State) (k : Nat) (pc : BitVec 16) (w : Word) : (s.retire k pc w).freeCtr = s.freeCtr := rfl
@[simp] theorem State.retire_lap (s : State) (k : Nat) (pc : BitVec 16) (w : Word) : (s.retire k pc w).lap = s.lap := rfl
@[simp] theorem State.retire_pos (s : State) (k : Nat) (pc : BitVec 16) (w : Word) : (s.retire k pc w).pos = s.pos := rfl
@[simp] theorem State.retire_act (s : State) (k : Nat) (pc : BitVec 16) (w : Word) : (s.retire k pc w).act = s.act := rfl
@[simp] theorem State.retire_caps (s : State) (k : Nat) (pc : BitVec 16) (w : Word) : (s.retire k pc w).caps = s.caps := rfl
@[simp] theorem State.retire_sets (s : State) (k : Nat) (pc : BitVec 16) (w : Word) : (s.retire k pc w).sets = s.sets := rfl
@[simp] theorem State.retire_was (s : State) (k : Nat) (pc : BitVec 16) (w : Word) : (s.retire k pc w).was = s.was := rfl
@[simp] theorem State.retire_laps (s : State) (k : Nat) (pc : BitVec 16) (w : Word) : (s.retire k pc w).laps = s.laps := rfl
@[simp] theorem State.retire_heats (s : State) (k : Nat) (pc : BitVec 16) (w : Word) : (s.retire k pc w).heats = s.heats := rfl
@[simp] theorem State.retire_mesh (s : State) (k : Nat) (pc : BitVec 16) (w : Word) : (s.retire k pc w).mesh = s.mesh := rfl
@[simp] theorem State.retire_hal (s : State) (k : Nat) (pc : BitVec 16) (w : Word) : (s.retire k pc w).hal = s.hal := rfl
@[simp] theorem State.retire_mem (s : State) (k : Nat) (pc : BitVec 16) (w : Word) : (s.retire k pc w).mem = s.mem := rfl
@[simp] theorem State.retire_kv (s : State) (k : Nat) (pc : BitVec 16) (w : Word) : (s.retire k pc w).kv = s.kv := rfl
@[simp] theorem State.retire_btn (s : State) (k : Nat) (pc : BitVec 16) (w : Word) : (s.retire k pc w).btn = s.btn := rfl
@[simp] theorem State.retire_team (s : State) (k : Nat) (pc : BitVec 16) (w : Word) : (s.retire k pc w).team = s.team := rfl
@[simp] theorem State.retire_rel (s : State) (k : Nat) (pc : BitVec 16) (w : Word) : (s.retire k pc w).rel = s.rel := rfl
@[simp] theorem State.retire_mar (s : State) (k : Nat) (pc : BitVec 16) (w : Word) : (s.retire k pc w).mar = s.mar := rfl
@[simp] theorem State.retire_con (s : State) (k : Nat) (pc : BitVec 16) (w : Word) : (s.retire k pc w).con = s.con := rfl
@[simp] theorem State.retire_boot (s : State) (k : Nat) (pc : BitVec 16) (w : Word) : (s.retire k pc w).boot = s.boot := rfl
@[simp] theorem State.retire_mgt (s : State) (k : Nat) (pc : BitVec 16) (w : Word) : (s.retire k pc w).mgt = s.mgt := rfl
@[simp] theorem State.retire_pwr (s : State) (k : Nat) (pc : BitVec 16) (w : Word) : (s.retire k pc w).pwr = s.pwr := rfl
@[simp] theorem State.retire_fuse (s : State) (k : Nat) (pc : BitVec 16) (w : Word) : (s.retire k pc w).fuse = s.fuse := rfl
@[simp] theorem State.retire_outbox (s : State) (k : Nat) (pc : BitVec 16) (w : Word) : (s.retire k pc w).outbox = s.outbox := rfl

end Sys2Proof.Machine
end

