-- ==== Sys2Proof/Laws/Tab.lean ====
section
/-! SUPPORT. Laws of sparse tables and of memory: what a read finds after a write, and that every operation keeps the
canonical form. -/

namespace Sys2Proof

/-! ### Reading after writing -/

@[simp] theorem Tab.get_put_same {α : Type} (d v : α) (k : Nat) (t : List (Nat × α)) :
    Tab.get d (Tab.put k v t) k = v := by
  induction t with
  | nil => simp [Tab.put, Tab.get]
  | cons p t ih =>
    obtain ⟨k', v'⟩ := p
    unfold Tab.put
    split
    · simp [Tab.get]
    · split
      · simp [Tab.get]
      · rename_i h1 h2
        simp [Tab.get, h2, ih]

theorem Tab.get_put_other {α : Type} (d v : α) (k j : Nat) (t : List (Nat × α)) (h : j ≠ k) :
    Tab.get d (Tab.put k v t) j = Tab.get d t j := by
  induction t with
  | nil => simp [Tab.put, Tab.get, h]
  | cons p t ih =>
    obtain ⟨k', v'⟩ := p
    unfold Tab.put
    split
    · simp [Tab.get, h]
    · split
      · rename_i h1 h2
        subst h2
        simp [Tab.get, h]
      · simp [Tab.get, ih]

@[simp] theorem Tab.find_put_same {α : Type} (v : α) (k : Nat) (t : List (Nat × α)) :
    Tab.find (Tab.put k v t) k = some v := by
  induction t with
  | nil => simp [Tab.put, Tab.find]
  | cons p t ih =>
    obtain ⟨k', v'⟩ := p
    unfold Tab.put
    split
    · simp [Tab.find]
    · split
      · simp [Tab.find]
      · rename_i h1 h2
        simp [Tab.find, h2, ih]

theorem Tab.find_put_other {α : Type} (v : α) (k j : Nat) (t : List (Nat × α)) (h : j ≠ k) :
    Tab.find (Tab.put k v t) j = Tab.find t j := by
  induction t with
  | nil => simp [Tab.put, Tab.find, h]
  | cons p t ih =>
    obtain ⟨k', v'⟩ := p
    unfold Tab.put
    split
    · simp [Tab.find, h]
    · split
      · rename_i h1 h2
        subst h2
        simp [Tab.find, h]
      · simp [Tab.find, ih]

theorem Tab.get_del_other {α : Type} (d : α) (k j : Nat) (t : List (Nat × α)) (h : j ≠ k) :
    Tab.get d (Tab.del k t) j = Tab.get d t j := by
  induction t with
  | nil => rfl
  | cons p t ih =>
    obtain ⟨k', v'⟩ := p
    unfold Tab.del
    split
    · rename_i h1
      subst h1
      simp [Tab.get, h]
    · simp [Tab.get, ih]

/-! ### The canonical form -/

theorem Tab.sortedFrom_mono {α : Type} (lo lo' : Nat) (t : List (Nat × α)) (h : lo ≤ lo')
    (w : Tab.sortedFrom lo' t = true) : Tab.sortedFrom lo t = true := by
  cases t with
  | nil => rfl
  | cons p t =>
    obtain ⟨k, v⟩ := p
    simp only [Tab.sortedFrom, Bool.and_eq_true, decide_eq_true_eq] at *
    exact ⟨by omega, w.2⟩

theorem Tab.sortedFrom_put {α : Type} (lo k : Nat) (v : α) (t : List (Nat × α)) (h : lo ≤ k)
    (w : Tab.sortedFrom lo t = true) : Tab.sortedFrom lo (Tab.put k v t) = true := by
  induction t generalizing lo with
  | nil => simp [Tab.put, Tab.sortedFrom, h]
  | cons p t ih =>
    obtain ⟨k', v'⟩ := p
    simp only [Tab.sortedFrom, Bool.and_eq_true, decide_eq_true_eq] at w
    unfold Tab.put
    split
    · rename_i h1
      simp only [Tab.sortedFrom, Bool.and_eq_true, decide_eq_true_eq]
      exact ⟨h, by omega, w.2⟩
    · split
      · rename_i h1 h2
        subst h2
        simp only [Tab.sortedFrom, Bool.and_eq_true, decide_eq_true_eq]
        exact ⟨h, w.2⟩
      · rename_i h1 h2
        simp only [Tab.sortedFrom, Bool.and_eq_true, decide_eq_true_eq]
        exact ⟨w.1, ih (k' + 1) (by omega) w.2⟩

theorem Tab.sortedFrom_del {α : Type} (lo k : Nat) (t : List (Nat × α)) (w : Tab.sortedFrom lo t = true) :
    Tab.sortedFrom lo (Tab.del k t) = true := by
  induction t generalizing lo with
  | nil => rfl
  | cons p t ih =>
    obtain ⟨k', v'⟩ := p
    simp only [Tab.sortedFrom, Bool.and_eq_true, decide_eq_true_eq] at w
    unfold Tab.del
    split
    · exact Tab.sortedFrom_mono _ _ _ (by omega) w.2
    · simp only [Tab.sortedFrom, Bool.and_eq_true, decide_eq_true_eq]
      exact ⟨w.1, ih _ w.2⟩

/-- Writing an entry keeps the canonical form. -/
theorem Tab.wf_put {α : Type} (k : Nat) (v : α) (t : List (Nat × α)) (w : Tab.wf t = true) :
    Tab.wf (Tab.put k v t) = true := Tab.sortedFrom_put 0 k v t (Nat.zero_le k) w

/-- Removing an entry keeps the canonical form. -/
theorem Tab.wf_del {α : Type} (k : Nat) (t : List (Nat × α)) (w : Tab.wf t = true) : Tab.wf (Tab.del k t) = true :=
  Tab.sortedFrom_del 0 k t w

theorem Tab.get_below {α : Type} (d : α) (lo k : Nat) (t : List (Nat × α)) (h : k < lo)
    (w : Tab.sortedFrom lo t = true) : Tab.get d t k = d := by
  induction t generalizing lo with
  | nil => rfl
  | cons p t ih =>
    obtain ⟨k', v'⟩ := p
    simp only [Tab.sortedFrom, Bool.and_eq_true, decide_eq_true_eq] at w
    have : k ≠ k' := by omega
    simp only [Tab.get, this, if_false]
    exact ih _ (by omega) w.2

theorem Tab.get_del_same {α : Type} (d : α) (lo k : Nat) (t : List (Nat × α)) (w : Tab.sortedFrom lo t = true) :
    Tab.get d (Tab.del k t) k = d := by
  induction t generalizing lo with
  | nil => rfl
  | cons p t ih =>
    obtain ⟨k', v'⟩ := p
    simp only [Tab.sortedFrom, Bool.and_eq_true, decide_eq_true_eq] at w
    unfold Tab.del
    split
    · rename_i h
      subst h
      exact Tab.get_below d (k + 1) k t (by omega) w.2
    · rename_i h
      simp only [Tab.get, h, if_false]
      exact ih _ w.2

/-! ### Memory -/

theorem Tab.mem_put {α : Type} (k : Nat) (v : α) (t : List (Nat × α)) (p : Nat × α) (h : p ∈ Tab.put k v t) :
    p = (k, v) ∨ p ∈ t := by
  induction t with
  | nil => simp [Tab.put] at h; exact Or.inl h
  | cons q t ih =>
    obtain ⟨k', v'⟩ := q
    unfold Tab.put at h
    split at h
    · simpa using h
    · split at h
      · rcases List.mem_cons.mp h with h | h
        · exact Or.inl h
        · exact Or.inr (List.mem_cons_of_mem _ h)
      · rcases List.mem_cons.mp h with h | h
        · exact Or.inr (h ▸ List.mem_cons_self)
        · rcases ih h with h | h
          · exact Or.inl h
          · exact Or.inr (List.mem_cons_of_mem _ h)

theorem Tab.mem_del {α : Type} (k : Nat) (t : List (Nat × α)) (p : Nat × α) (h : p ∈ Tab.del k t) : p ∈ t := by
  induction t with
  | nil => exact h
  | cons q t ih =>
    obtain ⟨k', v'⟩ := q
    unfold Tab.del at h
    split at h
    · exact List.mem_cons_of_mem _ h
    · rcases List.mem_cons.mp h with h | h
      · exact h ▸ List.mem_cons_self
      · exact List.mem_cons_of_mem _ (ih h)

/-- A byte written keeps the canonical form of memory. -/
theorem Cells.wf_put (a : Nat) (b : Byte) (m : List Host.Cell) (w : Cells.wf m = true) :
    Cells.wf (Cells.put a b m) = true := by
  simp only [Cells.wf, Bool.and_eq_true, List.all_eq_true, decide_eq_true_eq] at *
  unfold Cells.put
  split
  · exact ⟨Tab.wf_del a m w.1, fun p h => w.2 p (Tab.mem_del a m p h)⟩
  · rename_i hb
    refine ⟨Tab.wf_put a b m w.1, fun p h => ?_⟩
    rcases Tab.mem_put a b m p h with h | h
    · subst h
      exact hb
    · exact w.2 p h

/-- Bytes written keep the canonical form of memory. -/
theorem Cells.wf_putList (bs : List Byte) (a : Nat) (m : List Host.Cell) (w : Cells.wf m = true) :
    Cells.wf (Cells.putList a bs m) = true := by
  induction bs generalizing a m with
  | nil => exact w
  | cons b bs ih => exact ih (a + 1) _ (Cells.wf_put a b m w)

theorem Tab.sortedFrom_filter {α : Type} (p : Nat × α → Bool) (lo : Nat) (t : List (Nat × α))
    (w : Tab.sortedFrom lo t = true) : Tab.sortedFrom lo (t.filter p) = true := by
  induction t generalizing lo with
  | nil => rfl
  | cons q t ih =>
    obtain ⟨k, v⟩ := q
    simp only [Tab.sortedFrom, Bool.and_eq_true, decide_eq_true_eq] at w
    simp only [List.filter]
    split
    · simp only [Tab.sortedFrom, Bool.and_eq_true, decide_eq_true_eq]
      exact ⟨w.1, ih _ w.2⟩
    · exact Tab.sortedFrom_mono _ _ _ (by omega) (ih _ w.2)

/-- Cells removed by a test leave the canonical form. -/
theorem Cells.wf_filter (p : Host.Cell → Bool) (m : List Host.Cell) (w : Cells.wf m = true) :
    Cells.wf (m.filter p) = true := by
  simp only [Cells.wf, Bool.and_eq_true, List.all_eq_true, decide_eq_true_eq] at *
  exact ⟨Tab.sortedFrom_filter p 0 m w.1, fun q h => w.2 q (List.mem_filter.mp h).1⟩

/-- A byte read after it was written. -/
theorem Cells.get_put_same (a : Nat) (b : Byte) (m : List Host.Cell) (w : Cells.wf m = true) :
    Cells.get (Cells.put a b m) a = b := by
  simp only [Cells.wf, Bool.and_eq_true] at w
  unfold Cells.put Cells.get
  split
  · rename_i h
    rw [Tab.get_del_same _ 0 a m w.1, h]
  · simp

/-- A byte read after another was written. -/
theorem Cells.get_put_other (a x : Nat) (b : Byte) (m : List Host.Cell) (h : x ≠ a) :
    Cells.get (Cells.put a b m) x = Cells.get m x := by
  unfold Cells.put Cells.get
  split
  · exact Tab.get_del_other _ a x m h
  · exact Tab.get_put_other _ b a x m h

/-- Bytes outside those written are unchanged. -/
theorem Cells.get_putList_outside (bs : List Byte) (a x : Nat) (m : List Host.Cell)
    (h : x < a ∨ a + bs.length ≤ x) : Cells.get (Cells.putList a bs m) x = Cells.get m x := by
  induction bs generalizing a m with
  | nil => rfl
  | cons b bs ih =>
    simp only [List.length_cons] at h
    rw [Cells.putList, ih (a + 1) _ (by omega), Cells.get_put_other a x b m (by omega)]

/-- Bytes read back where they were written. -/
theorem Cells.getList_putList (bs : List Byte) (a : Nat) (m : List Host.Cell) (w : Cells.wf m = true) :
    Cells.getList (Cells.putList a bs m) a bs.length = bs := by
  induction bs generalizing a m with
  | nil => rfl
  | cons b bs ih =>
    simp only [List.length_cons, Cells.getList, Cells.putList]
    rw [ih (a + 1) _ (Cells.wf_put a b m w), Cells.get_putList_outside bs (a + 1) a _ (by omega),
      Cells.get_put_same a b m w]

/-- The range of a table's keys: what `Tab.wf` says of the empty table. -/
@[simp] theorem Tab.wf_nil {α : Type} : Tab.wf ([] : List (Nat × α)) = true := rfl

@[simp] theorem Cells.wf_nil : Cells.wf [] = true := rfl

end Sys2Proof
end

