-- ==== Sys2Proof/Laws/Regs.lean ====
section
/-! SUPPORT. Laws of registers, fields, cores, and the other records kept in tables: what a read finds after a write. -/

namespace Sys2Proof.Machine

/-! ### Registers -/

theorem State.rd_wr_same (s : State) (r : Reg) (v : Nat) (h : v < 2 ^ 32) : (s.wr r v).rd r = v := by
  simp only [State.rd, State.wr, Tab.get_put_same, BitVec.toNat_ofNat]
  exact Nat.mod_eq_of_lt h

theorem State.rd_wr_other (s : State) (r q : Reg) (v : Nat) (h : q.off ≠ r.off) : (s.wr r v).rd q = s.rd q := by
  simp only [State.rd, State.wr, Tab.get_put_other _ _ _ _ _ h]

theorem State.rd_put_other (s : State) (f : Fld) (q : Reg) (v : Nat) (h : q.off ≠ f.reg.off) :
    (s.put f v).rd q = s.rd q := State.rd_wr_other s f.reg q _ h

theorem State.get_put_otherReg (s : State) (f e : Fld) (v : Nat) (h : e.reg.off ≠ f.reg.off) :
    (s.put f v).get e = s.get e := by
  unfold State.get
  rw [State.rd_put_other s f e.reg v h]

theorem State.rd_lt (s : State) (r : Reg) : s.rd r < 2 ^ 32 := (Tab.get (BitVec.ofNat 32 r.rst) s.regs r.off).isLt

@[simp] theorem State.rdA_wr (s : State) (r q : Reg) (v : Nat) : (s.wr r v).rdA q = s.rdA q := rfl
@[simp] theorem State.getA_wr (s : State) (r : Reg) (f : Fld) (v : Nat) : (s.wr r v).getA f = s.getA f := rfl
@[simp] theorem State.getA_put (s : State) (e f : Fld) (v : Nat) : (s.put e v).getA f = s.getA f := rfl
@[simp] theorem State.getA_modCore (s : State) (k : Nat) (f : Core → Core) (e : Fld) : (s.modCore k f).getA e = s.getA e := rfl
@[simp] theorem State.get_modCore (s : State) (k : Nat) (f : Core → Core) (e : Fld) : (s.modCore k f).get e = s.get e := rfl
@[simp] theorem State.rd_modCore (s : State) (k : Nat) (f : Core → Core) (r : Reg) : (s.modCore k f).rd r = s.rd r := rfl

/-! ### Cores and the other records -/

@[simp] theorem State.core_setCore_same (s : State) (k : Nat) (c : Core) : (s.setCore k c).core k = c := by
  simp [State.core, State.setCore]

theorem State.core_setCore_other (s : State) (k j : Nat) (c : Core) (h : j ≠ k) : (s.setCore k c).core j = s.core j := by
  simp only [State.core, State.setCore, Tab.get_put_other _ _ _ _ _ h]

@[simp] theorem State.core_modCore_same (s : State) (k : Nat) (f : Core → Core) : (s.modCore k f).core k = f (s.core k) := by
  simp [State.modCore]

theorem State.core_modCore_other (s : State) (k j : Nat) (f : Core → Core) (h : j ≠ k) :
    (s.modCore k f).core j = s.core j := State.core_setCore_other s k j _ h

@[simp] theorem State.core_wr (s : State) (r : Reg) (v k : Nat) : (s.wr r v).core k = s.core k := rfl
@[simp] theorem State.core_put (s : State) (f : Fld) (v k : Nat) : (s.put f v).core k = s.core k := rfl
@[simp] theorem State.core_bump (s : State) (f : Fld) (n k : Nat) : (s.bump f n).core k = s.core k := rfl
@[simp] theorem State.core_writeMem (s : State) (a : Nat) (bs : List Byte) (k : Nat) : (s.writeMem a bs).core k = s.core k := rfl

@[simp] theorem State.heat_modHeat_same (s : State) (h : Nat) (f : HeatRec → HeatRec) : (s.modHeat h f).heat h = f (s.heat h) := by
  simp [State.heat, State.modHeat]

@[simp] theorem State.halH_modHal_same (s : State) (h : Nat) (f : HalHeat → HalHeat) : (s.modHal h f).halH h = f (s.halH h) := by
  simp [State.halH, State.modHal]

@[simp] theorem State.relH_modRel_same (s : State) (h : Nat) (f : RelSt → RelSt) : (s.modRel h f).relH h = f (s.relH h) := by
  simp [State.relH, State.modRel]

@[simp] theorem State.port_modPort_same (s : State) (p : Nat) (f : BtnPort → BtnPort) : (s.modPort p f).port p = f (s.port p) := by
  simp [State.port, State.modPort]

/-! ### Canonical forms -/

theorem State.wr_regs_wf (s : State) (r : Reg) (v : Nat) (w : Tab.wf s.regs = true) : Tab.wf (s.wr r v).regs = true :=
  Tab.wf_put _ _ _ w

theorem State.put_regs_wf (s : State) (f : Fld) (v : Nat) (w : Tab.wf s.regs = true) : Tab.wf (s.put f v).regs = true :=
  Tab.wf_put _ _ _ w

theorem State.wrA_act_wf (s : State) (r : Reg) (v : Nat) (w : Tab.wf s.act = true) : Tab.wf (s.wrA r v).act = true :=
  Tab.wf_put _ _ _ w

theorem State.setCore_cores_wf (s : State) (k : Nat) (c : Core) (w : Tab.wf s.cores = true) :
    Tab.wf (s.setCore k c).cores = true := Tab.wf_put _ _ _ w

/-- Bytes written keep the canonical form of memory. -/
theorem State.writeMem_wf (s : State) (a : Nat) (bs : List Byte) (w : Cells.wf s.mem.cells = true) :
    Cells.wf (s.writeMem a bs).mem.cells = true := Cells.wf_putList bs a _ w

/-- Bytes read back where they were written. -/
theorem State.readMem_writeMem (s : State) (a : Nat) (bs : List Byte) (w : Cells.wf s.mem.cells = true) :
    (s.writeMem a bs).readMem a bs.length = bs := Cells.getList_putList bs a _ w

/-- Updates over a list: with none, nothing. -/
@[simp] theorem State.each_nil {α : Type} (s : State) (f : State → α → State) : s.each [] f = s := rfl
@[simp] theorem State.each_cons {α : Type} (s : State) (a : α) (l : List α) (f : State → α → State) :
    s.each (a :: l) f = (f s a).each l f := rfl

/-- What each update of a list keeps, the whole keeps. -/
theorem State.each_keeps {α : Type} (P : State → Prop) (f : State → α → State) (hf : ∀ s a, P s → P (f s a)) (l : List α)
    (s : State) (h : P s) : P (s.each l f) := by
  induction l generalizing s with
  | nil => exact h
  | cons a l ih => exact ih (f s a) (hf s a h)

/-! ### Core registers -/

@[simp] theorem Core.sv_zero (c : Core) : c.sv 0 = 0 := by simp [Core.sv]

theorem Core.sv_setS_same (c : Core) (d : BitVec 5) (v : DWord) (t : Bool) (h : d ≠ 0) : (c.setS d v t).sv d = v := by
  unfold Core.sv Core.setS
  rw [if_neg h, if_neg h]
  exact Tab.get_put_same _ _ _ _

theorem Core.sv_setS_other (c : Core) (d a : BitVec 5) (v : DWord) (t : Bool) (h : a ≠ d) : (c.setS d v t).sv a = c.sv a := by
  have h' : a.toNat ≠ d.toNat := fun e => h (BitVec.eq_of_toNat_eq e)
  unfold Core.setS Core.sv
  by_cases hd : d = 0
  · rw [if_pos hd]
  · rw [if_neg hd]
    by_cases ha : a = 0
    · rw [if_pos ha, if_pos ha]
    · rw [if_neg ha, if_neg ha]
      exact Tab.get_put_other _ _ _ _ _ h'

/-- A write of s0 is discarded. -/
@[simp] theorem Core.setS_zero (c : Core) (v : DWord) (t : Bool) : c.setS 0 v t = c := by simp [Core.setS]

/-- A write of p0 is discarded. -/
@[simp] theorem Core.setP_zero (c : Core) (b t : Bool) : c.setP 0 b t = c := by simp [Core.setP]

@[simp] theorem Core.pv_zero (c : Core) : c.pv 0 = true := by simp [Core.pv]

end Sys2Proof.Machine
end

