-- ==== Sys2Proof/Laws/Issue.lean ====
section
/-! SUPPORT. Laws of fields, of retirement and of issue: what an instruction that issues comes to, for each effect its body
can have. -/

namespace Sys2Proof.Machine

/-! ### Fields -/

theorem p2_eq (n : Nat) : p2 n = 2 ^ n := rfl

theorem p2_pos (n : Nat) : 0 < p2 n := Nat.two_pow_pos n

theorem p2_add (a b : Nat) : p2 (a + b) = p2 a * p2 b := Nat.pow_add 2 a b

/-- A field reads back what was set in it. -/
theorem bitsOf_setBits_same (w lo n v : Nat) (h : v < p2 n) : bitsOf (setBits w lo n v) lo n = v := by
  unfold bitsOf setBits
  rw [Nat.mod_eq_of_lt h, p2_add]
  have h1 : w % p2 lo + v * p2 lo + w / (p2 lo * p2 n) * (p2 lo * p2 n) =
      w % p2 lo + p2 lo * (v + p2 n * (w / (p2 lo * p2 n))) := by
    rw [Nat.mul_add, Nat.mul_comm v, Nat.mul_comm (w / _), Nat.mul_assoc, Nat.add_assoc]
  rw [h1, Nat.add_mul_div_left _ _ (p2_pos lo), Nat.div_eq_of_lt (Nat.mod_lt _ (p2_pos lo)), Nat.zero_add,
    Nat.add_mul_mod_self_left, Nat.mod_eq_of_lt h]

/-- Setting a field keeps a word of `m` bits within `m` bits. -/
theorem setBits_lt (w lo n v m : Nat) (hw : w < p2 m) (hm : lo + n ≤ m) : setBits w lo n v < p2 m := by
  have hd : w / p2 (lo + n) < p2 (m - (lo + n)) := by
    apply Nat.div_lt_of_lt_mul
    rw [← p2_add]
    rwa [Nat.add_sub_cancel' hm]
  have h1 : w % p2 lo < p2 lo := Nat.mod_lt _ (p2_pos _)
  have h2 : v % p2 n < p2 n := Nat.mod_lt _ (p2_pos _)
  have hsum : w % p2 lo + v % p2 n * p2 lo < p2 (lo + n) := by
    rw [p2_add]
    calc w % p2 lo + v % p2 n * p2 lo < p2 lo + v % p2 n * p2 lo := by omega
      _ = (v % p2 n + 1) * p2 lo := by rw [Nat.add_mul, Nat.one_mul, Nat.add_comm]
      _ ≤ p2 n * p2 lo := Nat.mul_le_mul_right _ h2
      _ = p2 lo * p2 n := Nat.mul_comm _ _
  unfold setBits
  calc w % p2 lo + v % p2 n * p2 lo + w / p2 (lo + n) * p2 (lo + n)
      < p2 (lo + n) + w / p2 (lo + n) * p2 (lo + n) := by omega
    _ = (w / p2 (lo + n) + 1) * p2 (lo + n) := by rw [Nat.add_mul, Nat.one_mul, Nat.add_comm]
    _ ≤ p2 (m - (lo + n)) * p2 (lo + n) := Nat.mul_le_mul_right _ hd
    _ = p2 m := by rw [← p2_add]; congr 1; omega

/-- A field reads back what was put in it, within its width. -/
theorem State.get_put_same (s : State) (f : Fld) (v : Nat) (h : v < p2 f.n) (hf : f.lo + f.n ≤ 32) :
    (s.put f v).get f = v := by
  have hl : setBits (s.rd f.reg) f.lo f.n v < 2 ^ 32 := setBits_lt _ _ _ _ _ (State.rd_lt s f.reg) hf
  unfold State.get State.put
  rw [State.rd_wr_same _ _ _ hl]
  exact bitsOf_setBits_same _ _ _ _ h

/-- A count that saturates (R5). -/
theorem State.get_bump (s : State) (f : Fld) (n : Nat) (hf : f.lo + f.n ≤ 32) :
    (s.bump f n).get f = min (s.get f + n) (p2 f.n - 1) := by
  apply State.get_put_same _ _ _ _ hf
  have := p2_pos f.n
  omega

theorem State.rd_bump_other (s : State) (f : Fld) (n : Nat) (q : Reg) (h : q.off ≠ f.reg.off) : (s.bump f n).rd q = s.rd q :=
  State.rd_put_other s f q _ h

/-! ### Issue -/

/-- The state after retirement of word `w` by core `k`, on to `pc`. -/
def State.onward (s t : State) (k : CoreId) (w : Word) (pc : BitVec 16) : State :=
  (t.retire k.toNat (s.core k.toNat).pc w).modCore k.toNat fun c => { c with pc := pc, stall := none }

/-- What an effect comes to. -/
def State.outcome (s : State) (k : CoreId) (w : Word) : Eff → State
  | .done t => (s.onward t k w ((s.core k.toNat).pc + 4)).readFound s k.toNat w
  | .jump t pc => s.onward t k w (BitVec.ofNat 16 pc)
  | .wait t cond => (s.onward t k w ((s.core k.toNat).pc + 4)).modCore k.toNat fun c =>
      { c with run := .waiting, wait := some cond, waitFrom := s.now }
  | .ended t => (s.onward t k w ((s.core k.toNat).pc + 4)).modCore k.toNat fun c => { c with run := .done }
  | .trap cause => s.trap k.toNat cause
  | .stall => s.setCore k.toNat { s.core k.toNat with stall := some ((s.core k.toNat).stall.getD 0) }

/-- An instruction that issues comes to the outcome of its body, which finds what it reads corrected. -/
theorem State.issue_runs {s : State} {k : CoreId} {g : BitVec 3} {w : Word} (body : State → Bool → Eff) (h : Issues s k g)
    (hu : unitBusy (s.core k.toNat) w = false) :
    s.issue k g w body = s.outcome k w (body (s.readFirst k.toNat w) ((s.core k.toNat).tagOfP g.toNat)) := by
  have h1 : ¬ ((s.fenced k.toNat || (s.core k.toNat).run != CoreRun.running) = true) := by
    rw [h.unfenced, h.running]; decide
  have h2 : ¬ (4 * s.getA (F.CORE_ENTRY_size k.toNat) ≤ (s.core k.toNat).pc.toNat) := Nat.not_le.mpr h.inCode
  have h3 : ¬ ((!(s.core k.toNat).pv g.toNat) = true) := by rw [h.guarded]; decide
  unfold State.issue
  simp only [h1, h2, h3, hu, h.legal, if_false, Bool.false_eq_true]
  cases body (s.readFirst k.toNat w) ((s.core k.toNat).tagOfP g.toNat) <;> rfl

/-- Only a core with an ATTEND in flight holds VEC and MAT instructions back. -/
theorem unitBusy_idle {c : Core} (w : Word) (h : c.attend = none) : unitBusy c w = false := by simp [unitBusy, h]

/-- Other classes are never held back. -/
theorem unitBusy_class (c : Core) (w : Word) (h4 : bitsOf w.toNat 29 3 ≠ 4) (h5 : bitsOf w.toNat 29 3 ≠ 5) : unitBusy c w = false := by
  simp [unitBusy, h4, h5]

/-- Where no granule has an error, reads correct nothing and find nothing. -/
theorem State.readFirst_clean {s : State} (k : Nat) (w : Word) (h : NoErrors s) : s.readFirst k w = s := by
  unfold NoErrors at h
  simp [State.readFirst, h]

theorem State.readFound_clean {s : State} (t : State) (k : Nat) (w : Word) (h : NoErrors s) : t.readFound s k w = t := by
  unfold NoErrors at h
  simp [State.readFound, h]

/-- Reads of no range correct nothing and find nothing. -/
theorem State.wrongReads_none {s : State} {k : Nat} {w : Word} (h : coreReads s k w = []) : s.wrongReads k w = [] := by
  simp [State.wrongReads, h]

theorem State.readFirst_none {s : State} {k : Nat} {w : Word} (h : coreReads s k w = []) : s.readFirst k w = s := by
  unfold State.readFirst
  split
  · rfl
  · simp [State.wrongReads_none h]

theorem State.readFound_none {s : State} (t : State) {k : Nat} {w : Word} (h : coreReads s k w = []) : t.readFound s k w = t := by
  unfold State.readFound
  split
  · rfl
  · simp [State.wrongReads_none h]

/-- The core after retirement of word `w`, on to `pc`. -/
theorem State.core_onward (s u : State) (k : CoreId) (pc : BitVec 16) (w : Word) :
    (s.onward u k w pc).core k.toNat =
      { u.core k.toNat with pc := pc, stall := none, sig := sigStep (u.core k.toNat).sig (s.core k.toNat).pc w, sigShadow := sigStep (u.core k.toNat).sigShadow (s.core k.toNat).pc w } := by
  simp [State.onward, State.retire]

theorem OnlyCore.restTrans {s u t : State} (h : u = { s with cores := u.cores, regs := u.regs })
    (h' : t = { u with cores := t.cores, regs := t.regs }) : t = { s with cores := t.cores, regs := t.regs } :=
  h'.trans (congrArg (fun x : State => { x with cores := t.cores, regs := t.regs }) h)

/-- Only core `k` and its count of retired instructions change by retirement. -/
theorem OnlyCore.onward {s u : State} {k : CoreId} {offs : List Nat} (h : OnlyCore s u k offs) (pc : BitVec 16) (w : Word) :
    OnlyCore s (s.onward u k w pc) k (retireOff k :: offs) := by
  refine ⟨OnlyCore.restTrans h.rest rfl, ?_, ?_⟩
  · intro j hj
    unfold State.onward State.retire
    rw [State.core_modCore_other _ _ _ _ hj, State.core_bump, State.core_modCore_other _ _ _ _ hj]
    exact h.cores j hj
  · intro q hq
    rw [List.mem_cons, not_or] at hq
    unfold State.onward State.retire
    rw [State.rd_modCore, State.rd_bump_other _ _ _ _ hq.1, State.rd_modCore]
    exact h.regs q hq.2

/-- Writing a core's own record changes nothing else. -/
theorem OnlyCore.modCore (s : State) (k : CoreId) (f : Core → Core) : OnlyCore s (s.modCore k.toNat f) k [] :=
  ⟨rfl, fun _ hj => State.core_modCore_other _ _ _ _ hj, fun _ _ => rfl⟩

/-- The count of retired instructions after retirement. -/
theorem State.retire_count (s u : State) (k : CoreId) (pc : BitVec 16) (w : Word)
    (h : u.get (F.CORE_CNT_RETIRE_count k.toNat) = s.get (F.CORE_CNT_RETIRE_count k.toNat)) :
    (s.onward u k w pc).get (F.CORE_CNT_RETIRE_count k.toNat) =
      min (s.get (F.CORE_CNT_RETIRE_count k.toNat) + 1) 0xFFFFFFFF := by
  have hf : (F.CORE_CNT_RETIRE_count k.toNat).lo + (F.CORE_CNT_RETIRE_count k.toNat).n ≤ 32 := Nat.le_refl 32
  unfold State.onward State.retire
  rw [State.get_modCore, State.get_bump _ _ _ hf, State.get_modCore, h]
  rfl

/-- Retirement of instruction `i` whose word is `w`. -/
theorem Retired.onward {s u : State} {k : CoreId} {i : Instr} {w : Word} (pc : BitVec 16) (hw : encodeCore i = some (k, w))
    (hsig : (u.core k.toNat).sig = (s.core k.toNat).sig) (hsh : (u.core k.toNat).sigShadow = (s.core k.toNat).sigShadow)
    (hc : u.get (F.CORE_CNT_RETIRE_count k.toNat) = s.get (F.CORE_CNT_RETIRE_count k.toNat)) :
    Retired s (s.onward u k w pc) k i pc := by
  refine ⟨?_, ⟨w, hw, ?_, ?_⟩, State.retire_count s u k pc w hc⟩
  all_goals rw [State.core_onward]
  · rw [hsig]
  · rw [hsh]

/-- A bit of a mask after another is set or cleared. -/
theorem getLsbD_setBit {n : Nat} (w : BitVec n) (i j : Nat) (b : Bool) (h : i < n) :
    (setBit w i b).getLsbD j = if j = i then b else w.getLsbD j := by
  have hp : (BitVec.ofNat n (p2 i)).getLsbD j = decide (j = i) := by
    rw [BitVec.getLsbD_ofNat, p2_eq, Nat.testBit_two_pow]
    by_cases hj : j = i
    · simp [hj, h]
    · have : ¬ i = j := fun e => hj e.symm
      simp [hj, this]
  unfold setBit
  cases b
  · simp only [Bool.false_eq_true, if_false, BitVec.getLsbD_and, BitVec.getLsbD_not, hp]
    by_cases hj : j = i
    · simp [hj]
    · by_cases hn : j < n
      · simp [hj, hn]
      · simp [hj, BitVec.getLsbD_of_ge _ _ (Nat.le_of_not_lt hn)]
  · simp only [if_true, BitVec.getLsbD_or, hp]
    by_cases hj : j = i <;> simp [hj]

/-- A scalar register written by an instruction that changes nothing else of its core. -/
theorem WritesScalar.setS {s u : State} {k : CoreId} {d : BitVec 5} {v : DWord} {tag : Bool} (w : Word) (pc : BitVec 16)
    (h : u.core k.toNat = (s.core k.toNat).setS d v tag) : WritesScalar (s.core k.toNat) ((s.onward u k w pc).core k.toNat) d v tag := by
  refine ⟨?_, ?_, ?_⟩
  · intro r
    rw [State.core_onward, h]
    by_cases hd : d = 0
    · rw [hd, Core.setS_zero, if_neg (fun e => e.2 rfl)]; rfl
    · by_cases hr : r = d
      · rw [hr, if_pos ⟨rfl, hd⟩]
        exact Core.sv_setS_same _ _ _ _ hd
      · rw [if_neg (fun e => hr e.1)]
        exact Core.sv_setS_other _ _ _ _ _ hr
  · intro r
    rw [State.core_onward, h]
    by_cases hd : d = 0
    · rw [hd, Core.setS_zero, if_neg (fun e => e.2 rfl)]; rfl
    · unfold Core.setS Core.tagOfS
      rw [if_neg hd]
      show (setBit _ _ _).getLsbD _ = _
      rw [getLsbD_setBit _ _ _ _ d.isLt]
      by_cases hr : r = d
      · rw [if_pos (by rw [hr]), if_pos ⟨hr, hd⟩]
      · rw [if_neg (fun e => hr (BitVec.eq_of_toNat_eq e)), if_neg (fun e => hr e.1)]
  · rw [State.core_onward, h]
    unfold Core.setS
    split <;> rfl

end Sys2Proof.Machine
end

