-- ==== Sys2Proof/WellFormed.lean ====
section
/-! DEFINITION. Which commands the module can receive, beyond what the types of their operands already say. The meanings
are total: a command that is not well formed never arrives, and no meaning relies on it. -/

namespace Sys2Proof

/-- A console line that has been read: its tokens stand from left to right, and a line for another module fits a tunnel
frame with its terminator (R672, R700). -/
def Line.wf (l : Line) : Bool :=
  decide (l.args.Pairwise fun a b => a.col < b.col) && l.args.all (fun a => decide (a.col < l.endCol) && decide (1 ≤ a.col)) &&
    match l.route with
    | some (_, bs) => decide (bs.length ≤ 480) && bs.getLast? == some 13
    | none => true

/-- A byte of a console line: not a terminator (R671). -/
def lineByte (b : Byte) : Bool := b != 13 && b != 10

/-- The console line a command carries. -/
def Instr.line : Instr → Option Line
  | .lapStatus l | .lapCounters l | .lapSet l | .lapOut l | .lapRealign l | .lapPacerAdopt l | .halyardShow l
  | .halyardCounters l | .heatCommit l | .heatStart l | .heatRecall l | .heatReset l | .heatShow l | .heatSet l
  | .imageLoad l | .imageShow l | .kvShow l | .batonShow l | .batonTopo l | .batonRetrain l | .batonEq l | .batonSet l
  | .batonEnable l | .teamShow l | .teamSet l | .teamTail l | .marshalShow l | .marshalLock l | .marshalService l
  | .marshalInject l | .marshalRestore l | .holdCmd l | .holdRelease l | .statusCmd l | .statusFence l | .journalCmd l
  | .journalShow l | .journalClear l | .rebootCmd l | .updateShow l | .updateBegin l | .updateData l | .updateEnd l
  | .updateApply l | .claimCmd l | .claimForce l | .unclaim l | .setSession l | .getSession l | .helpCmd l | .getReg l
  | .setReg l | .logCmd l | .meshShow l | .meshDist l | .meshSlot l | .meshLate l | .numShow l | .numCfg l | .numSeed l
  | .numClear l | .powerShow l | .powerClock l | .stopCmd l | .thermalShow l | .thermalWarn l => some l
  | _ => none

/-- Whether a command can arrive. -/
def Instr.wf (c : Instr) : Bool :=
  match c with
  | .registerWrite _ a off _ => off.toNat % a.bytes == 0
  | .loReadCapture _ a off => off.toNat % a.bytes == 0
  | .consoleLine _ text => text.all lineByte
  | .mgtWrite _ _ words _ _ => 1 ≤ words.length && words.length ≤ 32
  | .codewordReceived _ lanes => lanes.length == 8 && lanes.all fun l => l.length == 68
  | .bar2Read _ _ len => 1 ≤ len.toNat && len.toNat ≤ 4096
  | .bar2Write _ _ bytes _ => 1 ≤ bytes.length && bytes.length ≤ 4096
  | .farReadCompletion _ _ _ bytes => 1 ≤ bytes.length && bytes.length ≤ 4096
  | c =>
    match c.line with
    | some l => l.wf
    | none => true

end Sys2Proof
end

