-- ==== Sys2Proof/Tests/Slice0.lean ====
section
/-! SUPPORT. Tests: ill-formed commands, words written out from the encodings of Tables 6-4 to 6-14, single steps with
results of the spec, and, for every statement with hypotheses, concrete states and operands that meet them. -/

namespace Sys2Proof.Tests
set_option Elab.async false -- one theorem at a time: each holds much memory while it is checked
open Sys2Proof Sys2Proof.Machine

/-! ### Ill-formed commands are refused by WellFormed -/

def line0 : Line := { sess := 0, gen := none, args := [], endCol := 1, route := none }

theorem test_wf_register_alignment : (Instr.registerWrite (.bar0 0) .word 2#26 0).wf = false ∧ (Instr.registerWrite (.bar0 0) .word 4#26 0).wf = true ∧ (Instr.registerWrite (.bar0 0) .half 1#26 0).wf = false := by decide
theorem test_wf_capture_alignment : (Instr.loReadCapture (.bar0 0) .word 6#26).wf = false ∧ (Instr.loReadCapture (.bar0 0) .half 6#26).wf = true := by decide
theorem test_wf_line_terminator : (Instr.consoleLine 0 [0x73, 13]).wf = false ∧ (Instr.consoleLine 0 [0x73]).wf = true := by decide
theorem test_wf_mgt_words : (Instr.mgtWrite false 0 [] 0 0).wf = false ∧ (Instr.mgtWrite false 0 (List.replicate 33 0) 0 0).wf = false := by decide
theorem test_wf_bar2_read : (Instr.bar2Read 0 0 0).wf = false ∧ (Instr.bar2Read 0 0 4097).wf = false ∧ (Instr.bar2Read 0 0 4096).wf = true := by decide
theorem test_wf_bar2_write : (Instr.bar2Write 0 0 [] false).wf = false := by decide
theorem test_wf_far_read : (Instr.farReadCompletion 0 0 0 []).wf = false := by decide
theorem test_wf_line_order : (Instr.lapStatus { line0 with args := [⟨"a", "1", 9⟩, ⟨"b", "2", 5⟩], endCol := 20 }).wf = false := by decide
theorem test_wf_line_end : (Instr.lapStatus { line0 with args := [⟨"a", "1", 9⟩], endCol := 9 }).wf = false := by decide
theorem test_wf_line_column : (Instr.lapStatus { line0 with args := [⟨"a", "1", 0⟩], endCol := 9 }).wf = false := by decide
theorem test_wf_route_length : (Instr.lapStatus { line0 with route := some (3, List.replicate 480 0x20 ++ [13]) }).wf = false := by decide +kernel
theorem test_wf_route_terminator : (Instr.lapStatus { line0 with route := some (3, [0x20]) }).wf = false := by decide

/-! ### Words written out field by field (Tables 6-4 to 6-14) -/

/-- SR: class 0, guard 1, function 0 (ADD), d = 1, a = 2, b = 3. -/
theorem test_word_add : decodeCore 5 0b000_001_00000_00001_00010_00011_000000#32 = some (.add 5 1 1 2 3) := by decide
/-- SI: class 1, guard 0, LI is function 10; d = 3, a and imm form 0x1_0FFF. -/
theorem test_word_li : decodeCore 0 (siWord 10 0 3 0 0xFFF) = some (.li 0 0 3 0 0xFFF) := by decide
/-- CTL: class 3, function 0 (BR), guard 7, imm = -1. -/
theorem test_word_br : decodeCore 5 0b011_111_000_11111111111111111111111#32 = some (.br 5 7 0x7FFFFF) := by decide
/-- VEC: class 4, function 0 (VADD), strict, d = 31, a = 0, b = 1. -/
theorem test_word_vadd : decodeCore 5 0b100_000_00000_1_11111_00000_00001_00000#32 = some (.vadd 5 0 true 31 0 1) := by decide
/-- MAT: class 5, function 0 (MMA), g = 6, ta = 1, tb = 2. -/
theorem test_word_mma : decodeCore 5 0b101_000_00000_110_0001_0010_0000_000000#32 = some (.mma 5 0 6 1 2) := by decide
/-- Class 7 and a non-zero reserved field name no instruction (R237). -/
theorem test_word_reserved : decodeCore 5 0xE0000000#32 = none ∧ decodeCore 5 0b000_001_00000_00001_00010_00011_000001#32 = none := by decide

/-! ### States for the witnesses -/

/-- A state with fields of registers set. -/
def regs (l : List (Fld × Nat)) (s : State) : State := l.foldl (fun s e => s.put e.1 e.2) s

/-- A state with fields of active copies set. -/
def acts (l : List (Fld × Nat)) (s : State) : State :=
  l.foldl (fun s e => { s with act := Tab.put e.1.reg.off (BitVec.ofNat 32 (setBits (s.rdA e.1.reg) e.1.lo e.1.n e.2)) s.act }) s

/-- Core 5 runs code of one line, changed by `f`; no heat owns it. -/
def coreS (f : Core → Core) : State :=
  { acts [(F.CORE_ENTRY_size 5, 1)] State.reset with cores := [(5, f { Core.blank 5 with run := .running })] }

def run5 : State := coreS id

/-- Heat 1 owns every block and is in state `st`. -/
def heat1 (st : Nat) (s : State) : State :=
  regs [(F.HEAT_H_STATE_state 1, st), (⟨R.HEAT_H_AGEOM 1, 8, 4⟩, 8), (⟨R.HEAT_H_AGEOM 1, 12, 4⟩, 8)] s

/-- Core 5 runs as heat rank 0 of heat 1. -/
def ranked (f : Core → Core) : State := acts [(F.HAL_RANK_valid 5, 1)] (heat1 3 (coreS f))

theorem issues_coreS (f : Core → Core) (h : (f { Core.blank 5 with run := .running }).run = .running)
    (hp : (f { Core.blank 5 with run := .running }).pc = 0) (hi : (f { Core.blank 5 with run := .running }).imem = [] := by rfl) :
    Issues (coreS f) 5 0 :=
  ⟨rfl, h, by
    show BitVec.toNat (f { Core.blank 5 with run := .running }).pc < 4 * State.getA (coreS id) (F.CORE_ENTRY_size 5)
    rw [hp]; decide +kernel, rfl, by
    show Core.badWord (f { Core.blank 5 with run := .running }) 5 = false
    unfold Core.badWord; rw [hi]; rfl⟩

theorem issues_run5 : Issues run5 5 0 := issues_coreS id rfl rfl
theorem issuesU_run5 : IssuesUnit run5 5 0 := ⟨issues_run5, rfl⟩

/-! ### Witnesses: the core -/

theorem witness_ScalarArithmetic : Issues run5 5 0 ∧ BitVec.toNat 63#12 < 64 ∧ BitVec.toNat 15#5 < 16 := ⟨issues_run5, by decide, by decide⟩
theorem witness_PredicateResults : Issues run5 5 0 ∧ BitVec.toNat 7#5 < 8 := ⟨issues_run5, by decide⟩

/-- A core whose s1 to s3 hold `a`, `b` and `c`. -/
def sregs (a b c : DWord) (f : Core → Core := id) : State := coreS fun x => f { x with s := [(1, a), (2, b), (3, c)] }

theorem issues_sregs (a b c : DWord) : Issues (sregs a b c) 5 0 := issues_coreS _ rfl rfl

/-- The last byte, word and 16 bytes of the scratchpad; a misaligned and an outlying address for the traps. -/
def edge : State := sregs 0xBFFFF 0xBFFF8 0xBFFF0

theorem witness_ScratchpadLoads : Issues edge 5 0 ∧ NoErrors edge ∧
    (((edge.core 5).sv 1 + BitVec.ofInt 64 0).toNat % 1 = 0 ∧ ((edge.core 5).sv 1 + BitVec.ofInt 64 0).toNat + 1 ≤ 0xC0000) ∧
    (((edge.core 5).sv 2 + BitVec.ofInt 64 0).toNat % 8 = 0 ∧ ((edge.core 5).sv 2 + BitVec.ofInt 64 0).toNat + 8 ≤ 0xC0000) ∧
    BitVec.toNat 15#5 < 16 ∧ ((edge.core 5).sv 3 + BitVec.ofInt 64 0).toNat % 16 = 0 ∧ ((edge.core 5).sv 3 + BitVec.ofInt 64 0).toNat + 16 ≤ 0xC0000 :=
  ⟨issues_sregs _ _ _, rfl, by decide, by decide, by decide, by decide, by decide⟩

theorem witness_ScratchpadStores : Issues edge 5 0 ∧ edge.memWf ∧ (edge.core 5).tagOfP 0 = false ∧ (edge.core 5).tagOfS 1 = false ∧ (edge.core 5).tagOfS 4 = false ∧
    QuarantineOk edge 5 false 0xBFFFF 1 ∧ QuarantineOk edge 5 false 0xBFFF0 16 ∧ edge.badIn (spBase 5 + 0xBFFFF) 1 = [] ∧ edge.badIn (spBase 5 + 0xBFFF0) 16 = [] :=
  ⟨issues_sregs _ _ _, rfl, by decide, by decide, by decide, nofun, nofun, by decide, by decide⟩

theorem witness_CsrRead : Issues run5 5 0 ∧ (BitVec.toNat 0x010#12, run5.rd (R.NUM_CFG 5)) ∈ csrWords run5 5 ∧ Issues (ranked id) 5 0 ∧ (BitVec.toNat 0x001#12, 1) ∈ csrWords (ranked id) 5 ∧ (run5.core 5).attend = none :=
  ⟨issues_run5, by decide +kernel, ⟨by decide +kernel, rfl, by decide +kernel, rfl, rfl⟩, by decide +kernel, rfl⟩

theorem witness_CsrWrite : Issues (sregs 0x1 0x2 0xFFFFFFFF) 5 0 ∧ ((sregs 0x1 0x2 0xFFFFFFFF).core 5).attend = none ∧ (((sregs 0x1 0x2 0xFFFFFFFF).core 5).sv 1).toNat % 2 ^ 32 % 4 ≠ 0 :=
  ⟨issues_sregs _ _ _, rfl, by decide⟩

/-- A core with an ATTEND in progress, and one with a DMA chain. -/
def attOp : AttendOp := { op := 3, desc := 0, words := [], start := 0, ready := true, status := 0, units := 2, heads := [], tag := false }
def busyC : State := coreS fun c => { c with attend := some attOp, dma := [⟨1, 0, false, 0, 0, 0, false, 0, 0⟩] }

theorem witness_ControlFlow : Issues run5 5 0 ∧ (run5.core 5).writesDue = false ∧ (run5.core 5).attend.isSome = false ∧
    Issues busyC 5 0 ∧ (busyC.core 5).writesDue = true ∧ (busyC.core 5).attend.isSome = true :=
  ⟨issues_run5, rfl, rfl, issues_coreS _ rfl rfl, rfl, rfl⟩

/-- A core that waits for its completion queue, which holds a record. -/
def waits : State := coreS fun c => { c with run := .waiting, wait := some .cq, cq := [7] }

theorem witness_WaitKinds : Issues (sregs 0 0 1) 5 0 ∧ (waits.core 5).run = .waiting ∧ (waits.core 5).wait = some .cq ∧ waits.condMet 5 .cq = true :=
  ⟨issues_sregs _ _ _, rfl, rfl, by decide⟩

/-- Core 5 with `n` sources open and a quarantine area of line 0. -/
def quar (n : Nat) (f : Core → Core := id) : State := acts [(F.CORE_QUAR_lines 5, 1)] (coreS fun c => f { c with prov := n, s := [(1, 0), (2, 64)] })

theorem witness_ProvisionalSources : Issues (quar 14) 5 0 ∧ ((quar 14).core 5).prov < 15 ∧ QuarantineOk (quar 14) 5 true 0 64 ∧ Issues (quar 1) 5 0 ∧ ((quar 1).core 5).prov = 1 ∧
    ((quar 14).core 5).prov ≠ 1 :=
  ⟨⟨by decide, rfl, by decide +kernel, rfl, rfl⟩, by decide, fun _ x h1 h2 => by
      have e : (quar 14).getA (F.CORE_QUAR_base 5) = 0 ∧ (quar 14).getA (F.CORE_QUAR_lines 5) = 1 := by decide +kernel
      have e1 : (quar 14).getA (F.CORE_QUAR_base (BitVec.toNat (5 : CoreId))) = 0 := e.1
      have e2 : (quar 14).getA (F.CORE_QUAR_lines (BitVec.toNat (5 : CoreId))) = 1 := e.2
      rw [e1, e2]; omega,
    ⟨by decide, rfl, by decide +kernel, rfl, rfl⟩, rfl, by decide⟩

theorem witness_ProvisionalDiscard : Issues (coreS fun c => { c with ckpt := some 0 }) 5 0 ∧ (coreS fun c => { c with ckpt := some 0 }).memWf ∧
    NoErrors (coreS fun c => { c with ckpt := some 0 }) ∧ Issues run5 5 0 ∧ (run5.core 5).ckpt = none :=
  ⟨issues_coreS _ rfl rfl, rfl, rfl, issues_run5, rfl⟩

theorem witness_VectorTwoAndThreeSources : IssuesUnit run5 5 0 := issuesU_run5
theorem witness_VectorOneSourceAndReductions : IssuesUnit run5 5 0 := issuesU_run5

theorem witness_VectorMoves : IssuesUnit (sregs 0xBFF00 0 63) 5 0 ∧ (sregs 0xBFF00 0 63).memWf ∧ NoErrors (sregs 0xBFF00 0 63) ∧
    (((sregs 0xBFF00 0 63).core 5).sv 1).toNat % 64 = 0 ∧ (((sregs 0xBFF00 0 63).core 5).sv 1).toNat + 256 ≤ 0xC0000 ∧
    QuarantineOk (sregs 0xBFF00 0 63) 5 false 0xBFF00 256 ∧ (sregs 0xBFF00 0 63).badIn (spBase 5 + 0xBFF00) 256 = [] :=
  ⟨⟨issues_sregs _ _ _, rfl⟩, rfl, rfl, by decide, by decide, nofun, by decide⟩

theorem witness_VectorConversions : IssuesUnit run5 5 0 ∧ (1 ≤ BitVec.toNat 1#5 ∧ BitVec.toNat 3#5 ≤ 3) ∧ (4 ≤ BitVec.toNat 4#5 ∧ BitVec.toNat 9#5 ≤ 9) ∧ BitVec.toNat 2#5 ≤ 2 :=
  ⟨issuesU_run5, by decide, by decide, by decide⟩

/-- A tile descriptor: base and pitch in 16-byte units, rows, columns, format. -/
def tile (base pitch rows cols fmt : Nat) : Tile :=
  BitVec.ofNat 128 (base + pitch * 2 ^ 16 + (rows - 1) * 2 ^ 32 + (cols - 1) * 2 ^ 39 + fmt * 2 ^ 51)

/-- A group of one row in a mode, its region at unit `r`. -/
def grp (mode r : Nat) : AGrp :=
  { mode := mode, m := 1, levels := 1, retries := 0, tagged := false, occ := 0, steps := 0, rbase := r, chan := none, fresh := true, dirty := false }

/-- t1 is a tile of one row and 16 columns, t2 of 16 rows and 32 columns, t3 an output of one row; group 0 in `mode`
where `o`. -/
def matS (mode : Nat) (o : Bool) : State :=
  coreS fun c => { c with t := [(1, tile 64 8 1 16 1), (2, tile 128 8 16 32 1), (3, tile 1024 8 1 32 0)], ag := if o then [(0, grp mode 2048)] else [] }

theorem issues_matS (m : Nat) (o : Bool) : IssuesUnit (matS m o) 5 0 := ⟨issues_coreS _ rfl rfl, rfl⟩

theorem witness_AccumulationOpenAndDrop : IssuesUnit (matS 0 false) 5 0 ∧ ((matS 0 false).core 5).agAt 0 = none ∧ BitVec.toNat 47#6 / 16 < 3 ∧ BitVec.toNat 32#6 % 16 = 0 ∧
    16 * (grp 2 1024).rbase + (grp 2 1024).bytes ≤ 0xC0000 ∧ IssuesUnit (matS 0 true) 5 0 ∧ ((matS 0 true).core 5).agAt 0 = some (grp 0 2048) ∧ Tab.wf ((matS 0 true).core 5).ag = true :=
  ⟨issues_matS _ _, rfl, by decide, by decide, by decide, issues_matS _ _, rfl, rfl⟩

theorem witness_MatrixMultiplyAccumulate : IssuesUnit (matS 0 true) 5 0 ∧ NoErrors (matS 0 true) ∧ TD.valid (((matS 0 true).core 5).tv 1) = true ∧ TD.valid (((matS 0 true).core 5).tv 2) = true ∧
    ((matS 0 true).core 5).agAt 0 = some (grp 0 2048) ∧ mmaOk (grp 0 2048) (((matS 0 true).core 5).tv 1) (((matS 0 true).core 5).tv 2) = true ∧ (grp 0 2048).mode ≠ 2 ∧ 1 ≤ (grp 0 2048).levels ∧ (grp 0 2048).occ < 2 ^ (grp 0 2048).levels := by
  refine ⟨issues_matS _ _, rfl, ?_, ?_, rfl, ?_, by decide, by decide, by decide⟩ <;> decide +kernel

theorem witness_AccumulationReadOut : IssuesUnit (matS 0 true) 5 0 ∧ NoErrors (matS 0 true) ∧ (matS 0 true).memWf ∧ TD.valid (((matS 0 true).core 5).tv 3) = true ∧ TD.base (((matS 0 true).core 5).tv 3) ≠ 0 ∧
    TD.rows (((matS 0 true).core 5).tv 3) = (grp 0 2048).m ∧ TD.cols (((matS 0 true).core 5).tv 3) = 32 ∧ TD.fmt (((matS 0 true).core 5).tv 3) = 0 ∧ BitVec.toNat 2#6 % 4 < 3 ∧
    QuarantineOk (matS 0 true) 5 false (TD.base (((matS 0 true).core 5).tv 3) - 16) 16 := by
  refine ⟨issues_matS _ _, rfl, rfl, ?_, ?_, ?_, ?_, ?_, by decide, nofun⟩ <;> decide +kernel

/-- A header of Table 6-13 in the scratchpad at 0x400: mode L, one row, region at unit 2048. -/
def saved : State := { matS 0 false with mem := { MemSt.blank with cells := Cells.putList (spBase 5 + 0x400) (leBytes (1 + 1 * 2 ^ 2 + 2048 * 2 ^ 64) 64) [] } }

theorem witness_AccumulationTransfer : IssuesUnit (matS 0 true) 5 0 ∧ IssuesUnit (matS 2 true) 5 0 ∧ NoErrors (matS 2 true) ∧ (matS 2 true).memWf ∧ TD.valid (((matS 0 true).core 5).tv 3) = true ∧ TD.fmt (((matS 0 true).core 5).tv 3) = 0 ∧
    ((matS 2 true).core 5).agAt 0 = some (grp 2 2048) ∧ (grp 2 2048).mode = 2 ∧ (grp 0 2048).dirty = false ∧ TD.base (((matS 0 true).core 5).tv 3) + 64 + (grp 0 2048).bytes ≤ 0xC0000 ∧
    IssuesUnit saved 5 0 ∧ saved.memWf ∧ (saved.core 5).agAt 0 = none ∧ TD.base ((saved.core 5).tv 1) = 0x400 ∧
    leNat ((List.range 64).map fun i => spByte saved 5 (0x400 + i)) = 1 + 1 * 2 ^ 2 + 2048 * 2 ^ 64 ∧ loadOk (1 + 1 * 2 ^ 2 + 2048 * 2 ^ 64) { grp 1 2048 with fresh := false } = true ∧
    (saved.core 5).agOverlap 0 { grp 1 2048 with fresh := false } = false := by
  refine ⟨issues_matS _ _, issues_matS _ _, rfl, rfl, ?_, ?_, rfl, rfl, rfl, ?_, ⟨⟨rfl, rfl, ?_, rfl, rfl⟩, rfl⟩, Eq.refl true, rfl,
    ?_, ?_, ?_, ?_⟩ <;> decide +kernel

/-! ### Witnesses: communication, KV cache, memory, registers -/

/-- Core 5 with s1, s2 and a stream 0 that owns slot 0. -/
def comS (a b : DWord) (f : Core → Core := id) : State :=
  { sregs a b 0 f with mesh := { MeshSt.blank with smapA := [((5 * 2) * 128, 16#6)] } }

theorem issues_comS (a b : DWord) : Issues (comS a b) 5 0 := ⟨rfl, rfl, by
    show BitVec.toNat 0#16 < 4 * State.getA (coreS id) (F.CORE_ENTRY_size 5); decide +kernel, rfl, rfl⟩

/-- A packet that has left whole, for an address. -/
def gone (dst : Nat) : OutPkt := { op := 3, at_ := 0, dst := dst, total := 1, left := 0, late := false, refused := false, units := 1, flits := [] }


/-- Two data flits that end the scratchpad, and the head of a packet of none. -/
theorem witness_StreamSend : Issues (comS 0xBFFC0 (2 ^ 49)) 5 0 ∧ NoErrors (comS 0xBFFC0 (2 ^ 49)) ∧ BitVec.toNat 64#12 < 128 ∧ BitVec.toNat 64#12 / 16 % 8 ∈ [0, 1, 4] ∧
    (((comS 0xBFFC0 (2 ^ 49)).core 5).sv 2).toNat / 2 ^ 48 % 256 = 2 ∧ (((comS 0xBFFC0 (2 ^ 49)).core 5).sv 1).toNat + 32 * 2 = 0xC0000 ∧ (((comS 0xBFFC0 (2 ^ 49)).core 5).sv 2).toNat % 32 = 0 ∧
    (comS 0xBFFC0 (2 ^ 49)).ownsSlot 5 0 = true ∧ ((comS 0xBFFC0 (2 ^ 49)).core 5).opFree = true ∧ Tab.get 0 ((comS 0xBFFC0 (2 ^ 49)).core 5).missed 0 = 0 ∧ 1 ≤ BitVec.toNat 16#12 / 16 ∧
    Tab.get [] ((comS 0 0 fun c => { c with outQ := [(0, [.pkt (gone (spBase 6))])] }).core 5).outQ (BitVec.toNat 0#4) = .pkt (gone (spBase 6)) :: [] ∧ (gone (spBase 6)).left = 0 ∧
    (∃ j, j < 2048 ∧ spBase j ≤ (gone (spBase 6)).dst ∧ (gone (spBase 6)).dst < spBase (j + 1) ∧ (comS 0 0).fenced j = false ∧ ((comS 0 0).core j).run = .inReset) ∧
    ¬ ∃ j, j < 2048 ∧ spBase j ≤ (gone 0).dst ∧ (gone 0).dst < spBase (j + 1) ∧ (comS 0 0).fenced j = false ∧ ((comS 0 0).core j).run = .inReset := by
  refine ⟨issues_comS _ _, rfl, by decide, by decide, by decide, by decide, by decide, ?_, by decide, rfl, by decide, rfl, rfl,
    ⟨6, by decide, by decide, by decide, ?_, by decide⟩, ?_⟩ <;> try decide +kernel
  rintro ⟨j, -, h, -⟩
  have h : 0x100000000000 + j * 0x100000 ≤ 0 := h
  omega

/-- Core 5 with one completion, and `n` sources open, of which sequence number 1 is one where `p`. -/
def hqS (w : BitVec 64) (n : Nat) (p : Bool) : State := coreS fun c => { c with hq := [⟨w, 1, 2, 0, 16⟩], prov := n, provSeq := if p then [1] else [] }

theorem witness_QueuePops : Issues run5 5 0 ∧ (run5.core 5).hq = [] ∧ Issues (hqS 0x100 14 false) 5 0 ∧ ((hqS 0x100 14 false).core 5).hq = [⟨0x100, 1, 2, 0, 16⟩] ∧ BitVec.toNat 0x100#64 / 2 ^ 8 % 2 = 1 ∧
    ((hqS 0x100 14 false).core 5).prov < 15 ∧ Issues (hqS 0x200 2 true) 5 0 ∧ BitVec.toNat 0x200#64 / 2 ^ 8 % 2 = 0 ∧ 1 ∉ ((hqS 0x100 14 false).core 5).provSeq ∧
    1 ∈ ((hqS 0x200 2 true).core 5).provSeq ∧ BitVec.toNat 0x200#64 % 16 = 0 ∧ BitVec.toNat 0x200#64 / 2 ^ 9 % 2 = 1 ∧ 1 < ((hqS 0x200 2 true).core 5).prov :=
  ⟨issues_run5, rfl, issues_coreS _ rfl rfl, rfl, by decide, by decide, issues_coreS _ rfl rfl, by decide, by decide, by decide, by decide, by decide, by decide⟩

def relS : State := coreS fun c => { c with relQ := [(0, [⟨3, 0, 1, 0, false, false, 1, []⟩])], relBuf := [(0, [⟨4, 0x80, 1, 1, false⟩]), (1, [⟨5, 0xBFF80, 1, 0, false⟩])] }

theorem witness_RelayLanes : Issues (sregs 0xBFF80 1 0) 5 0 ∧ NoErrors (sregs 0xBFF80 1 0) ∧ BitVec.toNat 3#12 < 4 ∧ (((sregs 0xBFF80 1 0).core 5).sv 1).toNat + 128 * 1 ≤ 0xC0000 ∧ (((sregs 0xBFF80 1 0).core 5).sv 1).toNat % 128 = 0 ∧
    ((sregs 0xBFF80 1 0).core 5).opFree = true ∧ (((sregs 0xBFF80 1 0).core 5).tagOfP 0 || ((sregs 0xBFF80 1 0).core 5).tagOfS 1 || ((sregs 0xBFF80 1 0).core 5).tagOfS 2 || rangeTag ((sregs 0xBFF80 1 0).core 5) 0xBFF80 128) = false ∧
    Tab.get 0 ((sregs 0xBFF80 1 0).core 5).missedR 3 = 0 ∧ (Tab.get [] ((sregs 0xBFF80 1 0).core 5).relBuf 3).length < 4 ∧ Tab.get [] (relS.core 5).relQ (BitVec.toNat 0#2) = [⟨3, 0, 1, 0, false, false, 1, []⟩] ∧
    Tab.get [] (relS.core 5).relBuf (BitVec.toNat 0#2) = [⟨4, 0x80, 1, 1, false⟩] ∧ (relS.core 5).run ≠ .inReset ∧ relS.memWf ∧
    Tab.get [] (relS.core 5).relBuf (BitVec.toNat 1#2) = [⟨5, 0xBFF80, 1, 0, false⟩] ∧ relS.badIn (spBase 5 + 0xBFF80 + 128 * 0) 128 = [] :=
  ⟨issues_sregs _ _ _, rfl, by decide, by decide, by decide, by decide, by decide, rfl, by decide, rfl, rfl, by decide, rfl, rfl, by decide⟩

/-- Core 5 of heat 1 has rank 0, and its s1 a Halyard or DMA descriptor of zeros. -/
def rankS : State := ranked fun c => { c with s := [(1, 0xBFFC0)] }

theorem issues_rankS : Issues rankS 5 0 := ⟨by decide +kernel, rfl, by decide +kernel, rfl, rfl⟩

theorem witness_HoistDmaAndDoorbell : Issues rankS 5 0 ∧ NoErrors rankS ∧ ((rankS.core 5).sv 1).toNat % 64 = 0 ∧ ((rankS.core 5).sv 1).toNat + 64 ≤ 0xC0000 ∧ rankS.rankOf 5 = some 0 ∧
    HD.prov ((List.range 4).map (fun j => BitVec.ofNat 32 (leNat ((List.range 4).map fun i => spByte rankS 5 (0xBFFC0 + 4 * j + i))))) = false ∧ (rankS.core 5).opFree = true ∧
    (rankS.core 5).tagL = [] ∧ (rankS.core 5).held = [] ∧ ((rankS.core 5).tagOfP 0 || (rankS.core 5).tagOfS 1 || rangeTag (rankS.core 5) 0xBFFC0 64) = false ∧ (rankS.core 5).dma.length < 8 ∧
    Tab.get [] (rankS.halH 1).teamDown ((rankS.halH 1).teams % 65536) = [] ∧ rankS.chainTagged 5 1 65536 0xBFFC0 = false := by
  refine ⟨issues_rankS, rfl, by decide, by decide, ?_, ?_, by decide, rfl, rfl, by decide, by decide, rfl, ?_⟩ <;> decide +kernel

theorem witness_ArrivalsAtACore : run5.fenced 5 = false ∧ (run5.core 5).run ≠ .inReset ∧ (run5.core 5).rq.length < 64 ∧ 64 ≤ ((coreS fun c => { c with rq := List.replicate 64 0 }).core 5).rq.length ∧ run5.memWf ∧
    Hd.op (Hd.make 4 1 (spBase 5 + 0xBFFE0) 7 0 0 0) ∈ [0, 4] ∧ Hd.addr (Hd.make 4 1 (spBase 5 + 0xBFFE0) 7 0 0 0) = spBase 5 + 0xBFFE0 ∧ 0xBFFE0 + 32 * 1 ≤ 0xC0000 ∧
    bitsOf (run5.inMap 5 0) 4 2 ≠ 3 ∧ run5.badIn (spBase 5 + 0xBFFE0) 32 = [] :=
  ⟨by decide, by decide, by decide, by decide, rfl, by decide, by decide, by decide, by decide, by decide⟩

theorem witness_TrapEntryAndCauses : (ranked id).coreOwner 5 = some 1 ∧ Issues run5 5 0 ∧ IssuesUnit run5 5 0 ∧ 8 ≤ BitVec.toNat 8#5 ∧ 64 ≤ BitVec.toNat 64#12 ∧ 16 ≤ BitVec.toNat 16#5 ∧
    Issues (sregs 0xC0000 0xBFFFF 0) 5 0 ∧ 0xC0000 < (((sregs 0xC0000 0xBFFFF 0).core 5).sv 1 + BitVec.ofInt 64 0).toNat + 1 ∧
    (((sregs 0xC0000 0xBFFFE 0).core 5).sv 2 + BitVec.ofInt 64 0).toNat + 2 ≤ 0xC0000 ∧ (((sregs 0xC0000 0xBFFFD 0).core 5).sv 2 + BitVec.ofInt 64 0).toNat % 2 ≠ 0 ∧
    ((coreS fun c => { c with tagS := 2 }).core 5).tagOfS 1 = true ∧ ¬ QuarantineOk run5 5 true 0 1 ∧ IssuesUnit (matS 0 false) 5 0 ∧ ((matS 0 false).core 5).agAt 0 = none ∧
    TD.valid (((matS 0 false).core 5).tv 1) = true ∧ TD.valid (((matS 0 false).core 5).tv 2) = true := by
  refine ⟨?_, issues_run5, issuesU_run5, by decide, by decide, by decide, issues_sregs _ _ _, by decide, by decide, by decide, rfl, fun h => by
      have e : run5.getA (F.CORE_QUAR_lines (BitVec.toNat (5 : CoreId))) = 0 := by decide +kernel
      have := h rfl 0 (by omega) (by omega); rw [e] at this; omega,
    issues_matS _ _, rfl, ?_, ?_⟩ <;> decide +kernel

theorem witness_ReservedCsrTraps : Issues run5 5 0 ∧ (run5.core 5).attend = none ∧ (0x00C ≤ BitVec.toNat 0x00C#12 ∧ BitVec.toNat 0x00F#12 ≤ 0x00F) ∧ 0x01D ≤ BitVec.toNat 0x01D#12 ∧ BitVec.toNat 0x00B#12 ∈ [0, 1, 2, 3, 4, 5, 6, 7, 9, 0x00A, 0x00B, 0x013, 0x018, 0x019, 0x01A, 0x01B, 0x01C] :=
  ⟨issues_run5, rfl, by decide, by decide, by decide⟩

def past : State := coreS fun c => { c with pc := 4 }

theorem witness_FetchBound : (encodeCore (.nop 5 0)).isSome = true ∧ past.fenced 5 = false ∧ (past.core 5).run = .running ∧
    4 * past.getA (F.CORE_ENTRY_size 5) ≤ (past.core 5).pc.toNat := ⟨by decide, by decide, rfl, by decide +kernel⟩

theorem witness_ZeroGuardRetiresWithoutEffect : encodeCore (.add 5 1 1 2 3) = some (5, 0b000_001_00000_00001_00010_00011_000000#32) ∧ run5.fenced 5 = false ∧ (run5.core 5).run = .running ∧
    (run5.core 5).pc.toNat < 4 * run5.getA (F.CORE_ENTRY_size 5) ∧ (run5.core 5).pv (BitVec.toNat 0b000_001_00000_00001_00010_00011_000000#32 / 2 ^ 26 % 8) = false ∧ (waits.core 5).run ≠ .running :=
  ⟨by decide, by decide, rfl, by decide +kernel, by decide, by decide⟩

/-- Rank 0 with a descriptor of kind `w` at scratchpad offset 0x400, its bitmaps ready. -/
def kvS (w : Nat) : State :=
  regs [(F.KV_H_STATUS_ready 1, 1)] { ranked (fun c => { c with t := [(1, tile 64 8 1 16 1)] }) with mem := { MemSt.blank with cells := Cells.putList (spBase 5 + 0x400) (leBytes w 8) [] } }

theorem witness_KeeperCommands : Issues (kvS 3) 5 0 ∧ NoErrors (kvS 3) ∧ (kvS 3).coreOwner 5 = some 1 ∧ TD.base (((kvS 3).core 5).tv 1) = 0x400 ∧ ((kvS 3).core 5).opFree = true ∧ ((kvS 3).core 5).attend = none ∧
    (let d := (List.range 16).map (fun j => BitVec.ofNat 32 (leNat ((List.range 4).map fun i => spByte (kvS 3) 5 (0x400 + 4 * j + i)))); AD.kind d = 3 ∧ (d.getD 0 0).toNat / 8 = 0 ∧ (kvS 3).sheetOk 1 (KD.addr d 1) 64 = true ∧ AD.kind [3, 1, 0] = 3 ∧ (kvS 3).sheetOk 1 (KD.addr [3, 1, 0] 1) 64 = false) ∧
    (kvS 3).on (F.KV_H_STATUS_ready 1) = true ∧ (kvS 3).rankOf 5 = some 0 := by
  refine ⟨⟨?_, rfl, ?_, rfl, rfl⟩, rfl, ?_, ?_, ?_, ?_, ?_, ?_, ?_⟩ <;> decide +kernel

def attS : State := ranked fun c => { c with attend := some attOp }

theorem witness_AttendIssueAndEnd : Issues (kvS 0) 5 0 ∧ NoErrors (kvS 0) ∧ TD.base (((kvS 0).core 5).tv 1) + 64 ≤ 0xC0000 ∧ (kvS 0).attendBad 1 5 (List.replicate 16 0) = true ∧
    attS.coreOwner 5 = some 1 ∧ (attS.core 5).run = .running ∧ (attS.core 5).attend = some attOp ∧ attOp.ready = true ∧ 5 ∈ (attS.ranks 1).map (·.2) := by
  refine ⟨⟨?_, rfl, ?_, rfl, rfl⟩, rfl, ?_, ?_, ?_, rfl, rfl, rfl, ?_⟩ <;> decide +kernel

theorem witness_CoreResetCommand : (ranked id).fenced 5 = false ∧ ((ranked id).core 5).run ≠ .inReset ∧ (ranked id).coreOwner 5 = some 1 ∧ run5.coreOwner 5 = none := by
  refine ⟨?_, ?_, ?_, ?_⟩ <;> decide +kernel

/-- Core 5 of heat 1 has one chain, whose descriptor at offset 0x400 fills 128 units that end the scratchpad. -/
def dmaS (x : DmaChain) : State :=
  { ranked (fun c => { c with dma := [x] }) with mem := { MemSt.blank with cells := Cells.putList (spBase 5 + 0x400) ([(5, 0), (0, 0), (0, 0), ((spBase 5 + 0xBF000) % 2 ^ 32, 0), ((spBase 5 + 0xBF000) / 2 ^ 32, 0), (128, 0)].flatMap fun (p : Nat × Nat) => leBytes p.1 4) [] } }

def chain (a : Nat) (ended : Bool) : DmaChain := ⟨1, a, false, 0, 0, 0, ended, 0, 0⟩

theorem witness_DmaChains : ((dmaS (chain 0x420 false)).core 5).dma = [chain 0x420 false] ∧ (chain 0x420 false).at_ % 64 ≠ 0 ∧ (dmaS (chain 0x400 false)).fenced 5 = false ∧
    ((dmaS (chain 0x400 false)).core 5).run = .running ∧ NoErrors (dmaS (chain 0x400 false)) ∧ (dmaS (chain 0x400 false)).memWf ∧ (dmaS (chain 0x400 false)).coreOwner 5 = some 1 ∧ ((dmaS (chain 0x400 false)).core 5).ag = [] ∧
    (let d := (List.range 16).map (fun j => BitVec.ofNat 32 (leNat ((List.range 4).map fun i => spByte (dmaS (chain 0x400 false)) 5 (0x400 + 4 * j + i)))); DD.op d = 5 ∧ DD.usrc d = false ∧ DD.udst d = false ∧ DD.chain d = false ∧ DD.units d = 128 ∧ DD.dst d = spBase 5 + 0xBF000 ∧ 0xBF000 + 32 * 128 ≤ 0xC0000) ∧
    ((dmaS (chain 0x400 true)).core 5).dma = [chain 0x400 true] ∧ (chain 0x400 true).ended = true :=
  ⟨rfl, by decide, by decide +kernel, rfl, rfl, Eq.refl true, by decide +kernel, rfl, by decide +kernel, rfl, rfl⟩


/-! ### Witnesses: memory, registers, laps -/

/-- Attachment 0 holds one stage line of unit 7, requested at 0 ms; it is `ms` ms now; the table maps page 0. -/
def farS (ms : Nat) : State :=
  { regs [(F.DMA_FW0_SIZE_pages, 1), (F.DMA_FW0_BASE_LO_base_lo, 8)] State.reset with
    mem := { MemSt.blank with stage := [⟨0, 7, 5, 0, 0, 4096, false, 0, false, []⟩], cells := Cells.putList 64 (leBytes (3 * 2 ^ 21 + 1) 8) [] }, boot := { BootSt.blank with ms := ms } }

theorem witness_FarWindow : (farS 0).stageLine 0 511 = none ∧ NoErrors (farS 0) ∧ ((farS 0).mem.stage.filter fun l => l.att == 0).length < 4096 ∧ (farS 0).fwEntry 0 511 = some (3 * 2 ^ 21 + 1) ∧
    (farS 0).stageLine 0 512 = none ∧ (farS 0).fwEntry 0 512 = none ∧ (farS 49).stageLine 0 7 = some ⟨0, 7, 5, 0, 0, 4096, false, 0, false, []⟩ ∧
    (farS 49).boot.ms < 0 + (farS 49).get F.DMA_CFG_stage_to ∧ 0 + (farS 50).get F.DMA_CFG_stage_to ≤ (farS 50).boot.ms := by
  refine ⟨by decide, rfl, by decide, ?_, by decide, ?_, by decide, ?_, ?_⟩ <;> decide +kernel

/-- Slice 255 answers core 5 and owes one reply, due at 384 fc; `n` fc have passed. -/
def slS (n : Nat) : State :=
  { regs [(F.DMA_CFG_patrol_en, 1)] State.reset with
    pos := BitVec.ofNat 18 n, boot := { BootSt.blank with step := 13 }, mesh := { MeshSt.blank with rmapA := [(255 * 512, 2053#12)] }, mem := { MemSt.blank with replies := [(255, [⟨5, 0, 1, 255 * 0x48000000, 1, 384, 0, false, true, List.replicate 32 0⟩])] } }

/-- The head of a request for the slice's last 32 bytes. -/
def hdS (op : Nat) : VFlit := ⟨0, Hd.make op 1 (256 * 0x48000000 - 32) 5 0 1 0, false⟩

theorem witness_MemoryTargets : VFlit.void (hdS 2) = 0 ∧ (slS 0).answers 255 (Hd.src (hdS 2).data) = true ∧ (slS 0).targetHolds 255 (Hd.addr (hdS 2).data) (32 * 1) = true ∧ NoErrors (slS 0) ∧ (slS 0).memWf ∧
    Hd.op (hdS 0).data = 0 ∧ (slS 0).answers 255 (Hd.src (hdS 0).data) = true ∧ (slS 0).targetHolds 255 (Hd.addr (hdS 0).data) (32 * 1) = true ∧ 2 ≤ Hd.op (hdS 2).data ∧
    (∃ r, Tab.get [] (slS 383).mem.replies 255 = [r] ∧ (slS 383).now < r.due ∧ r.due ≤ (slS 384).now) ∧ (slS 0).lapN % 1024 = 0 ∧ ({ State.reset with lap := 1 } : State).lapN % 1024 ≠ 0 ∧
    (slS 0).on F.DMA_CFG_patrol_en = true ∧ 12 < (slS 0).boot.step ∧ bitsOf ((slS 0).rd (R.STA_OOSS 7)) 31 1 = 0 ∧ Tab.get 0 (slS 0).mem.patrol 255 + 1 < 0x48000000 / 32 :=
  ⟨rfl, by decide, by decide, rfl, rfl, by decide, by decide, by decide, by decide, ⟨_, rfl, by decide, by decide⟩, by decide, by decide, by decide +kernel, by decide, by decide +kernel, by decide⟩

/-- Heat 1 owns the left half, attachment 0 in it. -/
def halfS : State := regs [(F.HEAT_H_STATE_state 1, 3), (⟨R.HEAT_H_AGEOM 1, 8, 4⟩, 4), (⟨R.HEAT_H_AGEOM 1, 12, 4⟩, 8)] State.reset

theorem witness_HostMemoryWindow : halfS.barWay 0 (0x48000000 - 1) 1 = .go (0x48000000 - 1) ∧ NoErrors halfS ∧ halfS.memWf ∧ 0x48000000 - 1 + 1 ≤ 256 * 0x48000000 ∧
    halfS.barWay 0 (2 ^ 36 - 1) 2 = .drop ∧ halfS.barWay 0 (8 * 0x48000000) 1 = .foreign 1 ∧ (State.bar2Log { halfS with mem := { MemSt.blank with bar2 := [(0, 32), (1, 32)] } } 0 ≤ 32) ∧
    32 ≤ State.bar2Log { halfS with mem := { MemSt.blank with bar2 := [(0, 32), (1, 32)] } } 1 ∧ State.bar2Log { halfS with mem := { MemSt.blank with bar2 := [(0, 32), (1, 39)] } } 1 ≤ 39 := by
  refine ⟨?_, rfl, rfl, by decide, ?_, ?_, by decide, by decide, by decide⟩ <;> decide +kernel

/-- What `regNamed` answers, without the register's fields. -/
def named (off : Nat) : Option (String × Access × List Nat × Bool) := (regNamed off).map fun x => (x.1.name, x.1.acc, x.2.1, x.2.2)

theorem witness_RegisterWriteKinds : State.reset.reaches (.bar0 0) 0x10 = false ∧ regNamed 0x3FFFFFC = none ∧
    (named (activeBase + (R.CORE_ENTRY 5).off)).isSome = true ∧ (named R.LAP_NOW_LO.off) = some ("LAP_NOW_LO", .ro, [], false) ∧ (regNamed (R.NUM_CFG 5).off).map (fun x => (x.2, x.1.acc, (heat1 3 State.reset).numBusy x.1 [5], State.reset.numBusy x.1 [5])) = some (([5], false), .rw, true, false) ∧ (named R.LAP_EVT.off) = some ("LAP_EVT", .w1c, [], false) ∧ (named R.DMA_FW0_SIZE.off) = some ("DMA_FW0_SIZE", .rwl, [], false) ∧ State.reset.locked = false ∧
    (regs [(F.MAR_STATUS_lock, 1)] State.reset).locked = true ∧ (regNamed (R.CORE_ENTRY 5).off).map (fun x => (x.2, x.1.acc, (heat1 3 State.reset).wsBusy x.1 [5], State.reset.wsBusy x.1 [5])) = some (([5], false), .ws, true, false) := by
  refine ⟨by decide, ?_, ?_, ?_, ?_, ?_, ?_, ?_,
    ?_, ?_⟩ <;> decide +kernel

theorem witness_RegisterReads : State.reset.reaches .console 0x10 = true ∧ State.reset.reaches (.bar0 0) 0x10 = false ∧ Tab.find State.reset.caps (capKey .console 0x10) = none ∧
    (Tab.find ({ State.reset with caps := [(capKey .mgt 0x14, 3#32)] } : State).caps (capKey .mgt 0x14) = some 3#32) ∧ (named 0x14) = some ("LAP_NOW_HI", .ro, [], false) ∧ ∀ x ∈ loRegs, x.1 ≠ 0x14 :=
  ⟨by decide, by decide, by decide, by decide, by decide +kernel, by decide⟩

/-- Service mode, heat 1 running without release or a team, an injection of kind `k` for lap 0, stride `n`. -/
def injS (k n : Nat) : State :=
  regs [(F.MAR_SVC_on, 1), (F.MAR_INJ_CTL_kind, k), (F.MAR_INJ_CTL_arm, if n = 0 then 0 else 1), (F.MAR_INJ_SITE_heat, 1), (F.MAR_INJ_POS_stride, n)] (heat1 3 State.reset)

theorem witness_RegisterWritesWithEffects : State.reset.coreOwner 2047 = none ∧ State.reset.mar.lockUsed = false ∧ ({ State.reset with mar := { State.reset.mar with lockUsed := true } } : State).mar.lockUsed = true ∧
    State.reset.locked = false ∧ (regs [(F.MAR_STATUS_lock, 1)] State.reset).locked = true ∧ State.reset.on F.MAR_SVC_on = false ∧ (injS 7 0).on F.MAR_SVC_on = true ∧ (injS 7 0).on F.MAR_INJ_CTL_arm = false ∧
    (injS 7 0).injOk 7 0 1 = true ∧ (injS 8 1).on F.MAR_INJ_CTL_arm = true ∧ (injS 8 1).now < 128 * 1 ∧ (injS 8 1).get F.MAR_INJ_CTL_kind ∈ [7, 8] ∧ (injS 8 1).injOk 8 0 1 = true ∧
    128 * (injS 8 1).get F.MAR_INJ_POS_stride ≤ ({ injS 8 1 with pos := 128 } : State).now ∧ State.reset.boot.holdAt = none ∧ ({ State.reset with boot := { BootSt.blank with holdAt := some 9 } } : State).boot.holdAt ≠ none ∧
    (regs [(F.STA_CTL_hold_req, 1)] State.reset).on F.STA_CTL_hold_req = true ∧ State.reset.get F.STA_BOOT_state ≠ 3 ∧ State.reset.portEnabled 11 = false := by
  refine ⟨?_, rfl, rfl, ?_, ?_, ?_, ?_, ?_, ?_, ?_, ?_, ?_,
    ?_, ?_, rfl, by decide, ?_, ?_, ?_⟩ <;> decide +kernel

/-- Port 11 is up, and the laps' state changed by `f`. -/
def lapS (st : Nat) (f : LapSt → LapSt) : State :=
  { regs [(F.BTN_P_STATUS_state 11, 5), (F.LAP_STATUS_state, st), (F.LAP_STATUS_parent, 15)] State.reset with laps := f State.reset.laps, lap := 3, pos := 100 }

/-- A sealed block: a bid, or a marker of lap 7. -/
def bid : Flit := CB.make 1 9 0 3 0 false false none
def mark : Flit := CB.make 0 8 0 3 0 false false none

def lockAt (bad time : Nat) : LapLock := ⟨7, time, bad, 0, 3, 0, false, false, 0, false, 0, 0⟩

/-- Port 11 is locked, its last marker at 1/16 fc `time` with `bad` bad ones since. -/
def lockS (st bad time : Nat) : State := lapS st fun l => { l with s17 := true, ports := [(11, ⟨[], some (lockAt bad time), none, [], none⟩)] }

theorem witness_LapElection : (lapS 1 id).laps.electing = none ∧ (lapS 1 fun l => { l with electing := some 1 }).laps.electing = some 1 ∧ (lapS 1 fun l => { l with electing := some 1 }).portUp 11 = true ∧
    State.reset.portUp 11 = false ∧ CB.ok bid = true ∧ CB.kind bid = 1 ∧ CB.ok 0 = false ∧ CB.kind mark ≠ 1 ∧ (lapS 1 fun l => { l with electing := some 0, best := some (15, 0) }).laps.best = some (15, (lapS 1 id).selfAddr) ∧
    (lapS 1 id).selfAddr < 1024 ∧ (lapS 1 id).upPorts ≠ [] ∧ 1023 ≠ (lapS 1 id).selfAddr ∧ (lapS 1 id).get F.LAP_CFG_role ≠ 2 ∧ (lapS 1 fun l => { l with electing := some 0 }).laps.best = none ∧ State.reset.upPorts = [] := by
  refine ⟨rfl, rfl, ?_, ?_, ?_, ?_, ?_, ?_, ?_, ?_, ?_, ?_, ?_, rfl, ?_⟩ <;> decide +kernel

theorem witness_LapMarkersAndHoldover : State.reset.portUp 11 = false ∧ (lapS 1 id).portUp 11 = true ∧ (lapS 1 id).laps.s17 = false ∧ (lockS 1 1 (2 * 2 ^ 22)).laps.s17 = true ∧
    ((lockS 1 1 (2 * 2 ^ 22)).lapPort 11).lock = some (lockAt 1 (2 * 2 ^ 22)) ∧ CB.ok mark = true ∧ CB.kind mark = 0 ∧ CB.lap mark = (lockAt 1 (2 * 2 ^ 22)).lap + 1 ∧
    (3 * 262144 + 2) * 16 + 0 - CB.lag mark ≤ (lockAt 1 (2 * 2 ^ 22)).time + 4194304 + 32 ∧ (lockAt 1 (2 * 2 ^ 22)).time + 4194304 ≤ (3 * 262144 + 2) * 16 + 0 - CB.lag mark + 32 ∧
    (lockS 1 1 (2 * 2 ^ 22)).lapState ≠ 3 ∧ CB.ok 0 = false ∧ ((lapS 1 fun l => { l with s17 := true }).lapPort 11).lock = none ∧ ((lapS 1 fun l => { l with s17 := true }).lapPort 11).cands = [] ∧
    (((lockS 1 1 (2 ^ 22)).now * 16 : Nat) : Int) ≥ ownLap (((lockAt 1 (2 ^ 22)).time : Int) + 4194304 - (lockS 1 1 (2 ^ 22)).delayOf 11) * 4194304 + (lockS 1 1 (2 ^ 22)).delayOf 11 + 4096 ∧
    (((lockS 1 2 (2 * 2 ^ 22)).now * 16 : Nat) : Int) < ownLap (((lockAt 2 (2 * 2 ^ 22)).time : Int) + 4194304 - (lockS 1 2 (2 * 2 ^ 22)).delayOf 11) * 4194304 + (lockS 1 2 (2 * 2 ^ 22)).delayOf 11 + 4096 ∧
    (lapS 4 fun l => { l with holdL0 := some 0 }).lapState = 4 ∧ (lapS 4 fun l => { l with holdL0 := some 0 }).lapN < 0 + 65 ∧
    0 + 65 ≤ ({ lapS 4 fun l => { l with holdL0 := some 0 } with lap := 65 } : State).lapN ∧ (lapS 4 fun l => { l with holdL0 := some 0 }).laps.expired = false := by
  refine ⟨?_, ?_, rfl, rfl, rfl, ?_, ?_, ?_, ?_, ?_, ?_, ?_, rfl, rfl, ?_,
    ?_, ?_, by decide, by decide, rfl⟩ <;> decide +kernel

/-- The header of a link-management frame of `n` payload flits, number 0, with the payload's check. -/
def exHdr (kind : Nat) (fs : List Flit) : Flit :=
  let x := BH.marker + payCrc fs * 2 ^ 160 + 1 * 2 ^ 192 + kind * 2 ^ 194 + (fs.length - 1) * 2 ^ 196
  BitVec.ofNat 256 (x + BH.crc x * 2 ^ 248)

/-- A frame as it comes from the link. -/
def exFrame (kind : Nat) (fs : List Flit) : XFrame := ⟨exHdr kind fs, scramble (scramInit 1 0 0) fs, true⟩

/-- An adopt request for lap 5. -/
def adopt5 : List Flit := [3, BitVec.ofNat 256 (2 + 5 * 2 ^ 14)]

/-- A pacer whose port 11 is locked on. -/
def pacerS : State := regs [(F.BTN_P_STATUS_cw_lock 11, 1), (F.BTN_P_STATUS_fr_lock 11, 1)] (lapS 2 id)

theorem witness_LapBoundaryAndDelay : State.reset.fabricOn = false ∧ ({ State.reset with boot := { BootSt.blank with main := true, step := 8 } } : State).fabricOn = true ∧ State.reset.laps.step = false ∧
    State.reset.laps.raise_ = none ∧ 11 ∉ State.reset.probePorts ∧ 11 ∈ (lapS 1 id).probePorts ∧ CB.ok (CB.make 2 0 0 0 0 false false none) = true ∧ CB.kind (CB.make 2 0 0 0 0 false false none) = 2 ∧
    CB.ok (CB.make 3 0 0 0 0 false false none) = true ∧ CB.kind (CB.make 3 0 0 0 0 false false none) = 3 ∧ (regs [(F.LAP_CFG_ref_en, 0)] State.reset).on F.LAP_CFG_ref_en = false ∧ State.reset.on F.LAP_STATUS_ref_ok = false ∧
    (regs [(F.LAP_CFG_ref_en, 1)] State.reset).on F.LAP_CFG_ref_en = true ∧ (regs [(F.LAP_CFG_ref_en, 1)] State.reset).on F.LAP_STATUS_ref_ok = false ∧ (regs [(F.LAP_STATUS_ref_ok, 1)] State.reset).on F.LAP_STATUS_ref_ok = true ∧
    State.reset.portSt 11 < 3 ∧ (3 ≤ pacerS.portSt 11 ∧ pacerS.portSt 11 < 6) ∧ BH.kind (exFrame 2 adopt5).hdr = 2 ∧ (pacerS.frameIn 11 true (exFrame 2 adopt5)).1 = some adopt5 ∧ linkMessage adopt5 = 3 ∧
    (pacerS.frameIn 11 true (exFrame 2 adopt5)).2.lapState = 2 ∧ (pacerS.frameIn 11 true (exFrame 2 adopt5)).2.on F.LAP_HO_HI_valid = false ∧
    (pacerS.frameIn 11 true (exFrame 2 adopt5)).2.lapN + 2 ≤ bitsOf (adopt5.getD 1 0).toNat 14 48 ∧
    (lapS 1 fun l => { l with adopt := some ⟨line0, 3, 786532⟩ }).laps.adopt = some ⟨line0, 3, 786532⟩ ∧ 786532 ≤ (lapS 1 id).now ∧ ¬ 786533 ≤ (lapS 1 id).now := by
  refine ⟨by decide, by decide, rfl, rfl, ?_, ?_, ?_, ?_, ?_, ?_, ?_, ?_, ?_, ?_,
    ?_, ?_, ?_, ?_, ?_, ?_, ?_, ?_, ?_, rfl, by decide, by decide⟩ <;> decide +kernel

/-! ### Witnesses: the Halyard, routers, heats -/

/-- Heat 1 has ranks 0 and 1, rank 0 on core 5; its Halyard state and core 5 as given, at lap `lap`. -/
def halS (lap : Nat) (x : HalHeat) (f : Core → Core := id) : State :=
  { acts [(F.HAL_H_RANKS_count_m1 1, 1)] (ranked f) with hal := [(1, x)], lap := BitVec.ofNat 48 lap }

/-- A SUM of one element into the last line of the scratchpad, provisional where `p`. -/
def sumW (p : Nat) : List Word := [BitVec.ofNat 32 (p * 2 ^ 20), 0, 0xBFFF0000, 0]

def issue : HalIssue := ⟨0, 3, sumW 0, [0, 0, 128, 63], true, false⟩
def issuer (c : Core) : Core := { c with halOut := [issue] }

/-- An operation with the record of rank 0. -/
def opS (p : Nat) (team : Option Nat) (low fin : Option HalLow) : HalOp := ⟨0, sumW p, team, 0, [(0, ⟨sumW p, [0, 0, 128, 63], true⟩)], false, none, low, fin⟩

def opH (o : HalOp) : HalHeat := { HalHeat.blank with ops := [o] }

/-- Heat 1 belongs to a team and has a child on port 0 and its parent on port 11, which is up and carries a frame. -/
def teamS (s : State) : State :=
  acts [(F.HAL_H_CFG_team 1, 1), (F.HAL_H_TREE_children 1, 1), (F.HAL_H_TREE_parent_port 1, 11)]
    (regs [(F.BTN_P_STATUS_state 11, 5), (F.BTN_P_STATUS_cw_lock 11, 1), (F.BTN_P_STATUS_fr_lock 11, 1), (F.BTN_P_STATUS_peer_nr 11, 0), (F.BTN_P_STATUS_local_nr 11, 0)] s)

theorem witness_HalyardRecordsAndTimeouts : State.reset.coreOwner 5 = none ∧ (halS 0 HalHeat.blank issuer).coreOwner 5 = some 1 ∧ (halS 0 HalHeat.blank issuer).rankOf 5 = some 0 ∧
    ((halS 0 HalHeat.blank issuer).core 5).halOut = [] ++ issue :: [] ∧ issue.sent = false ∧ issue.seq < ((halS 0 { HalHeat.blank with done := 1 } issuer).halH 1).done ∧
    ((halS 0 HalHeat.blank issuer).halH 1).done ≤ issue.seq ∧ ((halS 0 HalHeat.blank issuer).halH 1).ops = [] ∧ HD.team issue.words = false ∧ ((halS 0 HalHeat.blank issuer).halH 1).rankReset = false ∧ 1 < (halS 0 HalHeat.blank issuer).halN 1 ∧
    ((halS 0 HalHeat.blank).halH 1).ops.any ((halS 0 HalHeat.blank).provDue 1 0) = false ∧ (halS 0 (opH (opS 1 none none none))).provDue 1 0 (opS 1 none none none) = true ∧ (opS 1 none none none).team = none ∧
    (opS 0 none none none).recs.length < (halS 8 (opH (opS 0 none none none))).halN 1 ∧ (opS 0 none none none).first + 8 * 262144 ≤ (halS 8 HalHeat.blank).now ∧ ¬ (opS 0 none none none).first + 8 * 262144 ≤ (halS 7 HalHeat.blank).now ∧
    (opS 0 (some 0) none none).team = some 0 ∧ (opS 0 (some 0) none none).final = none ∧ (teamS (halS 8 (opH (opS 0 (some 0) none none)))).teamReady 1 (opS 0 (some 0) none none) 0 = false := by
  refine ⟨?_, ?_, ?_, rfl, rfl, by decide, by decide, rfl, by decide, rfl, ?_, by decide, ?_, rfl, ?_, by decide, by decide, rfl, rfl, ?_⟩ <;> decide +kernel

/-- A lowering of one element, at once or at a position. -/
def low (p : Option Nat) : HalLow := ⟨0, false, false, false, [0, 0, 128, 63], p⟩

/-- A Halyard frame of team operation 0xFFFE for heat 1, from its child. -/
def upFrame : List Flit := [BitVec.ofNat 256 (1 * 2 ^ 10 + 0xFFFE * 2 ^ 15)]

theorem witness_HalyardLoweringsAndFrames : (opS 0 none (some (low none)) none).provLow = some (low none) ∧ NoErrors (halS 0 (opH (opS 0 none (some (low none)) none))) ∧ (opS 0 none none (some (low none))).final = some (low none) ∧
    (low none).at_ = none ∧ (low none).status < 16 ∧ (halS 0 (opH (opS 0 none none (some (low none))))).memWf ∧ (5, 0) ∈ (halS 0 HalHeat.blank issuer).halPorts 1 ∧ ((halS 0 HalHeat.blank issuer).core 5).run ≠ .inReset ∧
    ((halS 0 HalHeat.blank issuer).core 5).halOut.find? (fun i => i.seq == 0) = some issue ∧ HD.receives issue.words ((halS 0 HalHeat.blank issuer).scopeRank 1 issue.words 0) = true ∧ HD.dst issue.words * 16 + (low none).data.length ≤ 0xC0000 ∧
    (opS 0 none none (some (low (some 2097152)))).final = some (low (some 2097152)) ∧ (low (some 2097152)).at_ = some 2097152 ∧ 2097152 ≤ (halS 8 HalHeat.blank).now ∧ (halS 7 HalHeat.blank).now < 2097152 ∧
    State.reset.halTeam 1 = false ∧ (teamS State.reset).halTeam 1 = true ∧ (teamS State.reset).halParent 1 = 11 ∧ (teamS State.reset).get (F.BTN_P_STATUS_peer_nr 11) = 0 ∧ (teamS State.reset).get (F.BTN_P_STATUS_local_nr 11) = 0 ∧
    State.reset.portSt 11 < 3 ∧ (3 ≤ (teamS State.reset).portSt 11 ∧ (teamS State.reset).portSt 11 < 6) ∧ BH.kind (exFrame 0 upFrame).hdr = 0 ∧ ((teamS State.reset).frameIn 11 true ⟨0, [], true⟩).1 = none ∧ BH.kind 0 = 0 ∧
    ((teamS State.reset).frameIn 11 true (exFrame 0 upFrame)).1 = some (upFrame.headD 0 :: []) ∧ ((teamS State.reset).frameIn 11 true (exFrame 0 upFrame)).2.on (F.BTN_P_STATUS_local_nr 11) = false ∧
    ((regs [(F.BTN_P_STATUS_local_nr 11, 1)] (teamS State.reset)).frameIn 11 true (exFrame 0 upFrame)).2.on (F.BTN_P_STATUS_local_nr 11) = true ∧ (upFrame.headD 0).toNat / 2 ^ 10 % 32 = 1 ∧ (upFrame.headD 0).toNat / 2 ^ 15 % 2 ^ 16 ≠ 0xFFFF ∧
    (upFrame.headD 0).toNat / 2 ^ 32 % 16 < 10 ∧ (upFrame.headD 0).toNat / 2 ^ 31 % 2 = 0 ∧ (((teamS State.reset).frameIn 11 true (exFrame 0 upFrame)).2.halH 1).ops = [] := by
  refine ⟨rfl, rfl, rfl, rfl, by decide, rfl, ?_, by decide, by decide, ?_, by decide, rfl, rfl, by decide, by decide, ?_, ?_, ?_, ?_, ?_,
    ?_, ?_, ?_, ?_, by decide, ?_, ?_, ?_, by decide, by decide, by decide, by decide, ?_⟩ <;> decide +kernel

/-- Step S-09 has come. -/
def meshOn (s : State) : State := { s with boot := { s.boot with step := 9 } }

/-- Core 5 owns slot 0 of its output 1, which every other entry leaves closed. -/
def slotS : State := meshOn { (comS 0 0) with regs := (heat1 3 State.reset).regs, mesh := { MeshSt.blank with smapA := [((5 * 2) * 128, 16#6)], slotA := [(slotKey 5 1 0, 4)] }, act := (acts [(F.HAL_RANK_valid 5, 1)] (heat1 3 State.reset)).act }

/-- Four control flits wait at output 1 of router 6. -/
def ctlS : State := { State.reset with mesh := { MeshSt.blank with ctrl := [(6, List.replicate 4 ⟨1, Ctl.make 0 7 0 0 0 0 0 0, 0⟩)] } }

theorem witness_RoutersAndControlFlits : State.reset.boot.step < 9 ∧ Tab.get 0 (meshOn State.reset).mesh.acted 5 ≠ (meshOn State.reset).now + 1 ∧ 9 ≤ (meshOn State.reset).boot.step ∧ Tab.get [] (meshOn State.reset).mesh.ctrl 5 = [] ∧
    (∀ q ∈ relayOuts 5, (meshOn State.reset).slotEntry 5 q 0 = 0) ∧ (∀ q ∈ meshOuts 5, 14 ≤ (meshOn State.reset).slotEntry 5 q 0) ∧ (∀ q ∈ relayOuts 5, slotS.slotEntry 5 q slotS.fcIn = 0) ∧ neighbour 5 1 = some 6 ∧
    slotS.slotEntry 5 1 slotS.fcIn = 4 ∧ (∀ q ∈ meshOuts 5, q ≠ 1 → 14 ≤ slotS.slotEntry 5 q slotS.fcIn) ∧ slotS.coreOwner 5 = some 1 ∧ slotS.coreOwner 6 = some 1 ∧ (slotS.coreSlot 5 slotS.fcIn).1.isSome = true ∧
    Ctl.kind (Ctl.make 0 6 2 0 0 0 0 0) ≠ 4 ∧ ctlOut 6 (Ctl.make 0 6 2 0 0 0 0 0) = some 5 ∧ 5 ∉ meshOuts 6 ∧ ctlOut 6 (Ctl.make 0 7 0 0 0 0 0 0) = some 1 ∧ 1 ∈ meshOuts 6 ∧ State.reset.ctlWaits 6 1 < 4 ∧ 4 ≤ ctlS.ctlWaits 6 1 ∧
    Ctl.kind (Ctl.make 1 6 0 0 0 0 0 0) = 1 ∧ Ctl.dst (Ctl.make 1 6 0 0 0 0 0 0) = 6 ∧ Ctl.dport (Ctl.make 1 6 0 0 0 0 0 0) = 0 ∧ 6 ≤ Ctl.dport (Ctl.make 1 6 6 0 0 0 0 0) ∧ Ctl.kind (Ctl.make 4 0 0 0 0 0 0 2) = 4 ∧
    Ctl.heats (Ctl.make 4 0 0 0 0 0 0 2) / 2 ^ 1 % 2 = 1 ∧ (Tab.find slotS.cores 5).isSome = true ∧ ({ State.reset with pos := 127 } : State).fcIn ≠ 0 ∧ State.reset.fcIn = 0 ∧ State.reset.pwr.due = false ∧
    Tab.wf State.reset.mesh.clkReq = true ∧ ({ State.reset with pos := 2048 } : State).fcIn = 0 ∧ ({ State.reset with pos := 2048 } : State).stride = 16 := by
  refine ⟨by decide, by decide, by decide, rfl, ?_, ?_, ?_, by decide, ?_, ?_, ?_, ?_, ?_, by decide, by decide, ?_,
    by decide, ?_, by decide, ?_, by decide, by decide, by decide, by decide, by decide, by decide, rfl, by decide, by decide, rfl, rfl, by decide, by decide⟩ <;> decide +kernel

/-- Heat 1 is in state `st` with record `r`. -/
def heatS (st : Nat) (r : HeatRec) : State := { ranked id with regs := (heat1 st State.reset).regs, heats := [(1, r)] }

def snap : Snapshot := ⟨line0, 0x8800, [((R.CORE_ENTRY 5).off, 1)], [], [], [], none⟩

/-- An image of one section: one word of code for core 5 of heat 1. -/
def img : List Byte :=
  leBytes 0x4E525449 4 ++ leBytes 1 2 ++ leBytes 0 2 ++ leBytes 388 8 ++ leBytes 1 4 ++ leBytes 256 4 ++ leBytes 0 40 ++ leBytes 7 8 ++ leBytes 4 97 ++ leBytes 0 87 ++
    leBytes 1 2 ++ leBytes 1 2 ++ leBytes 5 4 ++ leBytes 288 8 ++ leBytes 4 8 ++ leBytes 0 8 ++ leBytes 0x60000000 4 ++ leBytes 0 96

def imgS (n : Nat) : State := { State.reset with con := { State.reset.con with imageLoad := some (line0, 0, n) }, mem := { MemSt.blank with cells := Cells.putList 0 img [] } }

/-- The image is accepted if its key and signature are: the digests of the keys are open (log entry 5). -/
theorem witness_HeatCycleEvents_image (h : Img.signErr State.reset.fuse.revoked img = none) :
    ({ imgS 388 with con := { (imgS 388).con with imageLoad := none } } : State).imageCheck (({ imgS 388 with con := { (imgS 388).con with imageLoad := none } } : State).readMem 0 388) = .ok [⟨1, 1, 5, leBytes 0x60000000 4⟩] := by
  have e : ({ imgS 388 with con := { (imgS 388).con with imageLoad := none } } : State).readMem 0 388 = img := by decide +kernel
  rw [e]; unfold State.imageCheck
  rw [show (if Img.headerOk img = true then Img.sectionsOf img else none) = some [⟨1, 1, 5, leBytes 0x60000000 4⟩] by decide +kernel]
  dsimp only
  rw [if_neg (by decide +kernel), show ({ imgS 388 with con := { (imgS 388).con with imageLoad := none } } : State).fuse.revoked = State.reset.fuse.revoked from rfl, h]
  dsimp only
  rw [if_neg (by decide +kernel), if_neg (by decide +kernel)]

theorem witness_HeatCycleEvents : ((heatS 1 HeatRec.blank).heat 1).snap = none ∧ ((heatS 1 { HeatRec.blank with snap := some snap }).heat 1).snap = some snap ∧ (heatS 1 HeatRec.blank).pos = 0 ∧
    (heatS 1 { HeatRec.blank with snap := some snap }).regsWf ∧ Tab.wf snap.regs = true ∧ (∀ e ∈ snap.regs, wsOf 1 snap.geom.toNat e.1 = true) ∧
    (heatS 2 { HeatRec.blank with start := some (0, false, none) }).heatSt 1 = 2 ∧ (heatS 2 { HeatRec.blank with start := some (0, false, none) }).lapN < 1 ∧ (heatS 2 HeatRec.blank).floorOk 1 = true ∧
    (acts [(F.MSH_H_CFG_floor 1, 255)] (heatS 2 HeatRec.blank)).floorOk 1 = false ∧ NoErrors (heatS 2 HeatRec.blank) ∧ 5 ∈ (heatS 2 HeatRec.blank).heatCores 1 ∧ (heatS 2 HeatRec.blank).fenced 5 = false ∧
    (teamS (heatS 2 { HeatRec.blank with start := some (2, false, some line0) })).heatSt 1 = 2 ∧ (teamS (heatS 2 HeatRec.blank)).halTeam 1 = true ∧ (teamS (heatS 2 HeatRec.blank)).lapN + 1 < 2 ∧ 1 ≤ (teamS (heatS 2 HeatRec.blank)).lapN + 1 ∧
    (heatS 4 { HeatRec.blank with holdBack := true }).heatSt 1 = 4 ∧ ((heatS 4 { HeatRec.blank with holdBack := true }).heat 1).holdBack = true ∧ (heatS 4 { HeatRec.blank with holdBack := true }).halBusy 1 = false ∧
    (heatS 5 { HeatRec.blank with drain := some 0 }).heatSt 1 = 5 ∧ 16 ≤ ({ heatS 5 { HeatRec.blank with drain := some 0 } with pos := 2048 } : State).stride ∧ (heatS 7 HeatRec.blank).heatSt 1 = 7 ∧
    (heatS 7 HeatRec.blank).memUnit (256 * 0x48000000 - 1) = some (.slice 255) ∧ (heatS 7 HeatRec.blank).unitOwner (.slice 255) = some 1 ∧ (imgS 0).con.imageLoad = some (line0, 0, 0) ∧
    (imgS 0).imageCheck ((imgS 0).readMem 0 0) = .error "0423 IMAGE MALFORMED" ∧ heatLive ((heatS 1 HeatRec.blank).heatSt 1) = false ∧
    heatLive ((regs [(F.KV_H_STATUS_ready 1, 1)] (heatS 3 HeatRec.blank)).heatSt 1) = true ∧ (regs [(F.KV_H_STATUS_ready 1, 1)] (heatS 3 HeatRec.blank)).get (F.KV_H_STATUS_ready 1) = 1 ∧
    (regs [(F.KV_H_STATUS_ready 1, 1)] (heatS 3 HeatRec.blank)).stride = 0 ∧ (heatS 3 HeatRec.blank).allMoves 1 = [] ∧
    64 * (acts [(F.KV_H_WATER_low1 1, 0)] (heatS 3 HeatRec.blank)).getA (F.KV_H_WATER_low1 1) ≤ (acts [(F.KV_H_WATER_low1 1, 0)] (heatS 3 HeatRec.blank)).get (freeFld 1 1) ∧
    (acts [(F.KV_H_CFG_far_en 1, 0)] (heatS 3 HeatRec.blank)).getA (F.KV_H_CFG_far_en 1) = 0 ∧ (acts [(F.KV_H_COOL_promote 1, 0)] (heatS 3 HeatRec.blank)).getA (F.KV_H_COOL_promote 1) = 0 ∧
    ({ heatS 3 HeatRec.blank with kv := ⟨[(1 * 64 + 63, [⟨0, 2, 0, true⟩])], [], []⟩ } : State).kvMoves 1 63 = [⟨0, 2, 0, true⟩] ∧ (heatS 3 HeatRec.blank).kvMoves 1 63 = [] := by
  refine ⟨rfl, rfl, rfl, by unfold State.regsWf; decide +kernel, rfl, ?_, ?_, by decide, ?_, ?_, rfl, ?_, ?_, ?_, ?_, ?_, ?_,
    ?_, rfl, ?_, ?_, by decide, ?_, ?_, ?_, rfl, rfl, ?_, ?_, ?_, ?_, ?_,
    ?_, ?_, ?_, rfl, ?_⟩ <;> decide +kernel

/-! ### Witnesses: Baton links, the Marshal, release, start sequence -/

/-- Port 11 in state `st`, locked where `lock` is 1, with `f` of its port record. -/
def prt (st lock : Nat) (f : BtnPort → BtnPort) : State :=
  { regs [(F.BTN_P_STATUS_state 11, st), (F.BTN_P_STATUS_cw_lock 11, lock), (F.BTN_P_STATUS_fr_lock 11, lock), (F.BTN_P_STATUS_peer_nr 11, 0), (F.BTN_P_STATUS_local_nr 11, 0), (F.LAP_DELAY_delay 11, 0)] State.reset with btn := [(11, f BtnPort.blank)] }

/-- A frame that has been sent `n` times again. -/
def sentN (n : Nat) : TxFrame := ⟨1, 2, 0, 0, 0, n, [0]⟩

/-- A torus of two modules on each axis, past S-15. -/
def torus (auto : Nat) (s : State) : State :=
  { regs [(F.BTN_TOPO_xd_m1, 1), (F.BTN_TOPO_yd_m1, 1), (F.BTN_TOPO_zd_m1, 1), (F.BTN_P_CTL_en 11, 1), (F.BTN_P_CTL_auto 11, auto)] s with boot := { BootSt.blank with step := 16 } }

theorem witness_BatonTrainingAndRetry : (prt 2 0 id).portSt 11 < 3 ∧ (prt 7 0 id).portSt 11 = 7 ∧ (3 ≤ (prt 3 0 id).portSt 11 ∧ (prt 3 0 id).portSt 11 ≠ 7) ∧ (prt 3 0 id).get (F.BTN_P_STATUS_cw_lock 11) = 0 ∧
    (prt 5 1 id).get (F.BTN_P_STATUS_cw_lock 11) = 1 ∧ ((prt 5 1 fun b => { b with cwBad := 6 }).port 11).cwBad < 7 ∧ ((prt 5 1 id).port 11).ueLap < (prt 5 1 id).get F.BTN_CFG_ue_down ∧ ((prt 3 0 fun b => { b with step := 1 }).port 11).held = false ∧
    ((prt 3 0 fun b => { b with step := 1 }).port 11).step = 1 ∧ ((prt 3 0 fun b => { b with held := true }).port 11).held = true ∧ 16 ≤ ((prt 3 1 fun b => { b with step := 6, probes := 16 }).port 11).probes ∧
    (prt 3 1 id).get (F.BTN_P_STATUS_peer_nr 11) = 0 ∧ (prt 3 1 id).get (F.LAP_DELAY_delay 11) + 80 * 16 ≤ (prt 3 1 id).get F.BTN_CFG_blat * 16 ∧ (torus 1 (prt 3 0 id)).portSt 11 = 3 ∧ (torus 1 (prt 3 0 id)).boot.step = 16 ∧
    (prt 3 0 id).portEnabled 11 = false ∧ (prt 3 0 id).boot.step < 16 ∧ (torus 1 (prt 5 0 id)).portEnabled 11 = true ∧ (torus 0 (prt 5 0 id)).get (F.BTN_P_CTL_auto 11) = 0 ∧ (torus 1 (prt 5 0 id)).get (F.BTN_P_CTL_auto 11) = 1 ∧
    (prt 5 1 id).get (F.BTN_P_STATUS_fr_lock 11) = 1 ∧ (prt 5 0 id).get (F.BTN_P_STATUS_fr_lock 11) = 0 ∧ ((prt 5 1 id).port 11).replayX = [] ∧ ((prt 5 1 fun b => { b with replayX := [sentN 15] }).port 11).replayX = [sentN 15] ∧
    (sentN 15).tries < 16 ∧ 16 ≤ (sentN 16).tries := by
  refine ⟨?_, ?_, ?_, ?_, ?_, by decide, ?_, rfl, rfl, rfl, by decide, ?_, ?_, ?_, rfl, ?_, by decide,
    ?_, ?_, ?_, ?_, ?_, rfl, rfl, by decide, by decide⟩ <;> decide +kernel

/-- The header of a bulk frame with one flit in slot 0, number 0, for a payload of zeros. -/
def bulkHdr : Flit := BitVec.ofNat 256 (BH.marker + 1 * 2 ^ 64 + 5684 * 2 ^ 160 + 1 * 2 ^ 194 + 15 * 2 ^ 196 + 246 * 2 ^ 248)

theorem scramble_twice (fs : List Flit) : ∀ st, scramble st (scramble st fs) = fs := by
  induction fs with
  | nil => intro st; rfl
  | cons f fs ih => intro st; simp only [scramble, ih, BitVec.xor_assoc, BitVec.xor_self, BitVec.xor_zero]

theorem scramble_length (fs : List Flit) : ∀ st, (scramble st fs).length = fs.length := by
  induction fs with
  | nil => intro st; rfl
  | cons f fs ih => intro st; simp only [scramble, List.length_cons, ih]

theorem crc_cons (c d : Nat) (h : (flitBytes 0).foldl crc16Byte c = d) (fs : List Flit) :
    ((0 :: fs).flatMap flitBytes).foldl crc16Byte c = (fs.flatMap flitBytes).foldl crc16Byte d := by
  rw [List.flatMap_cons, List.foldl_append, h]

def zeros : List Flit := List.replicate 16 0

theorem payCrc_zeros : payCrc zeros = 5684 := by
  simp only [payCrc, zeros, List.replicate]
  rw [crc_cons 65535 61772 (by decide +kernel),
    crc_cons 61772 55002 (by decide +kernel),
    crc_cons 55002 35372 (by decide +kernel),
    crc_cons 35372 61450 (by decide +kernel),
    crc_cons 61450 1352 (by decide +kernel),
    crc_cons 1352 33778 (by decide +kernel),
    crc_cons 33778 46877 (by decide +kernel),
    crc_cons 46877 16872 (by decide +kernel),
    crc_cons 16872 15919 (by decide +kernel),
    crc_cons 15919 7401 (by decide +kernel),
    crc_cons 7401 37305 (by decide +kernel),
    crc_cons 37305 60547 (by decide +kernel),
    crc_cons 60547 52608 (by decide +kernel),
    crc_cons 52608 36663 (by decide +kernel),
    crc_cons 36663 3195 (by decide +kernel),
    crc_cons 3195 5684 (by decide +kernel)]
  rfl

def bulk : XFrame := ⟨bulkHdr, scramble (scramInit 0 0 0) zeros, true⟩

theorem bulk_accepted : (prt 5 1 id).frameIn 11 false bulk = (some zeros, (prt 5 1 id).modPort 11 fun b => { b with expB := 1, nakB := false }) := by
  have h1 : (prt 5 1 id).on (F.BTN_P_STATUS_cw_lock 11) = true := by decide +kernel
  have h2 : (prt 5 1 id).on (F.BTN_P_STATUS_fr_lock 11) = true := by decide +kernel
  have h3 : BH.ok bulkHdr = true := by decide +kernel
  have h4 : BH.cls bulkHdr = 0 ∧ BH.reserved bulkHdr = false ∧ BH.len bulkHdr = 16 ∧ BH.seq bulkHdr = 0 ∧ BH.tr bulkHdr = 0 ∧ BH.pcrc bulkHdr = 5684 := by decide +kernel
  obtain ⟨h4, h5, h6, h7, h8, h9⟩ := h4
  have h10 : ((prt 5 1 id).port 11).dropB = false ∧ ((prt 5 1 id).port 11).expB = 0 := ⟨rfl, rfl⟩
  have h11 : zeros.length = 16 := rfl
  simp [State.frameIn, bulk, h11, h1, h2, h3, h4, h5, h6, h7, h8, h9, h10, scramble_twice, scramble_length, payCrc_zeros]

/-- Link-management frames of kinds 0 and 1, a tunnel frame for module 1, and a team stop of team 0. -/
def ident : List Flit := [0, 0]
def going : List Flit := [1]
def tunnel : List Flit := [1024]
def stop0 : List Flit := [BitVec.ofNat 256 (2 ^ 22)]

theorem witness_BatonFrames : (prt 5 0 id).get (F.BTN_P_STATUS_cw_lock 11) = 0 ∧ BH.isMark 0 = false ∧ (regs [(F.BTN_P_STATUS_cw_lock 11, 1)] (prt 3 0 id)).get (F.BTN_P_STATUS_cw_lock 11) = 1 ∧
    (regs [(F.BTN_P_STATUS_cw_lock 11, 1)] (prt 3 0 id)).get (F.BTN_P_STATUS_fr_lock 11) = 0 ∧ BH.ok bulkHdr = true ∧ BH.cls bulkHdr = 0 ∧ ((prt 3 0 id).port 11).cands = [] ∧ BH.isMark (BitVec.ofNat 256 (BH.marker + 2 ^ 248)) = true ∧
    BH.ok (BitVec.ofNat 256 (BH.marker + 2 ^ 248)) = false ∧ BitVec.toNat (w := 48) 17 = ((prt 5 1 id).port 11).lastHdr + 17 + ((prt 5 1 id).port 11).rxIns + 0 ∧ ((prt 5 1 fun b => { b with hdrBad := 1 }).port 11).hdrBad < 2 ∧ ((prt 5 1 id).port 11).xEnd ≤ 17 ∧
    BH.ins bulkHdr = 0 ∧ (prt 2 1 id).portSt 11 < 3 ∧ 6 ≤ (prt 6 1 id).portSt 11 ∧ (3 ≤ (prt 5 1 id).portSt 11 ∧ (prt 5 1 id).portSt 11 < 6) ∧ ((prt 5 0 id).frameIn 11 true (exFrame 2 ident)).1 = none ∧ BH.kind (exFrame 2 ident).hdr = 2 ∧
    BH.kind (exFrame 3 tunnel).hdr = 3 ∧ BH.kind (exFrame 1 stop0).hdr = 1 ∧ BH.kind bulk.hdr ≠ 0 ∧ (prt 5 1 id).frameIn 11 false bulk = (some zeros, (prt 5 1 id).modPort 11 fun b => { b with expB := 1, nakB := false }) ∧
    ((prt 5 1 id).modPort 11 fun b => { b with expB := 1, nakB := false }).get (F.BTN_P_STATUS_local_nr 11) = 0 ∧
    ((prt 3 1 id).frameIn 11 true (exFrame 2 ident)).1 = some ident ∧ linkMessage ident = 0 ∧ ((prt 3 1 id).frameIn 11 true (exFrame 2 ident)).2.portSt 11 = 3 ∧ ((prt 5 1 id).frameIn 11 true (exFrame 2 going)).1 = some going ∧ linkMessage going = 1 ∧
    ((prt 5 1 id).frameIn 11 true (exFrame 3 tunnel)).1 = some tunnel ∧ ((regs [(F.BTN_P_STATUS_local_nr 11, 1)] (prt 5 1 id)).frameIn 11 true (exFrame 3 tunnel)).2.get (F.BTN_P_STATUS_local_nr 11) = 1 ∧
    (tunnel.headD 0).toNat / 1024 % 1024 ≠ ((prt 5 1 id).frameIn 11 true (exFrame 3 tunnel)).2.selfAddr ∧ ((prt 5 1 id).frameIn 11 true (exFrame 1 stop0)).1 = some stop0 ∧ (stop0.headD 0).toNat % 16 = 0 ∧
    ((prt 5 1 id).frameIn 11 true (exFrame 1 stop0)).2.black = false ∧ ((prt 5 1 id).frameIn 11 true (exFrame 1 stop0)).2.mar.stops = [] ∧ (prt 7 0 id).portSt 11 ∈ [0, 1, 7] ∧ (prt 2 0 id).portSt 11 ∉ [0, 1, 7] ∧
    ((prt 5 1 fun b => { b with curX := [5], ctlQ := [(0, 4)], curB := [3] }).port 11).curX = 5 :: [] ∧ ((prt 5 1 fun b => { b with ctlQ := [(0, 4)], slots := 62 }).port 11).slots ≤ 62 ∧ (prt 4 1 id).portSt 11 ∈ [3, 4, 5] ∧
    ((prt 5 1 fun b => { b with curB := [3] }).port 11).curB = 3 :: [] ∧ ((prt 5 1 fun b => { b with curB := [3] }).nextExpress 11).isNone = true := by
  refine ⟨?_, by decide, ?_, ?_, ?_, ?_, rfl, ?_, ?_, by decide, by decide, by decide, ?_, ?_, ?_, ?_,     ?_, ?_, ?_, ?_, ?_, bulk_accepted, ?_, ?_, by decide, ?_, ?_, by decide, ?_, ?_,     ?_, ?_, by decide, ?_, ?_, ?_, ?_, rfl, by decide, ?_, rfl, ?_⟩ <;> decide +kernel

/-- The Marshal armed at lap 63, with register fields and its own state as given. -/
def marS (l : List (Fld × Nat)) (f : MarSt → MarSt) : State := { regs ((F.MAR_STATUS_state, 3) :: l) (ranked id) with mar := f MarSt.blank, lap := 63 }

theorem witness_MarshalReports : (marS [] id).checks 0x201 5 = true ∧ (marS [] fun m => { m with mute := [regionOf 5] }).checks 0x203 5 = false ∧ (marS [] id).coreOwner 5 = some 1 ∧ heatBusy ((marS [] id).heatSt 1) = true ∧ (marS [] id).black = false ∧
    (regs [(F.MAR_STATUS_state, 5)] State.reset).black = true ∧ ({ marS [(F.MAR_STATUS_starter_ok, 1)] id with boot := { BootSt.blank with ms := 9 } } : State).boot.ms < 0 + 10 ∧
    0 + 10 ≤ ({ marS [(F.MAR_STATUS_starter_ok, 1)] id with boot := { BootSt.blank with ms := 10 } } : State).boot.ms ∧ (marS [(F.MAR_STATUS_starter_ok, 1)] id).get F.MAR_STATUS_starter_ok = 1 ∧ (marS [(F.MAR_STATUS_starter_ok, 0)] id).get F.MAR_STATUS_starter_ok = 0 ∧
    Tab.find ({ marS [] id with cores := [(5, { Core.blank 5 with sigLatched := 1 })] } : State).cores 5 = some { Core.blank 5 with sigLatched := 1 } ∧ (Core.blank 5).sigShadowLatched ≠ 1 ∧
    State.reset.get F.MAR_STATUS_state ≠ 3 ∧ (marS [] id).get F.MAR_STATUS_state = 3 ∧ (marS [] id).mar.restore = none ∧ (marS [] id).mar.mute = [] ∧ 4 * ((marS [] id).lapN % 64) = 252 ∧ regionOf 2032 = 252 ∧ (marS [] id).fenced 2032 = false ∧
    (Tab.find ({ marS [] id with cores := [(2032, Core.blank 2032)] } : State).cores 2032).isSome = true ∧ (marS [(F.MAR_STATUS_safe_stop, 1)] id).get F.MAR_STATUS_safe_stop = 1 ∧ (marS [] id).get F.MAR_STATUS_safe_stop = 0 ∧
    (regs [(F.MAR_STATUS_state, 4)] State.reset).get F.MAR_STATUS_state = 4 := by
  refine ⟨?_, by decide, ?_, ?_, ?_, ?_, by decide, by decide, ?_, ?_, rfl, by decide, ?_, ?_, rfl, rfl, by decide, by decide,
    by decide, rfl, ?_, ?_, ?_⟩ <;> decide +kernel

/-- Heat 1's release queue of 256 entries at attachment 0, holding `e`, the producer index at `prod`. -/
def relQS (prod : Nat) (e : List RelEnt) : State :=
  { regs [(F.HEAT_H_REL_PROD_prod 1, prod)] (acts [(F.HEAT_H_CFG_rel_en 1, 1), (F.HEAT_H_REL_CFG_qsize 1, 0), (F.HEAT_H_REL_CFG_rsize 1, 0), (F.HEAT_H_REL_CFG_rank 1, 0)] (ranked id)) with rel := [(1, ⟨e, 0⟩)] }

theorem witness_ReleaseQueue : State.reset.coreOwner (hostSite 0) = none ∧ (relQS 0 []).coreOwner (hostSite 0) = some 1 ∧ (relQS 0 []).relAtt 1 = some 0 ∧ (relQS 0 []).coreOwner 5 = some 1 ∧ (relQS 0 []).rankOf 5 = some ((relQS 0 []).getA (F.HEAT_H_REL_CFG_rank 1)) ∧
    heatLive ((relQS 0 []).heatSt 1) = true ∧ NoErrors (relQS 0 []) ∧ (256 + 2 ^ 17 - (relQS 0 []).get (F.HEAT_H_REL_PROD_prod 1)) % 2 ^ 17 = 256 ∧ 256 ≤ (relQS 0 []).relN 1 - (0 + 2 ^ 17 - (relQS 0 []).get (F.HEAT_H_REL_DONE_done 1)) % 2 ^ 17 ∧
    (relQS 0 []).relN 1 - (0 + 2 ^ 17 - (relQS 0 []).get (F.HEAT_H_REL_DONE_done 1)) % 2 ^ 17 < 257 ∧ (relQS 0 []).relDue 1 = false ∧ (relQS 1 [⟨0, 0, 1, 0, 0⟩]).relDue 1 = false ∧ (relQS 1 [⟨0, 0, 2, 0, 0⟩]).relDue 1 = true ∧
    (relQS 1 [⟨0, 0, 2, 0, 0⟩]).get (F.HEAT_H_REL_STATUS_state 1) ≠ 3 ∧ (regs [(F.HEAT_H_REL_HCONS_hcons 1, 2 ^ 17 - 256)] (relQS 1 [⟨0, 0, 2, 0, 0⟩])).relM 1 ≤ (0 + 2 ^ 17 - (regs [(F.HEAT_H_REL_HCONS_hcons 1, 2 ^ 17 - 256)] (relQS 1 [])).get (F.HEAT_H_REL_HCONS_hcons 1)) % 2 ^ 17 ∧
    (0 + 2 ^ 17 - (relQS 1 []).get (F.HEAT_H_REL_HCONS_hcons 1)) % 2 ^ 17 < (relQS 1 []).relM 1 ∧ RE.units ((relQS 1 [⟨0, 0, 2, 0, 0⟩]).relEntry 1 0) = 0 := by
  refine ⟨?_, ?_, ?_, ?_, ?_, ?_, rfl, ?_, ?_, ?_, by decide, by decide, by decide, ?_, ?_, ?_, ?_⟩ <;> decide +kernel

/-- A module with both supplies, at a step of its start. -/
def bootS (n : Nat) (f : BootSt → BootSt) : State := { State.reset with boot := f { BootSt.blank with aux := true, main := true, step := n } }

theorem witness_PowerAndBootSteps : (bootS 1 id).boot.aux = true ∧ State.reset.boot.aux = false ∧ (bootS 1 id).boot.main = true ∧ (bootS 0 fun b => { b with main := false }).boot.aux = true ∧ (bootS 0 fun b => { b with main := false }).boot.main = false ∧
    (bootS 9 fun b => { b with holdAt := some 9 }).boot.holdAt.isSome = true ∧ (bootS 0 id).boot.step = 0 ∧ 19 ≤ (bootS 19 id).boot.step ∧ (bootS 14 id).black = false ∧ (bootS 14 id).boot.holdAt = none ∧ (bootS 14 id).boot.step = 14 ∧
    (bootS 14 id).get F.STA_CTL_hold_req = 0 ∧ (bootS 7 id).boot.step = 7 ∧ (bootS 18 id).boot.step = 18 ∧ (18 ∈ [8, 9, 14, 18]) ∧ State.reset.boot.jErased = true ∧ (bootS 1 fun b => { b with jErased := false }).boot.jErased = false :=
  ⟨rfl, rfl, rfl, rfl, rfl, rfl, rfl, by decide, by decide +kernel, rfl, rfl, by decide +kernel, rfl, rfl, by decide, rfl, rfl⟩

/-- The throttle has lowered region 0 to 1,400 MHz, its last step and raise at lap 0, at lap `lap`. -/
def thrS (lap : Nat) : State := { bootS 8 id with lap := BitVec.ofNat 48 lap, pwr := { target := [], cap := [(0, 1400)], due := false, stepLap := some 0, raiseLap := some 0 } }

theorem witness_HostLinkStarterAndThrottle : State.reset.group1 = false ∧ (bootS 6 fun b => { b with rails := 1 }).group1 = true ∧ (bootS 6 fun b => { b with rails := 1, perst := false }).boot.perst = false ∧ (bootS 6 id).boot.s15 = false ∧
    (bootS 16 fun b => { b with s15 := true }).boot.s15 = true ∧ (bootS 6 id).get F.STA_BOOT_cfg_rel = 0 ∧ (regs [(F.STA_BOOT_console, 1)] (bootS 6 fun b => { b with perst := false })).get F.STA_BOOT_console = 1 ∧ (bootS 6 id).get F.STA_BOOT_console = 0 ∧
    Tab.wf (bootS 6 id).con.sess = true ∧ (bootS 6 id).black = false ∧ (bootS 18 id).boot.step < 19 ∧ (bootS 18 id).boot.restarting = false ∧ (bootS 18 fun b => { b with holdAt := some 18 }).boot.holdAt.isSome = true ∧ (bootS 19 fun b => { b with restarting := true }).boot.restarting = true ∧
    (thrS 4).pos = 0 ∧ (∀ l, (thrS 4).pwr.stepLap = some l → l + 4 ≤ (thrS 4).lapN) ∧ (thrS 3).lapN < 0 + 4 ∧ (thrS 4).clocksSet = true ∧ (∀ l, (thrS 64).pwr.stepLap = some l → l + 64 ≤ (thrS 64).lapN) ∧ (∀ l, (thrS 64).pwr.raiseLap = some l → l + 64 ≤ (thrS 64).lapN) ∧
    (thrS 64).throttled = true ∧ (thrS 63).lapN < 0 + 64 ∧ State.reset.throttled = false ∧ Tab.wf (thrS 64).pwr.cap = true ∧ (bootS 7 id).clocksSet = false := by
  refine ⟨by decide, by decide, rfl, rfl, rfl, ?_, ?_, ?_, rfl, ?_, by decide, rfl, rfl, rfl, rfl, fun l h => by cases h; decide, by decide, by decide, fun l h => by cases h; decide, fun l h => by cases h; decide,
    ?_, by decide, ?_, rfl, by decide⟩ <;> decide +kernel

/-! ### Witnesses: the console -/

/-- The console past a step, session 0 the UART's and holder of the claim, with `f` of the console's state. -/
def con (step : Nat) (f : ConSt → ConSt) (s : State) : State :=
  { s with boot := { s.boot with aux := true, main := true, step := step }, con := f { ConSt.blank with sess := [(0, Endpoint.uart.fresh false)], claim := some 0 } }

/-- S-19 has ended; heat 1 is in state `st`. -/
def ready (st : Nat) : State := con 19 id (heat1 st State.reset)

/-- The module holds at a step. -/
def holds (s : State) : State := { s with boot := { s.boot with holdAt := some 9 } }

/-- A session of one end point, with `f` of it. -/
def sess1 (i : Nat) (ep : Endpoint) (f : Session → Session) : ConSt → ConSt := fun c => { c with sess := Tab.put i (f (ep.fresh false)) c.sess }

def busySess (c : ConSt) : ConSt := { c with sess := [(0, Endpoint.uart.fresh false), (1, (Endpoint.tunnel 1 0).fresh true), (2, (Endpoint.tunnel 2 0).fresh true), (3, (Endpoint.mailbox 1).fresh true)] }

theorem witness_ConsoleTransports : State.reset.sessionOf .usb = none ∧ State.reset.boot.restarting = false ∧ (bootS 19 fun b => { b with restarting := true }).boot.restarting = true ∧ State.reset.session 0 = none ∧ (bootS 2 id).boot.step < 3 ∧
    (bootS 3 id).boot.main = true ∧ ({ bootS 3 id with con := { ConSt.blank with early := List.replicate 4095 0 } } : State).con.early.length < 4096 ∧ (ready 1).session 0 = some (Endpoint.uart.fresh false) ∧
    (con 19 (sess1 0 .uart fun x => { x with part := List.replicate 511 0x20 }) State.reset).inUsed 0 < 4096 ∧ (ready 1).session 3 = none ∧ (con 19 (sess1 3 .usb id) State.reset).session 3 = some (Endpoint.usb.fresh false) ∧
    (con 9 (sess1 2 (.mailbox 1) id) State.reset).session 2 = some ((Endpoint.mailbox 1).fresh false) ∧ (con 9 (sess1 2 (.mailbox 1) id) State.reset).cmode ≠ .ready ∧ State.reset.transports = false ∧ (ready 1).transports = true ∧ (ready 1).sessionOf .usb = none ∧
    Endpoint.usb ∉ (ready 1).con.refused ∧ (∀ j, 1 ≤ j → j < 1 → (ready 1).session j ≠ none) ∧ (ready 1).session 1 = none ∧ (con 19 busySess State.reset).transports = true ∧ (∀ j ∈ [1, 2, 3], (con 19 busySess State.reset).session j ≠ none) ∧
    (con 19 (sess1 3 .usb id) State.reset).sessionOf .usb = some 3 ∧ Tab.wf (con 19 (sess1 3 .usb id) State.reset).con.sess = true ∧ State.reset.bar4 = false ∧ (regs [(F.STA_BOOT_cfg_rel, 1)] (ready 1)).bar4 = true ∧
    (ready 1).sessionOf (.mailbox 1) = none ∧ ((ready 1).mailbox 1).inProd = 0 ∧ ((ready 1).mailbox 1).inCons = 0 ∧
    (con 19 (sess1 2 (.mailbox 1) fun x => { x with dropped := 1 }) State.reset).sessionOf (.mailbox 1) = some 2 ∧ (con 19 (sess1 0 .uart fun x => { x with flow := true, ctsOff := true }) State.reset).session 0 = some { Endpoint.uart.fresh false with flow := true, ctsOff := true } ∧
    (Endpoint.uart.fresh false).paused = [] ∧ (Endpoint.uart.fresh false).dropped = 0 ∧ (Endpoint.uart.fresh false).newBaud = none ∧ (Endpoint.uart.fresh false).flow = false ∧ (con 19 busySess State.reset).session 1 = some ((Endpoint.tunnel 1 0).fresh true) ∧
    Tab.wf (con 19 busySess State.reset).con.sess = true ∧ (con 19 (fun c => { c with routed := [⟨line0, 1, [], [], false, 0⟩] }) State.reset).con.routed = ⟨line0, 1, [], [], false, 0⟩ :: [] ∧ line0.sess = 0 := by
  refine ⟨rfl, rfl, rfl, rfl, by decide, rfl, by show (List.replicate 4095 (0 : Byte)).length < 4096; rw [List.length_replicate]; decide, rfl, ?_, rfl, rfl, rfl, ?_, by decide, ?_, rfl, by decide, by omega, rfl, ?_, by decide, rfl, rfl, ?_, ?_, rfl,
    ?_, rfl, rfl, rfl, rfl, rfl, rfl, rfl, rfl, rfl, rfl, rfl⟩ <;> decide +kernel

/-- A line of session 0 with arguments. -/
def lin (args : List (String × String)) : Line := { line0 with args := args.zipIdx.map fun a => ⟨a.1.1, a.1.2, 9 + 8 * a.2⟩, endCol := 512 }

def argsOf (c : Cmd) (l : Line) : Args := match parseArgs c.keys [] 16 l.args with | .ok a => a | .error _ => []

/-- Whether a state admits a line of a command. -/
def admits (s : State) (l : Line) (c : Cmd) : Bool :=
  (s.session l.sess.val).isSome && (s.elsewhere l).isNone && (s.keptFor l).isNone && c.modes.contains s.cmode &&
    (match parseArgs c.keys [] 16 l.args with | .ok a => c.req.all a.has | .error _ => false) && (!c.classC || c.anyIn.contains s.cmode || s.con.claim == some l.sess.val)

theorem admitted {s : State} {l : Line} {c : Cmd} (h : admits s l c = true) : Admitted s l c (argsOf c l) := by
  unfold admits at h
  simp only [Bool.and_eq_true, Bool.or_eq_true, Bool.not_eq_true', Option.isNone_iff_eq_none, List.contains_iff_mem, beq_iff_eq] at h
  obtain ⟨⟨⟨⟨⟨h1, h2⟩, h3⟩, h4⟩, h5⟩, h6⟩ := h
  unfold argsOf
  cases e : parseArgs c.keys [] 16 l.args with
  | error x => simp [e] at h5
  | ok a =>
    simp only [e, List.all_eq_true] at h5
    refine ⟨h1, h2, fun _ => h3, h4, e, h5, fun hc hm => ?_⟩
    rcases h6 with (h6 | h6) | h6
    · rw [hc] at h6; cases h6
    · exact absurd h6 hm
    · exact h6

/-- Every line of a list is admitted in a state. -/
theorem all_admitted {s : State} {rows : List (List (String × String) × Cmd)} (h : rows.all (fun x => admits s (lin x.1) x.2) = true) :
    ∀ x ∈ rows, Admitted s (lin x.1) x.2 (argsOf x.2 (lin x.1)) := fun x hx => admitted (List.all_eq_true.mp h x hx)

def txt (s : String) : List Byte := charBytes s.toList

/-- Session 0 has a line in the queue. -/
def queued (t : String) : State := con 19 (fun c => { c with queue := [⟨0, txt t, false, none⟩] }) State.reset

theorem witness_ConsoleLinesRun : State.reset.nextLine.isNone = true ∧ (queued "lap status").nextLine = some (⟨0, txt "lap status", false, none⟩, 0) ∧ (queued "lap status").session 0 = some (Endpoint.uart.fresh false) ∧
    (parseLine false false (txt "lap status")).stepOne 0 = none ∧ (queued "").verbErr (parseLine false false (txt "lap status")).toks = none ∧ (verbOf false (parseLine false false (txt "lap status")).toks).toOption = some ("lap", "status", []) ∧
    (parseLine false false (txt "lap status")).route.isOk = true ∧ VerbRow "lap" "status" Instr.lapStatus ∧ (∃ t, exec (.lapStatus (lineOf 0 (parseLine false false (txt "lap status")) [])) (queued "") = .next t) ∧
    ((verbOf false (parseLine false false (txt "lop status")).toks).toOption = none) ∧ ((con 9 id State.reset).verbErr (parseLine false false (txt "heat show")).toks).isSome = true ∧
    ClaimedRow Instr.heatReset (cmdC [heatKey] ["id"]) ∧ (con 9 id State.reset).session 3 = none ∧ (∀ c : Cmd, c = cmdC [heatKey] ["id"] → (con 9 id State.reset).cmode ∉ c.modes) ∧ (ready 1).cmode ∈ (cmdC [heatKey] ["id"]).modes ∧
    (parseArgs (cmdC [heatKey] ["id"]).keys [] 16 (lin [("id", "32")]).args).toOption = none ∧ (parseArgs (cmdC [heatKey] ["id"]).keys [] 16 (lin []).args).toOption = some [] ∧ Args.has [] "id" = false ∧
    (parseArgs (cmdC [heatKey] ["id"]).keys [] 16 (lin [("id", "31")]).args).toOption = some [("id", .num 31, 9)] ∧ (con 19 (fun c => { c with claim := none }) State.reset).con.claim = none ∧ (con 19 (fun c => { c with claim := some 1 }) State.reset).con.claim = some 1 ∧
    (con 19 (sess1 0 .uart fun x => { x with kept := [⟨"1", 7, "OK", 0⟩] }) State.reset).keptFor { line0 with gen := some ("1", 7) } = some ⟨"1", 7, "OK", 0⟩ := by
  refine ⟨by decide, ?_, rfl, ?_, ?_, ?_, ?_, by simp [VerbRow], ⟨_, rfl⟩, ?_, ?_, by simp [ClaimedRow], rfl, fun c e => by rw [e]; decide +kernel,
    ?_, ?_, ?_, by decide, ?_, rfl, rfl, ?_⟩ <;> decide +kernel

/-- Heat 1 runs as a member of a team. -/
def teamEn : State := con 19 id (acts [(F.TEAM_H_CFG_en 1, 1)] (heat1 3 State.reset))

def allR (modes : List CMode) (keys : List (String × Form)) (req : List String) : Cmd := { classC := false, modes := modes, keys := keys, req := req }

def showRows : List (List (String × String) × Cmd) :=
  [([], cmdR [] []), ([("port", "11")], cmdR [("port", .num 0 11 1)] []), ([("heat", "1")], cmdR [("heat", .num 0 31 1)] []), ([("heat", "1")], cmdR [("heat", .num 0 31 1)] ["heat"]),
   ([("src", "0"), ("kind", "core"), ("dst", "2047")], cmdR [("src", .num 0 2047 1), ("kind", .word distKinds), ("dst", .num 0 2047 1)] ["src", "kind", "dst"]),
   ([("router", "2047"), ("output", "rn"), ("slot", "127"), ("view", "staged")], cmdR [("router", .num 0 2047 1), ("output", .word outNames), ("slot", .num 0 127 1), ("view", .word ["staged", "active"])] ["router", "output", "slot"]),
   ([("cons", "278")], cmdR [("cons", .num 0 278 1)] ["cons"]), ([("core", "2047")], cmdR [("core", .num 0 2047 1)] ["core"]), ([("heat", "1"), ("last", "255")], cmdR [("heat", .num 0 31 1), ("last", .num 1 255 1)] ["heat"])] ++
  [([("id", "31"), ("detail", "1")], allR [.ready] [heatKey, ("detail", .num 0 1 1)] []), ([], allR [.ready] [] []), ([("heat", "31")], allR [.hold, .ready, .black] [("heat", .num 0 31 1)] []), ([], allR allModes [] []),
   ([("n", "256")], allR allModes [("n", .num 1 256 1)] []), ([("slot", "255")], allR allModes [("slot", .num 0 255 1)] ["slot"]), ([], allR [.hold, .ready] [] []),
   ([("n", "1024")], allR [.hold, .ready, .black] [("n", .num 1 1024 1), ("colour", .word ["yellow", "red", "black"]), ("heat", .num 0 31 1)] []),
   ([("reg", "LAP_CTL")], allR [.hold, .ready] [("reg", Form.name), ("field", .name), ("view", .word ["staged", "active"])] ["reg"]), ([("regions", "1")], allR [.ready] [("regions", .num 0 1 1)] [])]

theorem witness_ConsoleShows : (∀ x ∈ showRows, Admitted teamEn (lin x.1) x.2 (argsOf x.2 (lin x.1))) ∧ Admitted (con 18 id State.reset) (lin []) (allR allModes [] []) [] ∧ teamEn.heatExists 1 = true ∧ (distSite (distKinds.findIdx (· == "core")) 2047).isSome = true ∧
    outNames.findIdx (· == "rn") ∈ meshOuts 2047 ++ relayOuts 2047 ∧ teamEn.getA (F.TEAM_H_CFG_en 1) = 1 ∧ (∀ h < 32, (teamEn.heat h).image = none) ∧ (con 18 id State.reset).boot.step < 19 ∧ 19 ≤ teamEn.boot.step ∧
    (List.find? (fun x => x.1 == lower "update") syntaxLines).isSome = true ∧ (regLookup "LAP_CTL").map (fun n => teamEn.blockUp n.spec n.off) = some true := by
  refine ⟨all_admitted (by decide +kernel), admitted (c := allR allModes [] []) (by decide +kernel), ?_, ?_, ?_, ?_, ?_, by decide, by decide, ?_, ?_⟩ <;> decide +kernel

def sessCmd : Cmd := { classC := true, modes := [.ready], keys := sessionKeys .uart, anyIn := [.ready] }
def claimC : Cmd := { classC := true, modes := [.hold, .ready], keys := [("force", .num 0 1 1)], anyIn := [.hold, .ready] }

def setRows : List (List (String × String) × Cmd) :=
  [([("role", "forced"), ("pri", "15"), ("ref", "1")], cmdC [("role", .word ["follower", "eligible", "forced"]), ("pri", .num 0 15 1), ("ref", .num 0 1 1)] []), ([("en", "1"), ("div", "12")], cmdC [("en", .num 0 1 1), ("div", .num 0 12 1)] []),
   ([("port", "0,11"), ("preset", "11")], cmdC [("port", .list 0 11 true), ("preset", .num 0 11 1)] ["port", "preset"]), ([("blat", "1792"), ("ue_down", "255")], cmdC [("blat", .num 256 1792 1), ("ue_down", .num 0 255 1)] []),
   ([("t", "105")], cmdC [("t", .num 80 105 1)] ["t"]), ([("on", "1")], cmdC [("on", .num 0 1 1)] ["on"]), ([("persist", "0")], cmdC [("persist", .num 0 1 1)] []),
   ([("kind", "12"), ("site", "65535"), ("heat", "31"), ("at", "1:2047")], cmdC [("kind", .num 0 12 1), ("site", .num 0 65535 1), ("heat", .num 0 31 1), ("at", .pos)] ["kind", "site", "heat", "at"]),
   ([("id", "1"), ("bc0", "7"), ("w", "8"), ("floor", "1800"), ("smxc_k", "-8")], cmdC heatSetKeys ["id"])] ++
  [([("heat", "1"), ("id", "63"), ("en", "1")], cmdC [("heat", .num 0 31 1), ("id", .num 0 63 1), ("en", .num 0 1 1), ("ox", .num 0 15 1), ("oy", .num 0 7 1), ("oz", .num 0 7 1), ("ex", .num 1 16 1), ("ey", .num 1 8 1), ("ez", .num 1 8 1), ("rx", .num 0 15 1),
      ("ry", .num 0 7 1), ("rz", .num 0 7 1)] ["heat"]), ([("core", "2047"), ("seed", "0xFFFFFFFF")], cmdC [("core", .list 0 2047 true), ("seed", .num 0 (p2 32 - 1) 1)] ["core", "seed"]), ([("core", "2047")], cmdC [("core", .list 0 2047 true)] ["core"]),
   ([("core", "2047"), ("passes", "3"), ("iq", "31")], cmdC [("core", .list 0 2047 true), ("passes", .num 1 3 1), ("ftz32", .num 0 1 1), ("sat8", .num 0 1 1), ("iq", .num 0 31 1)] ["core"]),
   ([("region", "255"), ("mhz", "800")], cmdC [("region", .list 0 255 true), ("mhz", .num 800 1800 10)] ["region", "mhz"]), ([("events", "2"), ("baud", "3000000")], sessCmd), ([], claimC), ([("force", "1")], claimC), ([], { classC := true, modes := [.ready], anyIn := [.ready] })]

/-- The region floor of heat 1 at 1,800 MHz while it runs. -/
def floorS : State := con 19 id (acts [(F.MSH_H_CFG_floor 1, 180), (F.TEAM_H_CFG_en 1, 1)] (heat1 3 State.reset))

theorem witness_ConsoleSettings : (∀ x ∈ setRows, Admitted (ready 1) (lin x.1) x.2 (argsOf x.2 (lin x.1))) ∧ (∀ x ∈ setRows, Admitted (regs [(F.MAR_STATUS_lock, 1)] floorS) (lin x.1) x.2 (argsOf x.2 (lin x.1))) ∧ (ready 1).locked = false ∧
    (regs [(F.MAR_STATUS_lock, 1)] floorS).locked = true ∧ (∀ h < 32, heatBusy ((ready 1).heatSt h) = false) ∧ floorS.locked = false ∧ heatBusy (floorS.heatSt 1) = true ∧ floorS.getA (F.TEAM_H_CFG_en 1) = 1 ∧ (ready 1).mar.lockUsed = false ∧
    (ready 1).get F.MAR_SVC_on = 0 ∧ (regs [(F.MAR_SVC_on, 1)] (ready 1)).get F.MAR_SVC_on = 1 ∧ Args.pos (argsOf (cmdC [("at", .pos)] []) (lin [("at", "1:2047")])) "at" = (1, 2047, none) ∧ (ready 1).lapN < 1 ∧ ¬ ({ ready 1 with lap := 1 } : State).lapN < 1 ∧
    (ready 1).injOk 12 65535 31 = true ∧ (ready 1).get F.MAR_STATUS_lock = 0 ∧ (ready 1).heatSt 1 = 1 ∧ (ready 6).heatSt 1 = 6 ∧ (ready 1).teamMisfit (argsOf (cmdC [("heat", .num 0 31 1)] []) (lin [("heat", "1")])) 1 = none ∧ (ready 1).fenced 2047 = false ∧
    (ready 1).coreOwner 2047 = some 1 ∧ heatLive ((ready 1).heatSt 1) = false ∧ (ready 1).regionFloor 255 = 0 ∧ 800 < floorS.regionFloor 255 ∧ (ready 1).session 0 = some (Endpoint.uart.fresh false) ∧ 3000000 ∈ uartRates ∧
    (con 19 (fun c => { c with claim := none }) State.reset).con.claim = none ∧ admits (con 19 (fun c => { c with claim := none }) State.reset) (lin []) claimC = true ∧ admits (con 19 (fun c => { c with claim := some 3 }) State.reset) (lin []) claimC = true ∧
    admits (con 19 busySess State.reset) { lin [] with sess := 3 } claimC = true ∧ admits (holds (con 9 busySess State.reset)) { lin [] with sess := 3 } claimC = true ∧ (holds (con 9 busySess State.reset)).cmode = .hold := by
  refine ⟨all_admitted (by decide +kernel), all_admitted (by decide +kernel), ?_, ?_, ?_, ?_, ?_, ?_, rfl, ?_, ?_, ?_, by decide, by decide,
    ?_, ?_, ?_, ?_, ?_, by decide, ?_, ?_, ?_, ?_, rfl, by decide, rfl, ?_, ?_, ?_,
    ?_, ?_⟩ <;> decide +kernel

def anyC (modes anyIn : List CMode) (keys : List (String × Form)) (req : List String) : Cmd := { classC := true, modes := modes, keys := keys, req := req, anyIn := anyIn }

def actRows : List (List (String × String) × Cmd) :=
  [([], cmdC [] []), ([("at", "32"), ("force", "0")], { cmdC [("at", .lap), ("force", .num 0 1 1)] ["at"] with anyIn := [.ready] }),
   ([("x", "15"), ("y", "7"), ("z", "7"), ("xd", "16"), ("yd", "8"), ("zd", "8")], cmdC [("x", .num 0 15 1), ("y", .num 0 7 1), ("z", .num 0 7 1), ("xd", .num 1 16 1), ("yd", .num 1 8 1), ("zd", .num 1 8 1)] ["x", "y", "z", "xd", "yd", "zd"]),
   ([("port", "all")], cmdC [("port", .list 0 11 true)] ["port"]), ([("port", "0-11"), ("en", "1"), ("auto", "1")], cmdC [("port", .list 0 11 true), ("en", .num 0 1 1), ("auto", .num 0 1 1)] ["port", "en"]), ([("id", "31")], cmdC [heatKey] ["id"]),
   ([("id", "1"), ("at", "2"), ("resume", "0")], cmdC [heatKey, ("at", .lap), ("resume", .num 0 1 1)] ["id", "at"]), ([("id", "1"), ("at", "1")], cmdC [heatKey, ("at", .lap)] ["id"]), ([("id", "1")], cmdC [heatKey, ("at", .lap)] ["id"]),
   ([("addr", "309237645056"), ("len", "256")], cmdC [("addr", .num 0 (p2 64) 32), ("len", .num 256 (p2 32) 1)] ["addr", "len"])] ++
  [([("region", "255")], cmdC [("region", .num 0 255 1)] ["region"]), ([], anyC [.boot, .hold, .ready] [.boot, .hold, .ready] [] []), ([], anyC [.boot, .hold, .ready] [.boot, .hold] [] []), ([("step", "1-19")], anyC [.hold, .ready] [] [("step", .list 1 19 true)] []),
   ([("force", "1")], anyC [.hold, .ready, .black] [.hold, .black] [("force", .num 0 1 1)] []),
   ([("target", "marshal"), ("len", "2097152")], anyC [.hold, .ready] [] [("target", .word ["starter", "marshal"]), ("len", .num 256 8388608 1), ("addr", .num 0 (p2 64) 1)] ["target", "len"]),
   ([("off", "0"), ("d", "00fF")], anyC [.hold, .ready] [] [("off", .num 0 (p2 64) 1), ("d", .name)] ["off", "d"]), ([], anyC [.hold, .ready] [] [] []),
   ([("reg", "LAP_CTL"), ("value", "4")], cmdC [("reg", .name), ("value", .sgn (-(p2 63 : Nat)) (p2 64 : Nat)), ("field", .name), ("persist", .num 0 1 1)] ["reg", "value"]), ([("heat", "1,31")], anyC [.ready] [.ready] [("heat", .list 0 31 false)] [])]

/-- Port 11 locked at a parent, every heat stopped. -/
def parentS : State := con 19 id (lockS 1 0 (2 * 2 ^ 22))

/-- Heat 1 is stopped, its staged rectangle empty, or wider than the module. -/
def commitS (w : Nat) : State := con 19 id (regs [(F.HEAT_H_GEOM_w 1, w), (F.HEAT_H_GEOM_h 1, 1), (F.HEAT_H_STATE_state 1, 1), (F.HAL_RANK_valid 0, 1)] State.reset)

def transS (n : Nat) : State := con 19 (fun c => { c with transfer := some ⟨0, false, n, []⟩ }) State.reset

theorem witness_ConsoleActions : (∀ x ∈ actRows, Admitted (ready 1) (lin x.1) x.2 (argsOf x.2 (lin x.1))) ∧ (∀ x ∈ actRows, Admitted (ready 3) (lin x.1) x.2 (argsOf x.2 (lin x.1))) ∧ (∀ h < 32, parentS.heatSt h ≤ 1) ∧ parentS.bestParent = some (11, lockAt 0 (2 * 2 ^ 22)) ∧
    parentS.below 11 (lockAt 0 (2 * 2 ^ 22)) = false ∧ 1 < (ready 3).heatSt 1 ∧ (ready 1).bestParent = none ∧ (ready 1).get F.LAP_CFG_role ≠ 0 ∧ (ready 1).get F.LAP_HO_HI_valid = 0 ∧ (ready 1).laps.adopt = none ∧ (ready 1).laps.forceAt = none ∧
    (ready 1).lapState ≠ 2 ∧ (ready 1).lapState ≠ 3 ∧ (ready 1).con.claim = some 0 ∧ (ready 1).lapN + 32 ≤ 32 ∧ (ready 1).locked = false ∧ (ready 1).flashErr = none ∧ (ready 6).heatSt 1 = 6 ∧ ((commitS 1).heat 1).snap = none ∧ (commitS 1).heatSt 1 ≤ 1 ∧
    ((commitS 0).commitCheck 1 ((commitS 0).snapshot 1 line0)).2 = none ∧ ((commitS 9).commitCheck 1 ((commitS 9).snapshot 1 line0)).2.isSome = true ∧ (regs [(F.MAR_STATUS_state, 3)] (ready 1)).startErr 1 2 false = none ∧ ((ready 1).startErr 1 1 false).isSome = true ∧
    (ready 1).halTeam 1 = false ∧ (ready 1).heatSt 31 = 0 ∧ (ready 3).heatSt 1 = 3 ∧ (ready 3).lapN < 1 ∧ NoErrors (ready 1) ∧ (ready 1).getA (F.HEAT_H_CFG_scrub 1) = 0 ∧ farRange 309237645056 256 = true ∧ (ready 1).isOut 255 = false ∧ (ready 1).boot.holdAt = none ∧
    (holds (con 9 id State.reset)).boot.holdAt.isSome = true ∧ (holds (con 9 id State.reset)).get F.STA_BOOT_state ≠ 3 ∧ (∀ h < 32, heatBusy ((ready 1).heatSt h) = false) ∧ ((con 19 id { State.reset with boot := { BootSt.blank with jReadOnly := true } }).flashErr).isSome = true ∧
    (transS 2).con.transfer = some ⟨0, false, 2, []⟩ ∧ (∀ c ∈ "00fF".toList, (charHex c).isSome = true) ∧ 448 ≤ 448 ∧ 0 + 4 / 2 ≤ 2 ∧ Img.headerOk img = true ∧ (ready 1).get F.STA_SLOT_pending = 0 ∧
    (regs [(F.STA_SLOT_pending, 1)] (ready 1)).get F.STA_SLOT_pending = 1 ∧ (regLookup "LAP_CTL").map (fun n => ((ready 1).setValue n none 4, ((ready 1).setErr n 4 false).isNone)) = some (some 4, true) := by
  refine ⟨all_admitted (by decide +kernel), all_admitted (by decide +kernel), ?_, ?_, ?_, ?_, ?_, ?_, ?_, rfl, rfl, ?_, ?_, rfl, by decide,
    ?_, ?_, ?_, rfl, ?_, ?_, ?_, ?_, ?_, ?_, ?_, ?_, by decide, rfl, ?_, ?_, ?_,
    rfl, rfl, ?_, ?_, ?_, rfl, List.all_eq_true.mp (by decide +kernel), by decide, by decide, ?_, ?_, ?_, ?_⟩ <;> decide +kernel

/-! ### Witnesses: the management port and the module -/

/-- The port active with `n` words queued, behind the fabric's blocks where `open_`. -/
def mgtS (n : Nat) (open_ : Bool) (f : Option (Nat × Nat × Nat)) : State := { State.reset with boot := { BootSt.blank with aux := true, s15 := open_ }, mgt := { active := true, queue := List.replicate n (4, 0), fetch := f } }

theorem witness_ManagementPort : State.reset.mgt.active = false ∧ (mgtS 0 true none).mgt.active = true ∧ BitVec.toNat 1073#16 = 40 + 32 * (BitVec.toNat 31#5 + 1) + 8 * true.toNat + 1 ∧ BitVec.toNat 1072#16 = 40 + 32 * (BitVec.toNat 31#5 + 1) + 8 * true.toNat ∧
    regNamed (4 * BitVec.toNat 0xFFFFF#24) = none ∧ (8 ≤ BitVec.toNat 8#16 ∧ BitVec.toNat 71#16 < 40 + 32 * [(0 : Word)].length) ∧ BitVec.toNat 72#16 = 40 + 32 * [(0 : Word)].length ∧ mgtCrc 1 true 0 (BitVec.toNat 4#24) [0] ≠ (mgtCrc 1 true 0 (BitVec.toNat 4#24) [0] + 1) % 256 ∧
    standby (4 * BitVec.toNat 0x10000#24) = false ∧ (regs [(F.MAR_STATUS_lock, 1)] (mgtS 0 true none)).locked = true ∧ (mgtS 0 true none).locked = false ∧ (mgtS 0 false none).mgtClosed = true ∧ (mgtS 64 true none).mgtClosed = false ∧ 64 ≤ (mgtS 64 true none).mgt.queue.length ∧
    (mgtS 63 true none).mgt.queue.length < 64 ∧ (mgtS 1 true none).mgt.queue = (4, 0) :: [] ∧ (mgtS 0 true (some (4, 32, 1))).mgt.fetch = some (4, 32, 0 + 1) ∧ (mgtS 0 true (some (4, 32, 0))).mgt.fetch = some (4, 32, 0) ∧ 32 ≤ 32 := by
  refine ⟨rfl, rfl, by decide, by decide, ?_, by decide, by decide, ?_, by decide, ?_, ?_, ?_, ?_, by decide, by decide, rfl, rfl, rfl, by decide⟩ <;> decide +kernel

theorem witness_StepRunsTheFrontCommand : State.reset.pending = [] := rfl

theorem witness_StepKeepsMemoryCanonical : State.reset.memWf ∧ State.reset.regsWf ∧ ∃ t, step { State.reset with pending := [.auxApplied] } = .next t :=
  ⟨rfl, ⟨rfl, rfl, rfl⟩, _, rfl⟩

theorem witness_CoreInstructionsDecodeAsEncoded : (encodeCore (.add 2047 7 31 31 31)).isSome = true ∧ (encodeCore (.mma 0 7 7 15 15)).isSome = true := ⟨by decide, by decide⟩

/-! ### Witnesses: further clauses, at their boundaries -/

/-- Attachment 0 holds `n` posted bytes. -/
def postS (n : Nat) : State := { halfS with mem := { MemSt.blank with posted := [(0, n)] } }

theorem witness_HostMemoryWindow_2 : (postS 0xFFFFE).barWay 0 (0x48000000 - 2) 2 = .go (0x48000000 - 2) ∧ NoErrors (postS 0xFFFFE) ∧ (postS 0xFFFFE).memWf ∧ 0x48000000 - 2 + 2 ≤ 256 * 0x48000000 ∧
    Tab.get 0 (postS 0xFFFFE).mem.posted 0 + 2 ≤ 0x100000 ∧ 0x100000 < Tab.get 0 (postS 0xFFFFF).mem.posted 0 + 2 ∧ (postS 0xFFFFE).barWay 0 (2 ^ 36 - 1) 2 = .drop ∧ (postS 0xFFFFE).barWay 0 (8 * 0x48000000) 2 = .foreign 1 := by
  refine ⟨?_, rfl, rfl, by decide, by decide, by decide, ?_, ?_⟩ <;> decide +kernel

/-- A register has no effect of its own on a write by the console. -/
def plain (s : State) (off : Nat) : Bool := match regNamed off with | some (r, l, false) => (s.regDoes .console r l 1).isNone && s.reaches .console off | _ => false

theorem witness_RegisterWriteKinds_2 : AccWidth.half ≠ .word ∧ plain State.reset R.LAP_EVT.off = true ∧ plain State.reset R.LAP_NOW_LO.off = true ∧ plain (heat1 3 State.reset) (R.NUM_CFG 5).off = true ∧ plain State.reset R.DMA_FW0_SIZE.off = true ∧
    plain (heat1 3 State.reset) (R.CORE_ENTRY 5).off = true ∧ plain State.reset (R.HAL_LBUF 5 0).off = true ∧ (named (R.HAL_LBUF 5 0).off).map (fun x => (x.1, x.2.1, x.2.2.2)) = some ("HAL_LBUF", .rw, false) := by
  refine ⟨by decide, ?_, ?_, ?_, ?_, ?_, ?_, ?_⟩ <;> decide +kernel

theorem witness_RegisterReads_2 : (BitVec.toNat 0x10#26) % 4 = 0 ∧ BitVec.toNat 0x12#26 % 2 = 0 ∧ BitVec.toNat 0x12#26 / 4 * 4 = 0x10 ∧ regNamed (BitVec.toNat 0x3FFFFFE#26 / 4 * 4) = none := by
  refine ⟨by decide, by decide, by decide, ?_⟩ ; decide +kernel

/-- A bid of priority 0 is the module's own, and another module's was the best. -/
def lostS : State := lapS 1 fun l => { l with electing := some 0, best := some (0, 1), own := some (0, 2) }

theorem witness_LapElection_2 : lostS.laps.electing = some 0 ∧ lostS.laps.best = some (0, 1) ∧ 1 ≠ lostS.selfAddr ∧ lostS.upPorts ≠ [] ∧ lostS.laps.own.map (·.1) = some 0 ∧ (lapS 1 id).laps.own.map (·.1) ≠ some 0 ∧
    (lapS 1 fun l => { l with electing := some (31 + 1) }).laps.electing = some (31 + 1) ∧ (lapS 1 fun l => { l with ports := [(11, ⟨[], none, some (CB.pri bid, CB.pacer bid, 2), [], none⟩)] }).lapPort 11 = ⟨[], none, some (CB.pri bid, CB.pacer bid, 3 - 1), [], none⟩ := by
  refine ⟨rfl, rfl, ?_, ?_, ?_, ?_, rfl, ?_⟩ <;> decide +kernel


/-- A candidate marker one lap before the block of `mark` at lap 3. -/
def candS (st n : Nat) : State := lapS st fun l => { l with s17 := true, ports := [(11, ⟨[⟨CB.lap mark - 1, (2 * 262144) * 16, n⟩], none, none, [], none⟩)] }

/-- Four candidates of one lap ago. -/
def fourS : State := lapS 1 fun l => { l with s17 := true, ports := [(11, ⟨List.replicate 4 ⟨1, 2 * 4194304 + 4096, 1⟩, none, none, [], none⟩)] }

theorem witness_LapMarkersAndHoldover_2 : (lapS 1 id).laps.s17 = false ∧ CB.ok mark = true ∧ (lockS 3 0 (2 * 2 ^ 22)).lapState = 3 ∧ (lockS 3 0 (2 * 2 ^ 22)).get F.LAP_STATUS_parent ≠ 11 ∧ (regs [(F.LAP_STATUS_parent, 11), (F.LAP_PACER_addr, CB.pacer mark)] (lockS 3 0 (2 * 2 ^ 22))).get F.LAP_STATUS_parent = 11 ∧
    (regs [(F.LAP_STATUS_parent, 11), (F.LAP_PACER_addr, CB.pacer mark)] (lockS 3 0 (2 * 2 ^ 22))).get F.LAP_PACER_addr = CB.pacer mark ∧ CB.ho mark = false ∧ (lockAt 2 0).bad ≥ 2 ∧ (lockAt 1 0).bad < 2 ∧
    ((decide ((3 * 262144 + 2) * 16 + 0 - CB.lag mark ≤ (lockAt 0 0).time + 4194304 + 32 ∧ (lockAt 0 0).time + 4194304 ≤ (3 * 262144 + 2) * 16 + 0 - CB.lag mark + 32)) && (CB.ok mark && decide (CB.lap mark = (lockAt 0 0).lap + 1))) = false ∧
    (fourS.lapPort 11).lock = none ∧ (fourS.lapPort 11).cands.length = 4 ∧ (∀ c ∈ (fourS.lapPort 11).cands, (3 * 262144 + 2) * 16 + 0 - CB.lag mark + 32 < c.time + 4194304) ∧
    ((candS 2 3).lapPort 11).cands = [⟨CB.lap mark - 1, (2 * 262144) * 16, 3⟩] ∧ CB.lap mark = CB.lap mark - 1 + 1 ∧ (3 * 262144 + 2) * 16 + 0 - CB.lag mark ≤ 2 * 262144 * 16 + 4194304 + 32 ∧ 2 * 262144 * 16 + 4194304 ≤ (3 * 262144 + 2) * 16 + 0 - CB.lag mark + 32 ∧ (candS 2 3).lapState = 2 := by
  refine ⟨rfl, ?_, ?_, ?_, ?_, ?_, ?_, by decide, by decide, ?_, rfl, rfl, ?_, rfl, ?_, ?_, ?_, ?_⟩ <;> decide +kernel

theorem witness_LapMarkersAndHoldover_3 : ((lockS 3 2 (2 ^ 22)).lapPort 11).lock = some (lockAt 2 (2 ^ 22)) ∧ (lockS 3 2 (2 ^ 22)).lapState = 3 ∧ (∀ q < 12, q ≠ 11 → ((lockS 3 2 (2 ^ 22)).lapPort q).lock = none) ∧
    ownLap (((lockAt 2 (2 ^ 22)).time : Int) + 4194304 - (lockS 3 2 (2 ^ 22)).delayOf 11) * 4194304 + (lockS 3 2 (2 ^ 22)).delayOf 11 + 4096 ≤ (((lockS 3 2 (2 ^ 22)).now * 16 : Nat) : Int) ∧ (lockAt 2 (2 ^ 22)).bad ≥ 2 := by
  refine ⟨rfl, ?_, ?_, ?_, by decide⟩ <;> decide +kernel

/-- For each port the condition that a probe is due on it is a value. -/
theorem witness_LapBoundaryAndDelay_2 (s : State) : (∃ due : Nat → Bool, ∀ p, due p = true ↔ (s.portUp p = true → s.stride = 1024 ∧ (s.lapPort p).probed.map (· / 262144) ≠ some s.lapN) ∧
      (s.portUp p = false → (s.port p).step = 6 ∧ (s.lapPort p).probed.map (· / 128) ≠ some (s.now / 128))) ∧ (State.fabricOn { State.reset with boot := { BootSt.blank with main := true, step := 8 }, laps := { State.reset.laps with raise_ := some 9 } } = true) ∧
    (lapS 1 id).lapState ≠ 2 ∧ (lapS 2 id).lapState = 2 ∧ (((lapS 1 fun l => { l with ports := [(11, ⟨[], none, none, List.replicate 15 3, none⟩)] }).lapPort 11).samples.length = 15) :=
  ⟨⟨fun p => decide ((s.portUp p = true → s.stride = 1024 ∧ (s.lapPort p).probed.map (· / 262144) ≠ some s.lapN) ∧
      (s.portUp p = false → (s.port p).step = 6 ∧ (s.lapPort p).probed.map (· / 128) ≠ some (s.now / 128))), fun _ => decide_eq_true_iff⟩, by decide, by decide +kernel, by decide +kernel, rfl⟩

/-- A team operation of heat 1 with number 0, whose first record came at fc 0 and whose child's record lacks. -/
def lateS (lap : Nat) (l : Tab Nat) : State := teamS (halS lap { (opH (opS 0 (some 0) none none)) with teamAt := l })

theorem witness_HalyardRecordsAndTimeouts_2 : (∀ e ∈ (lateS 8 []).halH 1 |>.teamAt, False) ∧ (lateS 7 [(0, 0)]).now < 0 + 8 * 262144 ∧ (lateS 8 [(0, 0)]).teamLate 1 = 0 :: [] ∧
    ((lateS 8 [(0, 0)]).halH 1).ops.find? (fun o => o.team == some 0) = some (opS 0 (some 0) none none) ∧ (halS 8 (opH (opS 0 none none none))).halFixed 1 (opS 0 none none none) = 0 ∧ (opS 0 none none none).recs ≠ [] ∧
    (opS 0 none none none).final = none := by
  refine ⟨?_, ?_, ?_, rfl, ?_, by decide, rfl⟩ <;> decide +kernel

/-- The Halyard's taint register holds lap 5. -/
def taint5 : State := regs [(F.HAL_TAINT_HI_valid, 1), (F.HAL_TAINT_LO_lap_lo, 5)] (teamS (halS 0 HalHeat.blank))

/-- A taint of lap 7 waits at the parent's port. -/
def taintQ : State := (teamS (halS 0 HalHeat.blank)).modPort 11 fun b => { b with exQ := [(0, [[(teamS (halS 0 HalHeat.blank)).taintHead 1 0, taintFlit 1 7]])] }

/-- A record for team operation 0 of heat 1, of op 8. -/
def upFrame0 : List Flit := [BitVec.ofNat 256 (1 * 2 ^ 10 + 8 * 2 ^ 36)]

theorem witness_HalyardLoweringsAndFrames_2 : State.reset.teamOpen 1 = false ∧ (teamS (halS 0 HalHeat.blank)).teamOpen 1 = true ∧ (teamS (halS 0 HalHeat.blank)).halParent 1 = 11 ∧ (teamS (halS 0 HalHeat.blank)).get F.HAL_TAINT_HI_valid = 0 ∧
    taint5.teamOpen 1 = true ∧ taint5.get F.HAL_TAINT_HI_valid = 1 ∧ BitVec.toNat 4#48 < taint5.get48 F.HAL_TAINT_LO_lap_lo F.HAL_TAINT_HI_lap_hi ∧ taint5.get48 F.HAL_TAINT_LO_lap_lo F.HAL_TAINT_HI_lap_hi ≤ BitVec.toNat 5#48 ∧
    (Tab.get [] ((teamS (halS 0 HalHeat.blank)).port 11).exQ 0 = []) ∧ (11 : Nat) ≠ Fin.val (n := 12) 0 ∧ taintQ.teamOpen 1 = true ∧ taintQ.halParent 1 = 11 ∧ Tab.get [] (taintQ.port 11).exQ 0 = [[taintQ.taintHead 1 0, taintFlit 1 7]] := by
  refine ⟨?_, ?_, ?_, ?_, ?_, ?_, ?_, ?_, rfl, by decide, ?_, ?_, ?_⟩ <;> decide +kernel

theorem witness_HalyardLoweringsAndFrames_3 : ((teamS (halS 0 HalHeat.blank)).frameIn 11 true (exFrame 0 upFrame0)).1 = some (upFrame0.headD 0 :: []) ∧ ((teamS (halS 0 HalHeat.blank)).frameIn 11 true (exFrame 0 upFrame0)).2.on (F.BTN_P_STATUS_local_nr 11) = false ∧
    ((teamS (halS 0 HalHeat.blank)).frameIn 11 true (exFrame 0 upFrame0)).2.teamOpen 1 = true ∧ ((teamS (halS 0 HalHeat.blank)).frameIn 11 true (exFrame 0 upFrame0)).2.teamOver 1 0 = false ∧ (upFrame0.headD 0).toNat / 2 ^ 10 % 32 = 1 ∧ (upFrame0.headD 0).toNat / 2 ^ 15 % 2 ^ 16 = 0 ∧
    (upFrame0.headD 0).toNat / 2 ^ 32 % 16 < 10 ∧ (upFrame0.headD 0).toNat / 2 ^ 31 % 2 = 0 ∧ (upFrame0.headD 0).toNat / 2 ^ 36 % 16 ∈ [0, 5, 8] ∧ ((teamS (halS 0 HalHeat.blank)).frameIn 11 true (exFrame 0 upFrame0)).2.teamUps 1 0 = [] ∧
    (((teamS (halS 0 HalHeat.blank)).frameIn 11 true (exFrame 0 upFrame0)).2.halH 1).ops = [] ∧ ((halS 0 HalHeat.blank issuer).core 5).halRef = [] ∧ (Tab.find (((teamS (halS 0 HalHeat.blank)).frameIn 11 true (exFrame 0 upFrame0)).2.halH 1).teamAt 0).isSome = false := by
  refine ⟨?_, ?_, ?_, ?_, by decide, by decide, by decide, by decide, by decide, ?_, ?_, rfl, ?_⟩ <;> decide +kernel

/-- Lanes of a codeword of zeros but for its last 16 symbols. -/
def badLanes : List (List (BitVec 10)) := List.replicate 8 (List.replicate 66 0 ++ [1, 1])

theorem gfMul_zero (x : Nat) : gfMul 0 x = 0 := by simp [gfMul, List.range, List.range.loop]

theorem syndrome_zeros (x n : Nat) : (List.replicate n 0).foldl (fun v a => gfMul v x ^^^ a) 0 = 0 := by
  induction n with
  | zero => rfl
  | succ n ih => rw [List.replicate_succ, List.foldl_cons, gfMul_zero]; exact ih

theorem rsOutcome_zeros : rsOutcome (fromLanes []) = 0 := by
  have e : fromLanes [] = List.replicate 544 0 := by decide +kernel
  have h : rsSyndromes (fromLanes []) = List.replicate 30 0 := by simp only [rsSyndromes, e, syndrome_zeros]; rfl
  unfold rsOutcome
  rw [h]
  rfl

/-- Sixteen symbol errors in turn are more than the code corrects (R468). -/
theorem rsOutcome_bad : rsOutcome (fromLanes badLanes) = 2 := by
  have e : fromLanes badLanes = List.replicate 528 0 ++ List.replicate 16 1 := by decide +kernel
  have h : rsSyndromes (fromLanes badLanes) = rsSyndromes (List.replicate 16 1) := by
    simp only [rsSyndromes, e, List.foldl_append, syndrome_zeros]
  have h1 : (rsSyndromes (List.replicate 16 1)).all (· == 0) = false := by decide +kernel
  have h2 : ((List.range rsChecks).foldl (Locator.step (rsSyndromes (List.replicate 16 1))) ⟨[1], 0, [0, 1], 1⟩).len = 16 := by decide +kernel
  unfold rsOutcome
  rw [h]
  dsimp only
  rw [h1, h2]
  rfl

/-- It is `ms` ms in step S-16. -/
def s16 (n ms : Nat) : State := { prt 3 1 (fun b => { b with cwGood := n, frLost := 100, waitX := 7, replayX := [sentN 15] }) with boot := { BootSt.blank with step := 16, t0 := 5, stepMs := 40, ms := ms } }

theorem witness_BatonTrainingAndRetry_2 : (0 : Nat) = rsOutcome (fromLanes []) ∧ 2 = rsOutcome (fromLanes badLanes) ∧ (prt 3 0 id).portSt 11 ≠ 7 ∧ 3 ≤ (prt 3 0 id).portSt 11 ∧ (prt 3 0 id).get (F.BTN_P_STATUS_cw_lock 11) = 0 ∧ (s16 3 0).boot.ms < 5 + 40 + 100 ∧
    (s16 3 145).get (F.STA_STEP_alt 16) = 0 ∧ (s16 3 145).boot.t0 + (s16 3 145).boot.stepMs + 100 ≤ (s16 3 145).boot.ms ∧ (s16 3 145).portSt 11 = 3 ∧ (s16 3 145).now < ((s16 3 145).port 11).frLost + 1200000 ∧ (s16 3 145).now < ((s16 3 145).port 11).waitX + 2400 ∧
    ((s16 3 145).port 11).waitX + 2400 ≤ ({ s16 3 145 with pos := 2407 } : State).now ∧ ((prt 5 0 fun b => { b with frLost := 3 }).port 11).frLost + 1200000 ≤ ({ prt 5 0 (fun b => { b with frLost := 3 }) with lap := 5 } : State).now ∧
    (prt 5 0 id).portSt 11 ≠ 3 ∧ (prt 5 0 id).get (F.BTN_P_STATUS_fr_lock 11) = 0 ∧ (prt 5 1 id).portSt 11 ≠ 7 := by
  refine ⟨rsOutcome_zeros.symm, rsOutcome_bad.symm, ?_, ?_, ?_, by decide, ?_, ?_, ?_, by decide, by decide, by decide, by decide, ?_, ?_, ?_⟩ <;> decide +kernel

/-- Port 11 has a control block that was due, or will be, and `n` bits of a codeword. -/
def slotP (at_ n : Nat) : State := prt 5 1 fun b => { b with ctlQ := [(at_, 4)], curB := [3], slots := 62, txN := n }

theorem witness_BatonFrames_2 : ((slotP 15 0).port 11).curX = [] ∧ ((slotP 15 0).port 11).ctlQ = (15, 4) :: [] ∧ 15 ≤ 16 * (slotP 15 0).now + BitVec.toNat 15#4 ∧ ((slotP 15 0).port 11).slots ≤ 62 ∧ (slotP 15 0).portSt 11 ∈ [3, 4, 5] ∧
    ((prt 2 1 fun b => { b with curB := [3] }).port 11).curB = 3 :: [] ∧ (prt 2 1 fun b => { b with curB := [3] }).nextExpress 11 = none ∧ (prt 2 1 id).portSt 11 ∈ [2, 3, 4, 5, 6] ∧ ((prt 2 1 id).port 11).ctlQ = [] ∧
    ((slotP 0 4883).port 11).txN + 256 < 5140 ∧ 5140 ≤ ((slotP 0 4884).port 11).txN + 256 := by
  refine ⟨rfl, rfl, by decide, by decide, ?_, rfl, ?_, ?_, rfl, ?_, ?_⟩ <;> decide +kernel

/-- A flit that carries an uncorrectable error has come to router 2 of no heat. -/
def noisy : State := { meshOn State.reset with mesh := { MeshSt.blank with flights := [⟨0, 2, 1, ⟨true, true, 0, 5, false, 0⟩, false⟩] } }

theorem witness_RoutersAndControlFlits_2 : Tab.get 0 noisy.mesh.acted 2 ≠ noisy.now + 1 ∧ 9 ≤ noisy.boot.step ∧ noisy.mesh.flights = [⟨noisy.now, 2, 1, ⟨true, true, 0, 5, false, 0⟩, false⟩] ∧ noisy.coreOwner 2 = none ∧ noisy.mesh.relays = [] ∧
    Tab.get [] noisy.mesh.ctrl 2 = [] ∧ attachAt 2 = none ∧ BitVec.toNat 2#4 / 2 ^ 1 % 2 = 1 ∧ (noisy.laneInputs 2 noisy.fcIn []).1 = [] ∧ ((meshOn State.reset).laneInputs 5 0 []).1 = [] ∧ (slotS.coreOwner 5 = some 1 ∧ (slotS.core 5).run = .running) ∧
    Tab.find ({ slotS with mesh := { MeshSt.blank with stopSeen := [(5, 6)] } } : State).mesh.stopSeen 5 = some 6 ∧ Nat.lor 6 2 = 6 ∧ Nat.lor 6 1 ≠ 6 ∧
    ({ State.reset with pos := 2048, pwr := { State.reset.pwr with due := true } } : State).pwr.due = true ∧ State.reset.mesh.clkReq = [] := by
  refine ⟨by decide, by decide, rfl, ?_, rfl, rfl, ?_, by decide, ?_, ?_, ?_, rfl, by decide, by decide, rfl, rfl⟩ <;> decide +kernel

/-- Page 0 of heat 1 is moving from tier `t` to the next, as keeper 63's only move. -/
def moveS (t : Nat) : State := { (heatS 3 HeatRec.blank).putPft 1 0 { Pft.ofNat 0 with tier := t, moving := true } with kv := ⟨[(1 * 64 + 63, [⟨0, t + 1, 0, true⟩])], [], []⟩ }

theorem witness_HeatCycleEvents_2 : (moveS 1).kvMoves 1 63 = [⟨0, 2, 0, true⟩] ∧ ((moveS 1).pft 1 0).moving = true ∧ ((moveS 1).pft 1 0).tier = 1 ∧ NoErrors (moveS 1) ∧ (moveS 2).kvMoves 1 63 = [⟨0, 3, 0, true⟩] ∧ ((moveS 2).pft 1 0).moving = true ∧ ((moveS 2).pft 1 0).tier = 2 ∧ NoErrors (moveS 2) ∧
    (heatS 2 { HeatRec.blank with start := some (0, true, none) }).heatSt 1 = 2 ∧ ((heatS 2 { HeatRec.blank with start := some (0, true, none) }).heat 1).start = some (0, true, none) ∧ ((ranked fun c => { c with run := .halted }).core 5).run = .halted := by
  refine ⟨rfl, ?_, ?_, ?_, rfl, ?_, ?_, ?_, ?_, rfl, rfl⟩ <;> first | decide +kernel | rfl

/-- Heat 1 has one operation and is a heat of its own. -/
theorem witness_MarshalReports_2 : seesFault 0x201 (.product 7 5 34) = true ∧ seesFault 0x201 (.product 7 5 35) = false ∧ 7 % 3 * (5 % 3) % 3 = 35 % 3 ∧ seesFault 0x203 (.product 7 5 34) = false ∧ seesFault 0x303 .found = true ∧ (0x20D : Nat) < 0x2FF ∧
    ((halS 0 (opH (opS 0 none none none))).halH 1).ops = opS 0 none none none :: [] ∧ (opS 0 none none none).final = none ∧ (opS 0 none none none).team = none ∧ seesFault 0x201 .found = true ∧ (marS [] id).checks 0x205 2047 = true ∧ (marS [] id).checks 0x303 5 = true := by
  refine ⟨by decide, by decide, by decide, by decide, rfl, by decide, rfl, rfl, rfl, rfl, by decide, by decide⟩

/-- A mailbox of a session is full since 5 ms, and the tunnel session's last line came at 7 ms. -/
def fullS (ms : Nat) : State :=
  { con 19 (sess1 2 (.mailbox 1) id) State.reset with boot := { (con 19 (sess1 2 (.mailbox 1) id) State.reset).boot with ms := ms }, con := { (con 19 (sess1 2 (.mailbox 1) id) State.reset).con with mail := [(1, { Mailbox.blank with fullMs := some 5 })] } }

def idleS (ms : Nat) : State := { con 19 (sess1 3 (.tunnel 1 0) fun x => { x with lastMs := 7 }) State.reset with boot := { (con 19 id State.reset).boot with ms := ms } }

theorem witness_ConsoleTransports_2 : (fullS 10004).sessionOf (.mailbox 1) = some 2 ∧ ((fullS 10004).mailbox 1).fullMs = some 5 ∧ (fullS 10004).boot.ms < 5 + 10000 ∧ 5 + 10000 ≤ (fullS 10005).boot.ms ∧ Tab.wf (fullS 10005).con.sess = true ∧
    (idleS 60006).session 3 = some { (Endpoint.tunnel 1 0).fresh false with lastMs := 7 } ∧ (idleS 60006).boot.ms < 7 + 60000 ∧ 7 + 60000 ≤ (idleS 60007).boot.ms ∧ Tab.wf (idleS 60007).con.sess = true ∧
    (con 19 (fun c => { c with routed := [⟨line0, 1, [], [], false, 3⟩] }) { State.reset with boot := { BootSt.blank with ms := 10003 } }).con.routed = [⟨line0, 1, [], [], false, 3⟩] ∧ Endpoint.mailbox 1 ∉ (ready 1).con.refused ∧ (ready 1).boot.restarting = false := by
  refine ⟨?_, ?_, ?_, ?_, ?_, ?_, ?_, ?_, ?_, rfl, ?_, ?_⟩ <;> decide +kernel

def getC : Cmd := { classC := false, modes := [.hold, .ready], keys := [("reg", Form.name), ("field", .name), ("view", .word ["staged", "active"])], req := ["reg"] }

theorem witness_ConsoleShows_2 : Admitted teamEn (lin [("reg", "CORE_ENTRY.5"), ("field", "ENTRY"), ("view", "active")]) getC (argsOf getC (lin [("reg", "CORE_ENTRY.5"), ("field", "ENTRY"), ("view", "active")])) ∧
    (regLookup "CORE_ENTRY.5").map (fun n => (n.spec.acc == .ws, teamEn.blockUp n.spec n.off, (teamEn.fieldNamed n "ENTRY").isSome)) = some (true, true, true) ∧ (argsOf getC (lin [("reg", "CORE_ENTRY.5"), ("field", "ENTRY"), ("view", "active")])).str? "field" = some "ENTRY" ∧
    (argsOf getC (lin [("reg", "LAP_CTL")])).str? "field" = none ∧ Admitted teamEn (lin []) { classC := false, modes := [.hold, .ready] } [] := by
  refine ⟨admitted (c := getC) ?_, ?_, ?_, ?_, admitted (c := { classC := false, modes := [.hold, .ready] }) ?_⟩ <;> decide +kernel

def injC : Cmd := cmdC [("kind", .num 0 12 1), ("site", .num 0 65535 1), ("heat", .num 0 31 1), ("at", .pos)] ["kind", "site", "heat", "at"]
def injA (at_ : String) : Args := argsOf injC (lin [("kind", "9"), ("site", "5"), ("heat", "1"), ("at", at_)])
def teamC : Cmd := cmdC [("heat", .num 0 31 1), ("id", .num 0 63 1), ("en", .num 0 1 1), ("ox", .num 0 15 1), ("oy", .num 0 7 1), ("oz", .num 0 7 1), ("ex", .num 1 16 1), ("ey", .num 1 8 1), ("ez", .num 1 8 1), ("rx", .num 0 15 1), ("ry", .num 0 7 1), ("rz", .num 0 7 1)] ["heat"]
def teamA (l : List (String × String)) : Args := argsOf teamC (lin l)

/-- Core 5 is fenced, heat 1 runs. -/
def fencedS : State := { ready 3 with fuse := { State.reset.fuse with fenced := [5] } }

/-- Heat 1 is of a team, with its parent on port `p`. -/
def teamUpS (p : Nat) : State := con 19 id (acts [(F.HAL_H_CFG_team 1, 1), (F.HAL_H_TREE_parent_port 1, p), (F.TEAM_H_CFG_en 1, 1)] (regs [(F.MAR_STATUS_state, 3)] (heat1 1 State.reset)))

theorem witness_ConsoleSettings_2 : (injA "1:2047+127").pos "at" = (1, 2047, some 127) ∧ (injA "0:0").pos "at" = (0, 0, none) ∧ (injA "0:0").nat "kind" = 9 ∧ (ready 1).injOk 9 5 1 = false ∧ (ready 3).injOk 9 5 1 = true ∧ (injA "0:0").nat "site" = 5 ∧
    ({ ready 1 with mar := { MarSt.blank with lockUsed := true } } : State).mar.lockUsed = true ∧ (argsOf (cmdC [("persist", .num 0 1 1)] []) (lin [("persist", "1")])).nat "persist" = 1 ∧ (ready 1).flashErr = none ∧
    (ready 1).teamMisfit (teamA [("heat", "1"), ("ox", "1")]) 1 = some "ox" ∧ (ready 3).teamMisfit (teamA [("heat", "1")]) 1 = none ∧ heatBusy ((ready 3).heatSt 1) = true ∧ (ready 3).heatSt 1 ≠ 6 := by
  refine ⟨?_, ?_, ?_, ?_, ?_, ?_, rfl, ?_, ?_, ?_, ?_, ?_, ?_⟩ <;> decide +kernel

def coreA (v : String) : Args := argsOf (cmdC [("core", .list 0 2047 true)] ["core"]) (lin [("core", v)])

theorem witness_ConsoleSettings_3 : fencedS.numCores (lin [("core", "5")]) (coreA "5") = [5] ∧ fencedS.fenced 5 = true ∧ fencedS.numCores (lin [("core", "6")]) (coreA "6") = [6] ∧ fencedS.fenced 6 = false ∧ fencedS.coreOwner 6 = some 1 ∧ heatLive (fencedS.heatSt 1) = true ∧
    heatLive ((ready 1).heatSt 1) = false ∧ fencedS.numCores (lin [("core", "all")]) (coreA "all") ≠ [] ∧ (ready 3).get F.MAR_STATUS_lock = 0 ∧ (regs [(F.MAR_STATUS_lock, 1)] (ready 3)).get F.MAR_STATUS_lock = 1 ∧ (argsOf (cmdC heatSetKeys ["id"]) (lin [("id", "1"), ("w", "8")])).has "w" = true ∧
    12345 ∉ uartRates ∧ (con 19 busySess State.reset).con.claim = some 0 := by
  refine ⟨?_, by decide, ?_, by decide, ?_, ?_, ?_, ?_, ?_, ?_, ?_, by decide, rfl⟩ <;> decide +kernel

theorem witness_ConsoleActions_2 : (teamUpS 15).startErr 1 2 false = none ∧ (teamUpS 15).halTeam 1 = true ∧ (teamUpS 15).teamSetupBad 1 = false ∧ (teamUpS 11).startErr 1 2 false = none ∧ (teamUpS 11).halTeam 1 = true ∧ (teamUpS 11).teamSetupBad 1 = true ∧
    farRange 309237645057 256 = false ∧ (holds (regs [(F.STA_BOOT_state, 3)] (con 9 id State.reset))).get F.STA_BOOT_state = 3 ∧ (holds (con 9 id State.reset)).boot.step < 12 ∧ (ready 1).boot.holdAt = none ∧ (ready 1).lapState = 0 ∧ (con 19 id (lapS 4 id)).lapState = 4 ∧
    (con 19 id (lapS 3 id)).lapState = 3 ∧ (ready 1).lapN + 2 ≤ 2 ∧ ¬ (ready 1).heatSt 1 = 0 := by
  refine ⟨?_, ?_, ?_, ?_, ?_, ?_, ?_, ?_, by decide, rfl, ?_, ?_, ?_, by decide, ?_⟩ <;> decide +kernel

theorem witness_ConsoleActions_3 : (regLookup "LAP_CTL").map (fun n => ((ready 1).fieldNamed n "no", ((ready 1).fieldNamed n "out_en").isSome, (ready 1).setValue n ((ready 1).fieldNamed n "out_en") 2, (ready 1).setValue n ((ready 1).fieldNamed n "out_en") 1)) = some (none, true, none, some 1) ∧
    (regLookup "CORE_ENTRY.5").map (fun n => (ready 3).setErr n 4 false) = some (some ("0312 HEAT RUNNING", none)) ∧ (regLookup "LAP_NOW_LO").map (fun n => (ready 3).setErr n 4 false) = some (some (outOfRange, some "reg")) ∧
    parentS.below 11 (lockAt 0 (2 * 2 ^ 22)) = false ∧ (con 19 id (lockS 1 0 (9 * 2 ^ 22))).below 11 (lockAt 0 (9 * 2 ^ 22)) = true ∧ (con 19 id (lockS 1 0 (9 * 2 ^ 22))).bestParent = some (11, lockAt 0 (9 * 2 ^ 22)) := by
  refine ⟨?_, ?_, ?_, ?_, ?_, ?_⟩ <;> decide +kernel

/-! ### Single steps -/

/-- What a step answers, or the state itself. -/
def after (s : State) : State := match step s with | .next t => t | _ => s

def front (i : Instr) (s : State) : State := { s with pending := [i] }

/-- Table 6-6: ADD modulo 2^64, the destination also a source, at the next instruction word. -/
theorem test_add_wraps : ((after (front (.add 5 0 1 1 2) (sregs 0xFFFFFFFFFFFFFFFF 1 0))).core 5).sv 1 = 0 ∧ ((after (front (.add 5 0 1 1 2) (sregs 0xFFFFFFFFFFFFFFFF 1 0))).core 5).pc = 4 := by decide +kernel
/-- An instruction that has not issued leaves the core as it was: guard p1 is zero. -/
theorem test_guard_zero : ((after (front (.add 5 1 1 1 2) (sregs 3 1 0))).core 5).sv 1 = 3 ∧ ((after (front (.add 5 1 1 1 2) (sregs 3 1 0))).core 5).pc = 4 := by decide +kernel
/-- ST8 writes one byte, at the scratchpad's last. -/
theorem test_store_byte : spByte (after (front (.st8 5 0 3 1 0) (sregs 0xBFFFF 0 0x1A5))) 5 0xBFFFF = 0xA5 ∧ spByte (after (front (.st8 5 0 3 1 0) (sregs 0xBFFFF 0 0x1A5))) 5 0xBFFFE = 0 := by decide +kernel
/-- R625: the standby clock starts at zero, in the next epoch. -/
theorem test_aux : (after (front .auxApplied State.reset)).boot.epoch = 1 ∧ (after (front .auxApplied State.reset)).pending = [] := by decide +kernel
/-- A command taken, the rest waits. -/
theorem test_queue_order : (after { State.reset with pending := [.auxApplied, .powerUp] }).pending = [.powerUp] := by decide +kernel
/-- Table 0-3: a write of ones to a W1C register clears its bits. -/
theorem test_w1c : (after (front (.registerWrite .console .word (BitVec.ofNat 26 R.LAP_EVT.off) 0xFFFFFFFF) (State.reset.put F.LAP_EVT_expired 1))).get F.LAP_EVT_expired = 0 := by decide +kernel
/-- Console output of a UART session: `unclaim` of the holder answers OK. -/
theorem test_unclaim : (after (front (.unclaim (lin [])) (ready 1))).con.claim = none := by decide +kernel

end Sys2Proof.Tests
end

/-! The time of the module, its lap and position with the lap state, across the operations that other parts share: only what
turns a lap sets it. -/

namespace Sys2Proof.Machine

/-- `t` has the lap, the position and the lap state of `s`. -/
@[simp] abbrev State.KeepsTime (s t : State) : Prop := t.lap = s.lap ∧ t.pos = s.pos ∧ t.laps = s.laps

theorem State.KeepsTime.trans {s t u : State} (h : s.KeepsTime t) (h' : t.KeepsTime u) : s.KeepsTime u :=
  ⟨h'.1.trans h.1, h'.2.1.trans h.2.1, h'.2.2.trans h.2.2⟩

/-- What each update of a list keeps of the time, the whole keeps. -/
@[simp] theorem State.each_keepsTime {α : Type} (s : State) (l : List α) (f : State → α → State)
    (hf : ∀ t a, State.KeepsTime t (f t a)) : s.KeepsTime (s.each l f) :=
  State.each_keeps s.KeepsTime f (fun t a h => by simpa [hf t a] using h) l s ⟨rfl, rfl, rfl⟩

/-- The time of a state chosen by a condition. -/
@[simp] theorem State.lap_ite (c : Prop) [Decidable c] (s t : State) : (if c then s else t).lap = if c then s.lap else t.lap :=
  apply_ite State.lap c s t

@[simp] theorem State.pos_ite (c : Prop) [Decidable c] (s t : State) : (if c then s else t).pos = if c then s.pos else t.pos :=
  apply_ite State.pos c s t

@[simp] theorem State.laps_ite (c : Prop) [Decidable c] (s t : State) :
    (if c then s else t).laps = if c then s.laps else t.laps := apply_ite State.laps c s t

@[simp] theorem State.raise_keepsTime (s : State) (r : Reg) (w : Nat) : s.KeepsTime (s.raise r w) := ⟨rfl, rfl, rfl⟩
@[simp] theorem State.flag_keepsTime (s : State) (f : Fld) : s.KeepsTime (s.flag f) := ⟨rfl, rfl, rfl⟩

/-! ### Console output -/

@[simp] theorem State.express_keepsTime (s : State) (p k : Nat) (fl : List Flit) : s.KeepsTime (s.express p k fl) := by
  unfold State.express
  split <;> simp

@[simp] theorem State.tunnelSend_keepsTime (s : State) (d n : Nat) (bs : List Byte) : s.KeepsTime (s.tunnelSend d n bs) := by
  unfold State.tunnelSend
  split <;> simp

@[simp] theorem State.modMail_keepsTime (s : State) (pf : Nat) (f : Mailbox → Mailbox) : s.KeepsTime (s.modMail pf f) :=
  ⟨rfl, rfl, rfl⟩

@[simp] theorem State.mailSignal_keepsTime (s : State) (pf : Nat) : s.KeepsTime (s.mailSignal pf) := by
  unfold State.mailSignal
  dsimp only
  split
  · simp
  · split <;> simp

@[simp] theorem State.noRoom_keepsTime (s : State) (x : Session) : s.KeepsTime (s.noRoom x) := by
  unfold State.noRoom
  split <;> simp

@[simp] theorem State.ringOut_keepsTime (s : State) (pf : Nat) (bs : List Byte) : s.KeepsTime (s.ringOut pf bs) := by
  simp [State.ringOut]

@[simp] theorem State.putBytes_keepsTime (s : State) (i : Nat) (bs : List Byte) : s.KeepsTime (s.putBytes i bs) := by
  unfold State.putBytes
  split
  · simp
  · split <;> simp

@[simp] theorem State.asyncTo_keepsTime (s : State) (i : Nat) (t : String) : s.KeepsTime (s.asyncTo i t) := by
  unfold State.asyncTo
  split
  · simp
  · dsimp only
    generalize (if Session.generated _ = true then genLine "E" t else t) = line
    split
    · simp [State.putLine]
    · split <;> simp

@[simp] theorem State.evt_keepsTime (s : State) (level : Nat) (text : String) : s.KeepsTime (s.evt level text) := by
  refine State.each_keepsTime _ _ _ fun t i => ?_
  split
  · split <;> simp
  · simp

@[simp] theorem State.replyBytes_keepsTime (s : State) (i : Nat) (ts : List (List Byte)) : s.KeepsTime (s.replyBytes i ts) := by
  induction ts generalizing s with
  | nil => simp [State.replyBytes]
  | cons t ts ih =>
    unfold State.replyBytes
    split
    · simp
    · split <;> simp [ih]

@[simp] theorem State.lineEnds_keepsTime (s : State) (i : Nat) : s.KeepsTime (s.lineEnds i) := by
  unfold State.lineEnds
  split <;> simp

@[simp] theorem State.reply_keepsTime (s : State) (l : Line) (ds : List String) (t : String) : s.KeepsTime (s.reply l ds t) := by
  unfold State.reply
  dsimp only
  split
  · simp
  · split <;> simp

@[simp] theorem State.keepReply_keepsTime (s : State) (l : Line) (t : String) : s.KeepsTime (s.keepReply l t) := by
  unfold State.keepReply
  split
  · dsimp only
    split <;> simp
  · simp

@[simp] theorem State.replyC_keepsTime (s : State) (l : Line) (ds : List String) (t : String) : s.KeepsTime (s.replyC l ds t) := by
  simp [State.replyC]

/-! ### The start journal -/

@[simp] theorem State.jHead_keepsTime (s : State) : s.KeepsTime s.jHead := by
  unfold State.jHead
  split <;> simp

@[simp] theorem State.jErase_keepsTime (s : State) (n : Nat) : s.KeepsTime (s.jErase n) := ⟨rfl, rfl, rfl⟩
@[simp] theorem State.jPut_keepsTime (s : State) (n : Nat) (e : List Byte) : s.KeepsTime (s.jPut n e) := ⟨rfl, rfl, rfl⟩

@[simp] theorem State.jReady_keepsTime (s : State) (n : Nat) : s.KeepsTime (s.jReady n) := by
  unfold State.jReady
  split <;> simp

@[simp] theorem State.jCarry_keepsTime (s : State) : s.KeepsTime s.jCarry := by
  unfold State.jCarry
  dsimp only
  split
  · split <;> simp
  · simp

@[simp] theorem State.jWrite_keepsTime (s : State) (kind : Nat) (body : List Byte) : s.KeepsTime (s.jWrite kind body) := by
  unfold State.jWrite
  split
  · simp
  · simp

@[simp] theorem State.jPennants_keepsTime (s : State) (n : Nat) : s.KeepsTime (s.jPennants n) := by
  induction n generalizing s with
  | zero => simp [State.jPennants]
  | succ n ih =>
    unfold State.jPennants
    split <;> simp [ih]

/-! ### Pennants and halts -/

@[simp] theorem State.logEvent_keepsTime (s : State) (pen : Pen) (r : Report) : s.KeepsTime (s.logEvent pen r) := by
  unfold State.logEvent
  dsimp only
  split <;> simp

@[simp] theorem State.yellow_keepsTime (s : State) (r : Report) : s.KeepsTime (s.yellow r) := by
  unfold State.yellow
  dsimp only
  split <;> simp

@[simp] theorem State.discardHeld_keepsTime (s : State) (h st c : Nat) (p : RelEnt → Bool) : s.KeepsTime (s.discardHeld h st c p) := by
  unfold State.discardHeld
  dsimp only
  split <;> simp

@[simp] theorem State.setHeatSt_keepsTime (s : State) (h st : Nat) : s.KeepsTime (s.setHeatSt h st) := by
  unfold State.setHeatSt
  split <;> simp

@[simp] theorem State.haltCore_keepsTime (s : State) (k : Nat) : s.KeepsTime (s.haltCore k) := by
  unfold State.haltCore
  dsimp only
  split <;> simp

@[simp] theorem State.heatHalted_keepsTime (s : State) (h cause : Nat) : s.KeepsTime (s.heatHalted h cause) := by
  unfold State.heatHalted
  split <;> simp

@[simp] theorem State.haltHeat_keepsTime (s : State) (h cause : Nat) : s.KeepsTime (s.haltHeat h cause) := by
  unfold State.haltHeat
  split <;> simp [State.haltCores]

@[simp] theorem State.holdFail_keepsTime (s : State) (h lap : Nat) (f : Fld) : s.KeepsTime (s.holdFail h lap f) := by
  simp [State.holdFail]

@[simp] theorem State.holdTaint_keepsTime (s : State) (h lap : Nat) : s.KeepsTime (s.holdTaint h lap) := by
  simp -implicitDefEqProofs [State.holdTaint]

@[simp] theorem State.ctlBlock_keepsTime (s : State) (p : Nat) (f : Flit) : s.KeepsTime (s.ctlBlock p f) := ⟨rfl, rfl, rfl⟩

@[simp] theorem State.sendTaint_keepsTime (s : State) (p h low lap : Nat) : s.KeepsTime (s.sendTaint p h low lap) := by
  unfold State.sendTaint
  dsimp only
  split <;> simp

@[simp] theorem State.raiseTaint_keepsTime (s : State) (h lap : Nat) : s.KeepsTime (s.raiseTaint h lap) := by
  unfold State.raiseTaint
  dsimp only
  split
  · simp
  · split <;> simp [State.lowerTaint]

@[simp] theorem State.red_keepsTime (s : State) (r : Report) : s.KeepsTime (s.red r) := by
  unfold State.red
  split
  · simp
  · simp -implicitDefEqProofs

/-! ### Memory -/

@[simp] theorem State.corrected_keepsTime (s : State) (g : Nat) : s.KeepsTime (s.corrected g) := by
  unfold State.corrected
  dsimp only
  split
  · simp
  · split <;> simp

@[simp] theorem State.uncorrected_keepsTime (s : State) (g : Nat) : s.KeepsTime (s.uncorrected g) := by
  unfold State.uncorrected
  split
  · simp
  · simp [State.recordErr]

@[simp] theorem State.memStore_keepsTime (s : State) (a : Nat) (bs : List Byte) : s.KeepsTime (s.memStore a bs) := by
  simp [State.memStore]

@[simp] theorem State.spPut_keepsTime (s : State) (k off : Nat) (bs : List Byte) : s.KeepsTime (s.spPut k off bs) := by
  simp [State.spPut]

@[simp] theorem State.uPut_keepsTime (s : State) (sl : List Nat) (u : Nat) (bs : List Byte) : s.KeepsTime (s.uPut sl u bs) := by
  simp [State.uPut]

/-! ### The Halyard -/

@[simp] theorem State.halDeliver_keepsTime (s : State) (h k r : Nat) (iss : HalIssue) (low : HalLow) (prov : Bool) :
    s.KeepsTime (s.halDeliver h k r iss low prov) := by
  simp [State.halDeliver]

@[simp] theorem State.halArrive_keepsTime (s : State) (h k r seq : Nat) (low : HalLow) (prov : Bool) :
    s.KeepsTime (s.halArrive h k r seq low prov) := by
  unfold State.halArrive
  dsimp only
  split
  · simp
  · split <;> split <;> simp

@[simp] theorem State.halRelease_keepsTime (s : State) (h : Nat) : s.KeepsTime (s.halRelease h) :=
  State.each_keepsTime _ _ _ fun t p => by
    dsimp only
    split <;> simp

@[simp] theorem State.halFinal_keepsTime (s : State) (h : Nat) (op : HalOp) (low : HalLow) : s.KeepsTime (s.halFinal h op low) := by
  simp [State.halFinal]

@[simp] theorem State.barrierBy_keepsTime (s : State) (h t n : Nat) : s.KeepsTime (s.barrierBy h t n) := by
  induction n generalizing s with
  | zero => simp [State.barrierBy]
  | succ n ih =>
    unfold State.barrierBy
    split
    · split
      · split <;> simp [ih]
      · simp
    · simp

@[simp] theorem State.teamLower_keepsTime (s : State) (h t : Nat) (d : List Word) (st : Nat) (data : List Byte) (ovf : Bool)
    (at_ : Option Nat) : s.KeepsTime (s.teamLower h t d st data ovf at_) := by
  simp [State.teamLower, State.sendFrames]

@[simp] theorem State.provBy_keepsTime (s : State) (h t : Nat) : s.KeepsTime (s.provBy h t) := by
  unfold State.provBy
  split
  · simp
  · dsimp only
    split <;> simp

@[simp] theorem State.halUpTo_keepsTime (s : State) (t : Nat) : s.KeepsTime (s.halUpTo t) := by
  simp [State.halUpTo]

/-! ### Standby time, frames, check windows and recalls -/

@[simp] theorem State.standby_keepsTime (s : State) (n : Nat) : s.KeepsTime (s.standby n) := by
  simp [State.standby]

@[simp] theorem State.stallPass_keepsTime (s : State) (n : Nat) : s.KeepsTime (s.stallPass n) := by
  simp [State.stallPass]

@[simp] theorem State.framesExpire_keepsTime (s : State) (t : Nat) : s.KeepsTime (s.framesExpire t) :=
  State.each_keepsTime _ _ _ fun u p => by
    dsimp only
    split <;> simp

@[simp] theorem State.relMark_keepsTime (s : State) (h i stamp st status : Nat) : s.KeepsTime (s.relMark h i stamp st status) := by
  simp [State.relMark]

@[simp] theorem State.relHeader_keepsTime (s : State) (h : Nat) : s.KeepsTime (s.relHeader h) := by
  simp [State.relHeader]

@[simp] theorem State.relMarks_keepsTime (s : State) (h st status : Nat) (l : List RelEnt) :
    s.KeepsTime (s.each l fun s e => s.relMark h e.idx e.stamp st status) := by
  induction l generalizing s with
  | nil => exact ⟨rfl, rfl, rfl⟩
  | cons e l ih =>
    rw [State.each_cons]
    exact (s.relMark_keepsTime h e.idx e.stamp st status).trans (ih _)

@[simp] theorem State.closeWindow_keepsTime (s : State) (h l : Nat) : s.KeepsTime (s.closeWindow h l) := by
  unfold State.closeWindow
  split
  · simp
  · dsimp only
    split
    · simp
    · simp [-State.each_keepsTime]

@[simp] theorem State.recallTick_keepsTime (s : State) (h : Nat) : s.KeepsTime (s.recallTick h) := by
  unfold State.recallTick
  dsimp only
  split
  · split
    · simp
    · simp [State.recallActs]
  · simp

@[simp] theorem State.lapCounts_keepsTime (s : State) : s.KeepsTime s.lapCounts := ⟨rfl, rfl, rfl⟩

/-! ### What leaves at a lap boundary, and what the time base logs -/

@[simp] theorem State.lapEvt_keepsTime (s : State) (f : Fld) (name : String) : s.KeepsTime (s.lapEvt f name) := by
  simp [State.lapEvt]

@[simp] theorem State.lapConflict_keepsTime (s : State) (f : Fld) (name : String) (code : Nat) :
    s.KeepsTime (s.lapConflict f name code) := by
  simp [State.lapConflict]

@[simp] theorem State.announce_keepsTime (s : State) (addr lap : Nat) : s.KeepsTime (s.announce addr lap) := by
  simp [State.announce]

@[simp] theorem State.setPhase_keepsTime (s : State) (e : Int) : s.KeepsTime (s.setPhase e) := by
  unfold State.setPhase
  dsimp only
  split <;> simp

@[simp] theorem State.slew_keepsTime (s : State) : s.KeepsTime s.slew := by
  unfold State.slew
  dsimp only
  split <;> simp

@[simp] theorem State.atBoundary_keepsTime (s : State) : s.KeepsTime s.atBoundary := by
  have markers (u : State) : u.KeepsTime u.sendMarkers := by
    unfold State.sendMarkers
    split <;> simp
  have bids (u : State) : u.KeepsTime u.sendBids := by
    unfold State.sendBids
    split <;> simp
  have pulse (u : State) : u.KeepsTime u.pulse := by
    unfold State.pulse
    split <;> simp
  unfold State.atBoundary
  split
  · simp [markers, bids, pulse]
  · simp

end Sys2Proof.Machine

/-! A lap boundary: everything but `State.advanceLap` keeps the lap, the position and what waits for the boundary. -/

namespace Sys2Proof.Machine

/-- `t` has the lap and the position of `s`, a step that waits and a raise that waits. -/
@[simp] abbrev State.KeepsClock (s t : State) : Prop :=
  t.lap = s.lap ∧ t.pos = s.pos ∧ t.laps.step = s.laps.step ∧ t.laps.raise_ = s.laps.raise_

@[simp] theorem State.candsExpire_keepsClock (s : State) (p t : Nat) : s.KeepsClock (s.candsExpire p t) := by
  unfold State.candsExpire
  dsimp only
  split <;> simp [State.modLapPort, State.modLap]

/-- What each update of a list keeps of the clock, the whole keeps. -/
@[simp] theorem State.each_keepsClock {α : Type} (s : State) (l : List α) (f : State → α → State)
    (hf : ∀ t a, State.KeepsClock t (f t a)) : s.KeepsClock (s.each l f) :=
  State.each_keeps s.KeepsClock f (fun t a h => by simpa [hf t a] using h) l s ⟨rfl, rfl, rfl, rfl⟩

@[simp] theorem State.allExpire_keepsClock (s : State) (t : Nat) : s.KeepsClock (s.allExpire t) := by
  unfold State.allExpire
  simp

@[simp] theorem State.setParent_keepsClock (s : State) (p : Nat) (l : LapLock) : s.KeepsClock (s.setParent p l) := by
  unfold State.setParent
  dsimp only
  split <;> simp [State.modLap]

@[simp] theorem State.heed_keepsClock (s : State) (p : Nat) (l : LapLock) : s.KeepsClock (s.heed p l) := by
  unfold State.heed
  split <;> simp [State.modLap]

@[simp] theorem State.clashCheck_keepsClock (s : State) : s.KeepsClock s.clashCheck := by
  unfold State.clashCheck
  dsimp only
  split <;> simp [State.modLap]

@[simp] theorem State.adoptHeard_keepsClock (s : State) (addr : Nat) : s.KeepsClock (s.adoptHeard addr) := by
  unfold State.adoptHeard
  split <;> simp [State.modLap]

@[simp] theorem State.heedAnnounce_keepsClock (s : State) (l : LapLock) : s.KeepsClock (s.heedAnnounce l) := by
  unfold State.heedAnnounce
  split <;> simp

@[simp] theorem State.follow_keepsClock (s : State) (p : Nat) (l : LapLock) : s.KeepsClock (s.follow p l) := by
  simp [State.follow]

@[simp] theorem State.holdover_keepsClock (s : State) (l0 : Nat) : s.KeepsClock (s.holdover l0) := by
  simp [State.holdover, State.modLap]

@[simp] theorem State.becomePacer_keepsClock (s : State) (pri : Nat) (forced : Bool) : s.KeepsClock (s.becomePacer pri forced) := by
  simp [State.becomePacer, State.modLap]

@[simp] theorem State.handover_keepsClock (s : State) : s.KeepsClock s.handover := by
  unfold State.handover
  split
  · dsimp only
    split
    · simp [State.modLap]
    · split
      · split <;> simp [State.modLap]
      · simp [State.modLap]
  · simp

@[simp] theorem State.forceDue_keepsClock (s : State) : s.KeepsClock s.forceDue := by
  unfold State.forceDue
  split <;> simp [State.modLap]

@[simp] theorem State.reparent_keepsClock (s : State) : s.KeepsClock s.reparent := by
  unfold State.reparent
  split
  · simp
  · split
    · split <;> simp
    · simp
    · simp

/-- The lap that follows a lap boundary: the next, or a raise to a higher count (R36). -/
def State.nextLap (s : State) : Nat :=
  match s.laps.raise_ with
  | some r => max r (s.lapN + 1)
  | none => s.lapN + 1

/-- With no step pending the next lap begins at fc 0. -/
theorem State.advanceLap_unstepped (s : State) (h : s.laps.step = false) :
    s.advanceLap.lap = BitVec.ofNat 48 s.nextLap ∧ s.advanceLap.pos = 0 := by
  have hfc : 0 < lapFc := by decide
  unfold State.advanceLap State.nextLap
  rw [h]
  cases s.laps.raise_ <;> simp [State.setNow, State.modLap, Nat.mul_div_cancel _ hfc]

theorem State.lapBase_nextLap (s : State) (h : s.laps.step = false) :
    s.lapBase.lap = BitVec.ofNat 48 s.nextLap ∧ s.lapBase.pos = 0 := by
  have hnext : (s.allExpire ((s.lapN + 1) * lap16)).nextLap = s.nextLap := by simp [State.nextLap, State.lapN]
  have hturn := State.advanceLap_unstepped (s.allExpire ((s.lapN + 1) * lap16)) (by simpa using h)
  rw [hnext] at hturn
  unfold State.lapBase
  dsimp only
  split
  · simp [State.modLap, hturn]
  · simp [State.modLap, hturn]

theorem State.lapTurn_nextLap (s : State) (h : s.laps.step = false) :
    s.lapTurn.lap = BitVec.ofNat 48 s.nextLap ∧ s.lapTurn.pos = 0 := by
  have hj : (if s.boot.restarting then s else s.jPennants 160).nextLap = s.nextLap := by
    split <;> simp [State.nextLap, State.lapN]
  have hbase := State.lapBase_nextLap (if s.boot.restarting then s else s.jPennants 160) (by split <;> simp [h])
  rw [hj] at hbase
  simp [State.lapTurn, hbase]

theorem exec_lapBoundary (s : State) : exec .lapBoundary s = execLapBoundary s := rfl

/-- LAP_BOUNDARY without the fabric clock. -/
theorem lapBoundary_stopped (s : State) (h : s.fabricOn = false) : exec .lapBoundary s = .next s := by
  rw [exec_lapBoundary, execLapBoundary, if_neg (by simp [h])]

/-- LAP_BOUNDARY with the fabric clock running and no step pending. -/
theorem lapBoundary_runs (s : State) (hf : s.fabricOn = true) (h : s.laps.step = false) :
    ∃ t, exec .lapBoundary s = .next t ∧ t.pos = 0 ∧ t.mar.stops = [] ∧ t.lap = BitVec.ofNat 48 s.nextLap := by
  rw [exec_lapBoundary, execLapBoundary, if_pos hf]
  refine ⟨_, rfl, ?_, rfl, ?_⟩
  · simp [State.lapTurn_nextLap, h]
  · simp [State.lapTurn_nextLap, h, State.nextLap, State.lapN]

end Sys2Proof.Machine

/-! Registers: fields of one register, bits that events set, and which registers console output and a yellow pennant leave
as they are. -/

namespace Sys2Proof.Machine

/-! ### Fields of one register -/

/-- A field's bits lie apart from the bits that another field sets. -/
theorem bitsOf_setBits_apart (w lo n v lo' n' : Nat) (h : lo' + n' ≤ lo ∨ lo + n ≤ lo') :
    bitsOf (setBits w lo n v) lo' n' = bitsOf w lo' n' := by
  have hlow : w % p2 lo < p2 lo := Nat.mod_lt _ (p2_pos lo)
  have hmid : v % p2 n < p2 n := Nat.mod_lt _ (p2_pos n)
  unfold bitsOf setBits
  rcases h with h | h
  · obtain ⟨d, rfl⟩ := Nat.exists_eq_add_of_le h
    have hsum : w % p2 (lo' + n' + d) + v % p2 n * p2 (lo' + n' + d) + w / p2 (lo' + n' + d + n) * p2 (lo' + n' + d + n) =
        w % p2 (lo' + n' + d) + p2 (lo' + n') * (p2 d * (v % p2 n + w / p2 (lo' + n' + d + n) * p2 n)) := by
      simp only [p2_add]
      grind
    have key : ∀ x, x / p2 lo' % p2 n' = x % p2 (lo' + n') / p2 lo' := fun x => by rw [p2_add, Nat.mod_mul_right_div_self]
    rw [hsum, key, key, Nat.add_mul_mod_self_left, p2_add _ d, Nat.mod_mul_right_mod]
  · obtain ⟨d, rfl⟩ := Nat.exists_eq_add_of_le h
    have hlt : w % p2 lo + v % p2 n * p2 lo < p2 (lo + n) := by
      calc w % p2 lo + v % p2 n * p2 lo < (v % p2 n + 1) * p2 lo := by rw [Nat.add_mul]; omega
        _ ≤ p2 n * p2 lo := Nat.mul_le_mul_right _ hmid
        _ = p2 (lo + n) := by rw [p2_add, Nat.mul_comm]
    rw [p2_add _ d, ← Nat.div_div_eq_div_mul, ← Nat.div_div_eq_div_mul, Nat.add_mul_div_right _ _ (p2_pos _),
      Nat.div_eq_of_lt hlt, Nat.zero_add]

/-- Two fields share no bit: of two registers, or apart in one. -/
def Fld.apart (e f : Fld) : Bool :=
  e.reg.off != f.reg.off || (e.reg == f.reg && (decide (e.lo + e.n ≤ f.lo) || decide (f.lo + f.n ≤ e.lo)))

/-- A field keeps its value when a field apart from it is put. -/
theorem State.get_put_apart (s : State) (f e : Fld) (v : Nat) (h : e.apart f = true) (hf : f.lo + f.n ≤ 32) :
    (s.put f v).get e = s.get e := by
  simp only [Fld.apart, Bool.or_eq_true, bne_iff_ne, ne_eq, Bool.and_eq_true, beq_iff_eq, decide_eq_true_eq] at h
  rcases h with h | ⟨hreg, h⟩
  · exact State.get_put_otherReg s f e v h
  · unfold State.get State.put
    rw [hreg, State.rd_wr_same _ _ _ (setBits_lt _ _ _ _ _ (State.rd_lt s f.reg) hf)]
    exact bitsOf_setBits_apart _ _ _ _ _ _ h

@[simp] theorem State.get_modLap (s : State) (g : LapSt → LapSt) (f : Fld) : (s.modLap g).get f = s.get f := rfl

/-! ### Bits that events set -/

theorem State.rd_raise_other (s : State) (r q : Reg) (w : Nat) (h : q.off ≠ r.off) : (s.raise r w).rd q = s.rd q :=
  State.rd_wr_other s r q _ h

theorem State.rd_flag_other (s : State) (f : Fld) (q : Reg) (h : q.off ≠ f.reg.off) : (s.flag f).rd q = s.rd q :=
  State.rd_raise_other s f.reg q _ h

/-- An event's bit is one after the event. -/
theorem State.get_flag_same (s : State) (f : Fld) (hn : f.n = 1) (hlo : f.lo < 32) : (s.flag f).get f = 1 := by
  have hlt : Nat.lor (s.rd f.reg) (p2 f.lo) < 2 ^ 32 :=
    Nat.or_lt_two_pow (State.rd_lt s f.reg) (Nat.pow_lt_pow_right (by decide) hlo)
  have hrd : (s.flag f).rd f.reg = Nat.lor (s.rd f.reg) (p2 f.lo) := State.rd_wr_same s f.reg _ hlt
  have hbit : (s.rd f.reg ||| 2 ^ f.lo).testBit f.lo = true := by simp
  unfold State.get bitsOf
  rw [hrd, hn]
  show (s.rd f.reg ||| 2 ^ f.lo) / 2 ^ f.lo % 2 = 1
  rw [Nat.testBit_eq_decide_div_mod_eq] at hbit
  exact of_decide_eq_true hbit

theorem State.get_congr {s t : State} {f : Fld} (h : t.rd f.reg = s.rd f.reg) : t.get f = s.get f := by
  unfold State.get
  rw [h]

/-! ### Registers that console output leaves as they are -/

/-- A register that is no count of frames dropped at a port (R500), the one kind of register that output through a tunnel
changes. -/
def Reg.NoDropCount (q : Reg) : Prop := ∀ p, q.off ≠ (R.BTN_P_CNT_NRDROP p).off

theorem State.rd_each {α : Type} {q : Reg} (s : State) (l : List α) (f : State → α → State) (hf : ∀ t a, (f t a).rd q = t.rd q) :
    (s.each l f).rd q = s.rd q :=
  State.each_keeps (fun t => t.rd q = s.rd q) f (fun t a h => (hf t a).trans h) l s rfl

theorem State.regs_mailSignal (s : State) (pf : Nat) : (s.mailSignal pf).regs = s.regs := by
  unfold State.mailSignal
  dsimp only
  split
  · rfl
  · split <;> rfl

section
variable {q : Reg} (hq : q.NoDropCount)
include hq

theorem State.rd_express (s : State) (p k : Nat) (fl : List Flit) : (s.express p k fl).rd q = s.rd q := by
  unfold State.express
  split
  · exact State.rd_bump_other _ _ _ _ (hq p)
  · rfl

theorem State.rd_tunnelSend (s : State) (d n : Nat) (bs : List Byte) : (s.tunnelSend d n bs).rd q = s.rd q := by
  unfold State.tunnelSend
  split
  · exact State.rd_each _ _ _ fun t f => State.rd_express hq t _ _ f
  · rfl

theorem State.rd_putBytes (s : State) (i : Nat) (bs : List Byte) : (s.putBytes i bs).rd q = s.rd q := by
  unfold State.putBytes
  split
  · rfl
  · split
    · simp [State.rd, State.ringOut, State.regs_mailSignal, State.modMail]
    · exact State.rd_tunnelSend hq s _ _ _
    · rfl

theorem State.rd_asyncTo (s : State) (i : Nat) (text : String) : (s.asyncTo i text).rd q = s.rd q := by
  unfold State.asyncTo
  split
  · rfl
  · dsimp only
    generalize (if Session.generated _ = true then genLine "E" text else text) = line
    split
    · exact State.rd_putBytes hq s _ _
    · unfold State.noRoom
      repeat' split
      all_goals rfl

theorem State.rd_evt (s : State) (level : Nat) (text : String) : (s.evt level text).rd q = s.rd q :=
  State.rd_each _ _ _ fun t i => by
    split
    · split
      · exact State.rd_asyncTo hq t _ _
      · rfl
    · rfl

/-- A pennant's log entry changes MAR_LOG_HEAD and MGT_ALERT. -/
theorem State.rd_logEvent (s : State) (pen : Pen) (r : Report) (hlog : q.off ≠ R.MAR_LOG_HEAD.off)
    (halert : q.off ≠ R.MGT_ALERT.off) : (s.logEvent pen r).rd q = s.rd q := by
  unfold State.logEvent
  dsimp only
  split
  · rfl
  · rw [State.rd_evt hq, State.rd_raise_other _ _ _ _ halert, State.rd_put_other _ _ _ _ hlog, State.rd_put_other _ _ _ _ hlog]
    rfl

/-- A yellow pennant of no heat changes MAR_CNT_YELLOW and MAR_EVT beside what its log entry changes. -/
theorem State.rd_yellow (s : State) (r : Report) (hheat : r.heat = none) (hlog : q.off ≠ R.MAR_LOG_HEAD.off)
    (halert : q.off ≠ R.MGT_ALERT.off) (hcount : q.off ≠ R.MAR_CNT_YELLOW.off) (hevt : q.off ≠ R.MAR_EVT.off) :
    (s.yellow r).rd q = s.rd q := by
  unfold State.yellow
  rw [hheat]
  dsimp only
  rw [State.rd_flag_other _ _ _ hevt, State.rd_bump_other _ _ _ _ hcount, State.rd_logEvent hq _ _ _ hlog halert]

end

/-- The registers of the LAP_ block count no frames. -/
theorem Reg.noDropCount_low {q : Reg} (h : q.off < 0x212C) : q.NoDropCount := fun p => by
  show q.off ≠ 0x212C + 64 * p
  omega

/-- A yellow pennant of no heat is counted. -/
theorem State.yellow_count (s : State) (r : Report) (hheat : r.heat = none) :
    (s.yellow r).get F.MAR_CNT_YELLOW_count = min (s.get F.MAR_CNT_YELLOW_count + 1) 0xFFFFFFFF := by
  have hq : R.MAR_CNT_YELLOW.NoDropCount := fun p => by
    show 0x3FE1018 ≠ 0x212C + 64 * p
    omega
  have hlog : (s.logEvent .yellow r).get F.MAR_CNT_YELLOW_count = s.get F.MAR_CNT_YELLOW_count :=
    State.get_congr (State.rd_logEvent hq s .yellow r (by decide) (by decide))
  unfold State.yellow
  rw [hheat]
  dsimp only
  rw [State.get_congr (State.rd_flag_other _ F.MAR_EVT_yellow F.MAR_CNT_YELLOW_count.reg (by decide)),
    State.get_bump _ _ _ (by decide), hlog]
  rfl

end Sys2Proof.Machine

/-! Link delay, the reference, adoption and the lap boundary, each command's meaning (R41, R51, R52, R58, R59, R70, R71). -/

namespace Sys2Proof.Machine

/-! ### The commands' meanings -/

theorem exec_delayProbeReceived (port : PortId) (pos : Pos) (sub : BitVec 4) (blk : Flit) (s : State) :
    exec (.delayProbeReceived port pos sub blk) s = execDelayProbeReceived port pos sub blk s := rfl
theorem exec_probeEchoReceived (port : PortId) (rtt : BitVec 24) (blk : Flit) (s : State) :
    exec (.probeEchoReceived port rtt blk) s = execProbeEchoReceived port rtt blk s := rfl
theorem exec_lapInQualified (s : State) : exec .lapInQualified s = execLapInQualified s := rfl
theorem exec_lapInLost (s : State) : exec .lapInLost s = execLapInLost s := rfl
theorem exec_adoptRequestReceived (port : PortId) (x : XFrame) (s : State) :
    exec (.adoptRequestReceived port x) s = execAdoptRequestReceived port x s := rfl
theorem exec_adoptAnnounceTimeout (s : State) : exec .adoptAnnounceTimeout s = execAdoptAnnounceTimeout s := rfl

/-! ### Control blocks at ports -/

theorem State.port_modPort_other (s : State) (p q : Nat) (f : BtnPort → BtnPort) (h : q ≠ p) :
    (s.modPort p f).port q = s.port q := Tab.get_put_other _ _ _ _ _ h

theorem State.lapPort_modLapPort_same (s : State) (p : Nat) (f : LapPort → LapPort) :
    (s.modLapPort p f).lapPort p = f (s.lapPort p) := Tab.get_put_same _ _ _ _

theorem State.lapPort_modLapPort_other (s : State) (p q : Nat) (f : LapPort → LapPort) (h : q ≠ p) :
    (s.modLapPort p f).lapPort q = s.lapPort q := Tab.get_put_other _ _ _ _ _ h

@[simp] theorem State.lapPort_modPort (s : State) (p q : Nat) (f : BtnPort → BtnPort) :
    (s.modPort p f).lapPort q = s.lapPort q := rfl

@[simp] theorem State.port_modLapPort (s : State) (p q : Nat) (f : LapPort → LapPort) :
    (s.modLapPort p f).port q = s.port q := rfl

/-- A probe on its port: one control block at the present position, and the port has sent its probe now. -/
theorem State.probe_same (s : State) (p : Nat) :
    ((s.probe p).port p).ctlQ = (s.port p).ctlQ ++ [(16 * s.now, CB.make 2 0 0 0 0 false false none)] ∧
      ((s.probe p).lapPort p).probed = some s.now := by
  simp [State.probe, State.ctlBlock, State.ctlBlockAt, State.lapPort_modLapPort_same]
  rfl

theorem State.probe_other (s : State) (p q : Nat) (h : q ≠ p) :
    ((s.probe p).port q).ctlQ = (s.port q).ctlQ ∧ ((s.probe p).lapPort q).probed = (s.lapPort q).probed := by
  simp [State.probe, State.ctlBlock, State.ctlBlockAt, State.lapPort_modLapPort_other, State.port_modPort_other, h]

/-- Probes on a list of ports change the ports' queues and lap records alone. -/
theorem State.probes_frame (s : State) (l : List Nat) :
    s.each l State.probe = { s with btn := (s.each l State.probe).btn, laps := (s.each l State.probe).laps } := by
  induction l generalizing s with
  | nil => rfl
  | cons p l ih =>
    rw [State.each_cons]
    exact (ih _).trans rfl

/-- Probes on the ports of a list without repeats: one on each, and none elsewhere. -/
theorem State.probes_each (s : State) (l : List Nat) (hl : l.Nodup) (q : Nat) :
    ((s.each l State.probe).port q).ctlQ =
        (s.port q).ctlQ ++ (if q ∈ l then [(16 * s.now, CB.make 2 0 0 0 0 false false none)] else []) ∧
      ((s.each l State.probe).lapPort q).probed = if q ∈ l then some s.now else (s.lapPort q).probed := by
  induction l generalizing s with
  | nil => simp [State.each]
  | cons p l ih =>
    obtain ⟨hp, hl⟩ := List.nodup_cons.mp hl
    have hnow : (s.probe p).now = s.now := rfl
    obtain ⟨hq, hprobed⟩ := ih (s.probe p) hl
    rw [State.each_cons, hq, hprobed, hnow]
    by_cases h : q = p
    · subst h
      obtain ⟨hs, hs'⟩ := s.probe_same q
      simp [hp, hs, hs']
    · obtain ⟨ho, ho'⟩ := s.probe_other p q h
      simp [h, ho, ho']

/-- Which ports are due, in the words of R52. -/
theorem State.probeDue_iff (s : State) (p : Nat) : s.probeDue p = true ↔
    (s.portUp p = true → s.stride = 1024 ∧ (s.lapPort p).probed.map (· / 262144) ≠ some s.lapN) ∧
      (s.portUp p = false → (s.port p).step = 6 ∧ (s.lapPort p).probed.map (· / 128) ≠ some (s.now / 128)) := by
  unfold State.probeDue
  cases s.portUp p <;> simp [lapFc]

/-- DELAY_PROBE_SEND (R52). -/
theorem delayProbeSend_probes (s : State) (due : Nat → Bool) (hdue : ∀ p, due p = true ↔ s.probeDue p = true) :
    ∃ t, exec .delayProbeSend s = .next t ∧ t = { s with btn := t.btn, laps := t.laps } ∧
      ∀ p, (t.port p).ctlQ = (s.port p).ctlQ ++
          (if p ∈ s.probePorts ∧ due p = true then [(16 * s.now, CB.make 2 0 0 0 0 false false none)] else []) ∧
        (t.lapPort p).probed = if p ∈ s.probePorts ∧ due p = true then some s.now else (s.lapPort p).probed := by
  have hnodup : (s.probePorts.filter s.probeDue).Nodup := (List.nodup_range.filter _).filter _
  refine ⟨_, rfl, s.probes_frame _, fun p => ?_⟩
  simpa only [List.mem_filter, hdue] using s.probes_each _ hnodup p

/-- DELAY_PROBE_RECEIVED of no probe, or where no probes are sent (R51). -/
theorem delayProbeReceived_ignored (port : PortId) (pos : Pos) (sub : BitVec 4) (blk : Flit) (s : State)
    (h : port.val ∉ s.probePorts ∨ CB.ok blk = false ∨ CB.kind blk ≠ 2) :
    exec (.delayProbeReceived port pos sub blk) s = .next s := by
  rw [exec_delayProbeReceived, execDelayProbeReceived, if_pos]
  rcases h with h | h | h <;> simp [h]

/-- DELAY_PROBE_RECEIVED of a probe: its echo is queued, with the arrival as its send time (R51). -/
theorem delayProbeReceived_echoes (port : PortId) (pos : Pos) (sub : BitVec 4) (blk : Flit) (s : State)
    (hp : port.val ∈ s.probePorts) (hok : CB.ok blk = true) (hk : CB.kind blk = 2) :
    ∃ t, exec (.delayProbeReceived port pos sub blk) s = .next t ∧ t = { s with btn := t.btn } ∧
      t.port port.val = { s.port port.val with ctlQ := (s.port port.val).ctlQ ++
        [((s.lapN * 262144 + pos.toNat) * 16 + sub.toNat, CB.make 3 0 0 0 0 false false none)] } ∧
      ∀ q, q ≠ port.val → t.port q = s.port q := by
  rw [exec_delayProbeReceived, execDelayProbeReceived, if_neg (by simp [hp, hok, hk])]
  exact ⟨_, rfl, rfl, State.port_modPort_same _ _ _, fun q hq => State.port_modPort_other _ _ _ _ hq⟩

/-- PROBE_ECHO_RECEIVED of no echo, or where no probes are sent (R51). -/
theorem probeEchoReceived_ignored (port : PortId) (rtt : BitVec 24) (blk : Flit) (s : State)
    (h : port.val ∉ s.probePorts ∨ CB.ok blk = false ∨ CB.kind blk ≠ 3) :
    exec (.probeEchoReceived port rtt blk) s = .next s := by
  rw [exec_probeEchoReceived, execProbeEchoReceived, if_pos]
  rcases h with h | h | h <;> simp [h]

/-- PROBE_ECHO_RECEIVED of an echo: a sample, the newest of 16, and their median as the delay (R51). -/
theorem State.echoIn_samples (s : State) (p rtt : Nat) (blk : Flit) (v : List Nat)
    (hv : v = ((rtt - CB.lag blk) / 2 :: (s.lapPort p).samples).take 16) :
    (s.echoIn p rtt blk).lapPort p = { s.lapPort p with samples := v } ∧
      (s.echoIn p rtt blk).port p = { s.port p with probes := (s.port p).probes + 1 } ∧
      (v.length < 16 → (s.echoIn p rtt blk).regs = s.regs) ∧
      (v.length = 16 → (s.echoIn p rtt blk).get (F.LAP_DELAY_valid p) = 1 ∧
        (s.echoIn p rtt blk).get (F.LAP_DELAY_delay p) = min (median v) 0xFFFFF) := by
  obtain ⟨u, hu⟩ : ∃ u, u = (s.modLapPort p fun x => { x with samples := ((rtt - CB.lag blk) / 2 :: x.samples).take 16 }).modPort p
    fun b => { b with probes := b.probes + 1 } := ⟨_, rfl⟩
  have hlap : u.lapPort p = { s.lapPort p with samples := v } := by
    rw [hu, hv, State.lapPort_modPort, State.lapPort_modLapPort_same]
  have hport : u.port p = { s.port p with probes := (s.port p).probes + 1 } := by
    rw [hu]
    exact State.port_modPort_same _ _ _
  have hregs : u.regs = s.regs := by rw [hu]; rfl
  have hecho : s.echoIn p rtt blk = if v.length < 16 then u else
      (u.put (F.LAP_DELAY_delay p) (min (median v) (p2 20 - 1))).put (F.LAP_DELAY_valid p) 1 := by
    have hs : (u.lapPort p).samples = v := by rw [hlap]
    rw [← hs, hu]
    rfl
  by_cases hlen : v.length < 16
  · rw [hecho, if_pos hlen]
    exact ⟨hlap, hport, fun _ => hregs, fun h => by omega⟩
  · rw [hecho, if_neg hlen]
    refine ⟨hlap, hport, fun h => absurd h hlen, fun _ => ⟨State.get_put_same _ _ _ Nat.one_lt_two (Nat.le_refl 32), ?_⟩⟩
    have hapart : (F.LAP_DELAY_delay p).apart (F.LAP_DELAY_valid p) = true := by
      simp [Fld.apart, F.LAP_DELAY_delay, F.LAP_DELAY_valid]
    have hlt : min (median v) (p2 20 - 1) < p2 (F.LAP_DELAY_delay p).n :=
      Nat.lt_of_le_of_lt (Nat.min_le_right _ _) (by decide : p2 20 - 1 < p2 20)
    rw [State.get_put_apart _ _ _ _ hapart (Nat.le_refl 32), State.get_put_same _ _ _ hlt (by decide : 0 + 20 ≤ 32)]
    rfl

theorem probeEchoReceived_samples (port : PortId) (rtt : BitVec 24) (blk : Flit) (s : State) (hp : port.val ∈ s.probePorts)
    (hok : CB.ok blk = true) (hk : CB.kind blk = 3) :
    exec (.probeEchoReceived port rtt blk) s = .next (s.echoIn port.val rtt.toNat blk) := by
  rw [exec_probeEchoReceived, execProbeEchoReceived, if_neg (by simp [hp, hok, hk])]

/-! ### The reference -/

theorem lapInQualified_ignored (s : State) (h : s.on F.LAP_CFG_ref_en = false ∨ s.on F.LAP_STATUS_ref_ok = true) :
    exec .lapInQualified s = .next s := by
  rw [exec_lapInQualified, execLapInQualified, if_pos]
  rcases h with h | h <;> simp [h]

/-- An event of the LAP_ block and its EVT line change LAP_EVT alone of the block. -/
theorem State.get_lapEvt_other (s : State) (f e : Fld) (name : String) (hlow : e.reg.off < 0x212C) (h : e.reg.off ≠ f.reg.off) :
    (s.lapEvt f name).get e = s.get e :=
  State.get_congr ((State.rd_evt (Reg.noDropCount_low hlow) _ _ _).trans (State.rd_flag_other s f e.reg h))

theorem State.get_lapEvt_same (s : State) (f : Fld) (name : String) (hlow : f.reg.off < 0x212C) (hn : f.n = 1) (hlo : f.lo < 32) :
    (s.lapEvt f name).get f = 1 :=
  (State.get_congr (State.rd_evt (Reg.noDropCount_low hlow) _ _ _)).trans (State.get_flag_same s f hn hlo)

/-- A yellow pennant of no heat changes no register of the LAP_ block. -/
theorem State.get_yellow_low (s : State) (r : Report) (e : Fld) (hheat : r.heat = none) (hlow : e.reg.off < 0x212C) :
    (s.yellow r).get e = s.get e := by
  have hlog : R.MAR_LOG_HEAD.off = 0x3FE1028 := rfl
  have halert : R.MGT_ALERT.off = 0x3FF000C := rfl
  have hcount : R.MAR_CNT_YELLOW.off = 0x3FE1018 := rfl
  have hevt : R.MAR_EVT.off = 0x3FE1004 := rfl
  exact State.get_congr (State.rd_yellow (Reg.noDropCount_low hlow) s r hheat (by omega) (by omega) (by omega) (by omega))

/-- The pacer's use of the reference, `v` being one or zero. -/
def State.useRef (s : State) (v : Nat) : State := (s.put F.LAP_STATUS_ref_used v).put F.LAP_PACER_ref v

/-- What LAP_STATUS and LAP_PACER read after the reference and its use have been put. -/
theorem State.useRef_fields (s : State) (g : LapSt → LapSt) (v : Nat) (hv : v < 2) :
    (((s.put F.LAP_STATUS_ref_ok v).modLap g).useRef v).get F.LAP_STATUS_ref_ok = v ∧
      (((s.put F.LAP_STATUS_ref_ok v).modLap g).useRef v).lapState = s.lapState ∧
      (((s.put F.LAP_STATUS_ref_ok v).modLap g).useRef v).get F.LAP_STATUS_ref_used = v ∧
      (((s.put F.LAP_STATUS_ref_ok v).modLap g).useRef v).get F.LAP_PACER_ref = v := by
  have hok : v < p2 F.LAP_STATUS_ref_ok.n := hv
  have hused : v < p2 F.LAP_STATUS_ref_used.n := hv
  have href : v < p2 F.LAP_PACER_ref.n := hv
  refine ⟨?_, ?_, ?_, ?_⟩ <;>
    simp (disch := decide) [State.useRef, State.lapState, State.get_put_apart, State.get_put_same _ _ _ hok,
      State.get_put_same _ _ _ hused, State.get_put_same _ _ _ href]

theorem State.lapState_putRefOk (s : State) (g : LapSt → LapSt) (v : Nat) :
    ((s.put F.LAP_STATUS_ref_ok v).modLap g).lapState = s.lapState :=
  State.get_put_apart s _ _ _ (by decide) (by decide)

/-- LAP_IN qualified (R58, R59). -/
theorem lapInQualified_sets (s : State) (hen : s.on F.LAP_CFG_ref_en = true) (hok : s.on F.LAP_STATUS_ref_ok = false) :
    ∃ t, exec .lapInQualified s = .next t ∧ t.get F.LAP_STATUS_ref_ok = 1 ∧ t.lapState = s.lapState ∧
      (s.lapState = 2 → t.get F.LAP_STATUS_ref_used = 1 ∧ t.get F.LAP_PACER_ref = 1) ∧
      (s.lapState ≠ 2 → t.get F.LAP_STATUS_ref_used = s.get F.LAP_STATUS_ref_used) := by
  rw [exec_lapInQualified, execLapInQualified, if_neg (by simp [hen, hok])]
  dsimp only
  rw [State.lapState_putRefOk]
  split
  case isTrue hne =>
    exact ⟨_, rfl, State.get_put_same _ _ _ (by decide) (by decide), State.lapState_putRefOk _ _ _, fun h => absurd h hne,
      fun _ => State.get_put_apart _ _ _ _ (by decide) (by decide)⟩
  case isFalse hpacer =>
    obtain ⟨hok', hst, hused, href⟩ := s.useRef_fields (fun l => { l with refLost := false }) 1 (by decide)
    refine ⟨_, rfl, ?_⟩
    split
    · have hkept (u : State) (e : Fld) (hlow : e.reg.off < 0x212C) (h : e.reg.off ≠ F.LAP_EVT_ref_back.reg.off) :=
        u.get_lapEvt_other F.LAP_EVT_ref_back e "ref_back" hlow h
      exact ⟨(hkept _ _ (by decide) (by decide)).trans hok', (hkept _ _ (by decide) (by decide)).trans hst, fun _ =>
        ⟨(hkept _ _ (by decide) (by decide)).trans hused, (hkept _ _ (by decide) (by decide)).trans href⟩,
        fun h => absurd h hpacer⟩
    · exact ⟨hok', hst, fun _ => ⟨hused, href⟩, fun h => absurd h hpacer⟩

theorem lapInLost_ignored (s : State) (h : s.on F.LAP_STATUS_ref_ok = false) : exec .lapInLost s = .next s := by
  rw [exec_lapInLost, execLapInLost, if_pos (by simp [h])]

/-- LAP_IN lost (R59). -/
theorem lapInLost_clears (s : State) (hok : s.on F.LAP_STATUS_ref_ok = true) :
    ∃ t, exec .lapInLost s = .next t ∧ t.get F.LAP_STATUS_ref_ok = 0 ∧ t.laps = { s.laps with refLost := true } ∧
      (s.lapState = 2 → t.get F.LAP_STATUS_ref_used = 0 ∧ t.get F.LAP_PACER_ref = 0 ∧ t.get F.LAP_EVT_ref_lost = 1) := by
  rw [exec_lapInLost, execLapInLost, if_neg (by simp [hok])]
  dsimp only
  rw [State.lapState_putRefOk]
  split
  case isTrue hne => exact ⟨_, rfl, State.get_put_same _ _ _ (by decide) (by decide), rfl, fun h => absurd h hne⟩
  case isFalse =>
    obtain ⟨hok', -, hused, href⟩ := s.useRef_fields (fun l => { l with refLost := true }) 0 (by decide)
    have hkept (u : State) (e : Fld) (hlow : e.reg.off < 0x212C) (h : e.reg.off ≠ F.LAP_EVT_ref_lost.reg.off) :
        ((u.lapEvt F.LAP_EVT_ref_lost "ref_lost").yellow { code := 0x104 }).get e = u.get e :=
      (State.get_yellow_low _ _ e rfl hlow).trans (u.get_lapEvt_other _ e _ hlow h)
    exact ⟨_, rfl, (hkept _ _ (by decide) (by decide)).trans hok', by simp [State.modLap], fun _ =>
      ⟨(hkept _ _ (by decide) (by decide)).trans hused, (hkept _ _ (by decide) (by decide)).trans href,
        (State.get_yellow_low _ _ _ rfl (by decide)).trans (State.get_lapEvt_same _ _ _ (by decide) (by decide) (by decide))⟩⟩

/-! ### Adoption -/

theorem adoptRequestReceived_ignored (port : PortId) (x : XFrame) (s : State)
    (h : s.portSt port.val < 3 ∨ BH.kind x.hdr ≠ 2) : exec (.adoptRequestReceived port x) s = .next s := by
  rw [exec_adoptRequestReceived, execAdoptRequestReceived, State.expressIn, if_pos]
  rcases h with h | h <;> simp [h]

/-- A 48-bit lap put in its pair of fields reads back. -/
theorem State.get48_announce (s : State) (addr lap : Nat) (h : lap < p2 48) :
    (s.announce addr lap).get48 F.LAP_HO_LO_lap_lo F.LAP_HO_HI_lap_hi = lap := by
  have hhi : lap / p2 32 < p2 F.LAP_HO_HI_lap_hi.n := Nat.div_lt_of_lt_mul (by rwa [← p2_add])
  have hlo : lap % p2 32 < p2 F.LAP_HO_LO_lap_lo.n := Nat.mod_lt _ (p2_pos 32)
  have hgetlo : (s.announce addr lap).get F.LAP_HO_LO_lap_lo = lap % p2 32 := by
    simp (disch := decide) [State.announce, State.put48, State.get_put_apart, State.get_put_same _ _ _ hlo]
  have hgethi : (s.announce addr lap).get F.LAP_HO_HI_lap_hi = lap / p2 32 := by
    simp (disch := decide) [State.announce, State.put48, State.get_put_apart, State.get_put_same _ _ _ hhi]
  rw [State.get48, hgetlo, hgethi, Nat.mul_comm]
  exact Nat.mod_add_div lap (p2 32)

/-- What an announcement records (R70). -/
theorem State.announce_fields (s : State) (addr lap : Nat) (h : addr < p2 10) :
    (s.announce addr lap).get F.LAP_HO_HI_valid = 1 ∧ (s.announce addr lap).get F.LAP_HO_HI_addr = addr ∧
      (s.announce addr lap).get F.LAP_STATUS_ho_pending = 1 := by
  have haddr : addr < p2 F.LAP_HO_HI_addr.n := h
  refine ⟨?_, ?_, ?_⟩ <;>
    simp (disch := decide) [State.announce, State.get_put_apart, State.get_put_same _ _ _ haddr, State.get_put_same]

/-- An adopt request at a pacer without a handover pending. -/
theorem State.adoptIn_pacer (u : State) (fs : List Flit) (hst : u.lapState = 2) (hv : u.on F.LAP_HO_HI_valid = false)
    (hlap : u.lapN + 2 ≤ bitsOf (fs.getD 1 0).toNat 14 48) :
    u.adoptIn fs = u.announce ((fs.getD 1 0).toNat % 1024) (bitsOf (fs.getD 1 0).toNat 14 48) := by
  have hadmitted : (!u.on F.LAP_HO_HI_valid && decide (u.lapN + 2 ≤ bitsOf (fs.getD 1 0).toNat 14 48)) = true := by
    rw [hv, decide_eq_true hlap]
    rfl
  rw [State.adoptIn, if_pos hst, if_pos hadmitted]

/-- An adopt request that its port accepts reaches the pacer: announced where no handover is pending (R70, R71). -/
theorem adoptRequestReceived_announces (port : PortId) (x : XFrame) (s u : State) (fs : List Flit) (h3 : 3 ≤ s.portSt port.val)
    (h6 : s.portSt port.val < 6) (hk : BH.kind x.hdr = 2) (hin : s.frameIn port.val true x = (some fs, u))
    (hm : linkMessage fs = 3) (hst : u.lapState = 2) (hv : u.on F.LAP_HO_HI_valid = false)
    (hlap : u.lapN + 2 ≤ bitsOf (fs.getD 1 0).toNat 14 48) :
    exec (.adoptRequestReceived port x) s =
      .next (u.announce ((fs.getD 1 0).toNat % 1024) (bitsOf (fs.getD 1 0).toNat 14 48)) := by
  rw [exec_adoptRequestReceived, execAdoptRequestReceived, State.expressIn, if_neg (by simp [hk]; omega), hin]
  simp [hm, u.adoptIn_pacer fs hst hv hlap]

theorem adoptAnnounceTimeout_waits (s : State) (h : ∀ a ∈ s.laps.adopt, s.now < a.deadline) :
    exec .adoptAnnounceTimeout s = .next s := by
  rw [exec_adoptAnnounceTimeout, execAdoptAnnounceTimeout]
  split
  case h_1 a ha => rw [if_neg (Nat.not_le.mpr (h a ha))]
  case h_2 => rfl

theorem adoptAnnounceTimeout_ends (s : State) (a : AdoptReq) (ha : s.laps.adopt = some a) (h : a.deadline ≤ s.now) :
    exec .adoptAnnounceTimeout s =
      .next (({ s with laps := { s.laps with adopt := none } } : State).replyC a.line [] "ERR 0333 NO ANNOUNCEMENT") := by
  rw [exec_adoptAnnounceTimeout, execAdoptAnnounceTimeout, ha]
  exact if_pos h

/-- Settles O40, command by command; of a lap boundary, `State.advanceLap` alone sets the lap and the position. -/
theorem lapBoundaryAndDelay : Obligations.LapBoundaryAndDelay := by
  unfold Obligations.LapBoundaryAndDelay
  refine ⟨lapBoundary_stopped, fun s hf hs => ?_, fun s due hdue => ?_, delayProbeReceived_ignored,
    delayProbeReceived_echoes, probeEchoReceived_ignored, fun port rtt blk s v hp hok hk hv => ?_, lapInQualified_ignored,
    lapInQualified_sets, lapInLost_ignored, lapInLost_clears, adoptRequestReceived_ignored, ?_, adoptAnnounceTimeout_waits,
    fun s a ha h => ⟨_, adoptAnnounceTimeout_ends s a ha h, by simp, rfl⟩⟩
  · obtain ⟨t, hexec, hpos, hstops, hlap⟩ := lapBoundary_runs s hf hs
    refine ⟨t, hexec, hpos, hstops, fun hr => ?_, fun r hr => ?_⟩
    · rw [hlap, State.nextLap, hr]
      simp [State.lapN, BitVec.ofNat_add]
    · rw [hlap, State.nextLap, hr]
  · exact delayProbeSend_probes s due fun p => (hdue p).trans (s.probeDue_iff p).symm
  · obtain ⟨hlap, hport, hfew, hfull⟩ := s.echoIn_samples port.val rtt.toNat blk v hv
    exact ⟨_, probeEchoReceived_samples port rtt blk s hp hok hk, hlap, hport, hfew, hfull⟩
  · intro port x s u fs h3 h6 hk hin hm hst hv hlap
    have haddr : (fs.getD 1 0).toNat % 1024 < p2 10 := Nat.mod_lt _ (by decide)
    obtain ⟨hvalid, haddr, hpending⟩ := u.announce_fields _ (bitsOf (fs.getD 1 0).toNat 14 48) haddr
    exact ⟨_, adoptRequestReceived_announces port x s u fs h3 h6 hk hin hm hst hv hlap, rfl, hvalid, haddr,
      u.get48_announce _ _ (Nat.mod_lt _ (p2_pos 48)), hpending⟩

end Sys2Proof.Machine

/-! The register space as a bus sees it: what a read returns and captures, and what a write does by its access type. -/

namespace Sys2Proof.Machine

/-! ### Reads -/

/-- The part of a word that an access of each width addresses (R13). -/
theorem narrow_word (off : BitVec 26) (v : Word) (h : off.toNat % 4 = 0) : narrow .word off v = v := by
  simp [narrow, h, AccWidth.bytes, bitsOf, p2, Nat.mod_eq_of_lt v.isLt]

theorem p2_bytes (k : Nat) : p2 (8 * k) = 256 ^ k := by
  rw [p2_eq, Nat.pow_mul]

theorem toNat_narrow_half (off : BitVec 26) (v : Word) :
    (narrow .half off v).toNat = v.toNat / 256 ^ (off.toNat % 4) % 65536 := by
  have h : v.toNat / 256 ^ (off.toNat % 4) % 65536 < 65536 := Nat.mod_lt _ (by decide)
  simp only [narrow, AccWidth.bytes, bitsOf, p2_bytes, BitVec.toNat_ofNat]
  omega

theorem toNat_narrow_byte (off : BitVec 26) (v : Word) :
    (narrow .byte off v).toNat = v.toNat / 256 ^ (off.toNat % 4) % 256 := by
  have h : v.toNat / 256 ^ (off.toNat % 4) % 256 < 256 := Nat.mod_lt _ (by decide)
  simp only [narrow, AccWidth.bytes, bitsOf, p2_bytes, BitVec.toNat_ofNat]
  omega

theorem exec_loReadCapture (p : Path) (a : AccWidth) (off : BitVec 26) (s : State) :
    exec (.loReadCapture p a off) s = execLoReadCapture p a off s := rfl

theorem loReadCapture_unreached (p : Path) (a : AccWidth) (off : BitVec 26) (s : State) (h : s.reaches p (wordOff off) = false) :
    exec (.loReadCapture p a off) s = .next (s.send (.busData p off.toNat (narrow a off 0xFFFFFFFF))) := by
  rw [exec_loReadCapture, execLoReadCapture, if_neg (by simp [h])]

theorem loReadCapture_reached (p : Path) (a : AccWidth) (off : BitVec 26) (s : State) (h : s.reaches p (wordOff off) = true) :
    exec (.loReadCapture p a off) s = .next ((s.regRead p (wordOff off)).2.send
      (.busData p off.toNat (narrow a off (BitVec.ofNat 32 (s.regRead p (wordOff off)).1)))) := by
  rw [exec_loReadCapture, execLoReadCapture, if_pos h]

theorem State.regRead_unnamed (s : State) (p : Path) (off : Nat) (h : regNamed off = none) :
    s.regRead p off = (0xFFFFFFFF, s) := by
  unfold State.regRead
  rw [h]

theorem State.regRead_captured (s : State) (p : Path) (off : Nat) (r : RegSpec) (l : List Nat) (b : Bool) (v : Word)
    (hn : regNamed off = some (r, l, b)) (hc : Tab.find s.caps (capKey p off) = some v) : s.regRead p off = (v.toNat, s) := by
  unfold State.regRead
  rw [hn]
  dsimp only
  rw [hc]

/-- A register that captures nothing reads as it is. -/
theorem State.regRead_plain (s : State) (p : Path) (off : Nat) (r : RegSpec) (l : List Nat) (b : Bool)
    (hn : regNamed off = some (r, l, b)) (hc : Tab.find s.caps (capKey p off) = none) (hlo : ∀ x ∈ loRegs, x.1 ≠ r.base) :
    s.regRead p off = s.regVal r l b := by
  have hfind : loRegs.find? (fun x => x.1 == r.base) = none := by simpa using hlo
  unfold State.regRead
  rw [hn]
  dsimp only
  rw [hc]
  dsimp only
  rw [hfind]

/-! ### The three words of the present lap and position -/

def specLapNowLo : RegSpec := ⟨"LAP_NOW_LO", 0x10, [], .ro, 0x0, [⟨"lap_lo", 0, 32, []⟩]⟩
def specLapNowHi : RegSpec := ⟨"LAP_NOW_HI", 0x14, [], .ro, 0x0, [⟨"lap_hi", 0, 16, []⟩]⟩
def specLapPos : RegSpec := ⟨"LAP_POS", 0x18, [], .ro, 0x0, [⟨"fc", 0, 7, []⟩, ⟨"stride", 7, 11, []⟩]⟩

theorem regNamed_lapNowLo : regNamed 0x10 = some (specLapNowLo, [], false) := by decide +kernel
theorem regNamed_lapNowHi : regNamed 0x14 = some (specLapNowHi, [], false) := by decide +kernel
theorem regNamed_lapPos : regNamed 0x18 = some (specLapPos, [], false) := by decide +kernel

theorem State.regVal_lapNowLo (s : State) : s.regVal specLapNowLo [] false = (s.lapN % p2 32, s) := rfl

theorem capKey_ne (p : Path) (a b : Nat) (h : a ≠ b) : capKey p a ≠ capKey p b := by
  unfold capKey
  omega

/-- A path's captures after it has read LAP_NOW_LO. -/
def State.lapCaps (s : State) (p : Path) : Tab Word :=
  Tab.put (capKey p 0x18) (BitVec.ofNat 32 s.pos.toNat) (Tab.put (capKey p 0x14) (BitVec.ofNat 32 (s.lapN / p2 32)) s.caps)

/-- LAP_NOW_LO reads the low word of the lap and captures the other two (R14). -/
theorem State.regRead_lapNowLo (s : State) (p : Path) (hc : Tab.find s.caps (capKey p 0x10) = none) :
    s.regRead p 0x10 = (s.lapN % p2 32, { s with caps := s.lapCaps p }) := by
  have hfind : loRegs.find? (fun x => x.1 == specLapNowLo.base) = some (0x10, [4, 8]) := by decide
  unfold State.regRead
  rw [regNamed_lapNowLo]
  dsimp only
  rw [hc, State.regVal_lapNowLo]
  dsimp only
  rw [hfind]
  dsimp only
  rw [State.each_cons, State.each_cons, State.each_nil]
  rw [regNamed_lapNowHi, regNamed_lapPos]
  rfl

theorem loReadCapture_lapNowLo (p : Path) (a : AccWidth) (s : State) (hr : s.reaches p 0x10 = true)
    (hc : Tab.find s.caps (capKey p 0x10) = none) :
    exec (.loReadCapture p a 0x10) s = .next (({ s with caps := s.lapCaps p } : State).send
      (.busData p 0x10 (narrow a 0x10 (BitVec.ofNat 32 s.lapN)))) := by
  have hword : BitVec.ofNat 32 (s.lapN % p2 32) = BitVec.ofNat 32 s.lapN := BitVec.eq_of_toNat_eq (by simp [p2])
  have hexec := loReadCapture_reached p a 0x10 s hr
  rw [show wordOff 0x10 = 0x10 from rfl, State.regRead_lapNowLo s p hc] at hexec
  rw [hexec, hword]
  rfl

/-- A captured LAP_NOW_HI is read whatever the time. -/
theorem loReadCapture_lapNowHi (p : Path) (u : State) (v : Word) (hr : u.reaches p 0x14 = true)
    (hc : Tab.find u.caps (capKey p 0x14) = some v) :
    exec (.loReadCapture p .word 0x14) u = .next (u.send (.busData p 0x14 v)) := by
  have hexec := loReadCapture_reached p .word 0x14 u hr
  rw [show wordOff 0x14 = 0x14 from rfl, State.regRead_captured u p 0x14 _ _ _ v regNamed_lapNowHi hc] at hexec
  rw [hexec, BitVec.ofNat_toNat, BitVec.setWidth_eq, narrow_word _ _ rfl]
  rfl

/-- Settles O36: each kind of read by what `State.regRead` answers. -/
theorem registerReads : Obligations.RegisterReads := by
  unfold Obligations.RegisterReads
  refine ⟨fun off v => ⟨narrow_word off v, fun _ => toNat_narrow_half off v, toNat_narrow_byte off v⟩, ?_, ?_, ?_, ?_⟩
  · intro p a off s w hw h
    subst hw
    cases hr : s.reaches p (wordOff off) with
    | false => exact loReadCapture_unreached p a off s hr
    | true =>
      have hn : regNamed (wordOff off) = none := h.resolve_left (by rw [show off.toNat / 4 * 4 = wordOff off from rfl, hr]; decide)
      rw [loReadCapture_reached p a off s hr, State.regRead_unnamed s p _ hn]
      rfl
  · intro p a off s w r l b v hw hr hn hc
    subst hw
    rw [loReadCapture_reached p a off s hr, State.regRead_captured s p (wordOff off) r l b v hn hc]
    simp
  · intro p a off s w r l b hw hr hn hc hlo
    subst hw
    rw [loReadCapture_reached p a off s hr, State.regRead_plain s p (wordOff off) r l b hn hc hlo]
  · intro p a s hr hc
    have hhi : Tab.find (s.lapCaps p) (capKey p 0x14) = some (BitVec.ofNat 32 (s.lapN / 2 ^ 32)) :=
      (Tab.find_put_other _ _ _ _ (capKey_ne p _ _ (by decide))).trans (Tab.find_put_same _ _ _)
    refine ⟨_, loReadCapture_lapNowLo p a s hr hc, rfl, hhi, Tab.find_put_same _ _ _, fun u hu hru => ?_⟩
    exact loReadCapture_lapNowHi p u _ hru ((congrArg (Tab.find · _) hu).trans hhi)

/-! ### Replacing fields -/

/-- Two fields of a word share no bit. -/
abbrev FieldSpec.Apart (f g : FieldSpec) : Prop := f.lo + f.n ≤ g.lo ∨ g.lo + g.n ≤ f.lo

/-- What a field takes of a write: its bits of the new word, or of the old one where they are a reserved encoding (R16). -/
def FieldSpec.merged (f : FieldSpec) (old new : Nat) : Nat :=
  bitsOf (if f.bad.any fun b => decide (b.1 ≤ bitsOf new f.lo f.n ∧ bitsOf new f.lo f.n ≤ b.2) then old else new) f.lo f.n

theorem FieldSpec.merged_lt (f : FieldSpec) (old new : Nat) : f.merged old new < p2 f.n := Nat.mod_lt _ (p2_pos f.n)

theorem mergeFields_cons (old new : Nat) (f : FieldSpec) (fs : List FieldSpec) :
    mergeFields old new (f :: fs) = f.merged old new * p2 f.lo + mergeFields old new fs := by
  unfold mergeFields FieldSpec.merged
  rw [List.map_cons, List.sum_cons]
  dsimp only
  simp only [Bool.decide_and]
  split <;> rfl

/-- A field set where the word has zeros adds its value. -/
theorem setBits_of_zero (w lo n v : Nat) (h : bitsOf w lo n = 0) (hv : v < p2 n) : setBits w lo n v = v * p2 lo + w := by
  have hhigh : w / p2 (lo + n) * p2 n = w / p2 lo := by
    rw [p2_add, ← Nat.div_div_eq_div_mul]
    exact Nat.div_mul_cancel (Nat.dvd_of_mod_eq_zero h)
  have hw := Nat.mod_add_div w (p2 lo)
  rw [setBits, Nat.mod_eq_of_lt hv, p2_add lo, Nat.mul_comm (p2 lo), ← Nat.mul_assoc, ← Nat.mul_comm (p2 lo) (p2 n), ← p2_add,
    hhigh, Nat.mul_comm (w / _)]
  omega

theorem mergeFields_cons_eq_setBits (old new : Nat) (f : FieldSpec) (fs : List FieldSpec)
    (h : bitsOf (mergeFields old new fs) f.lo f.n = 0) :
    mergeFields old new (f :: fs) = setBits (mergeFields old new fs) f.lo f.n (f.merged old new) := by
  rw [mergeFields_cons, setBits_of_zero _ _ _ _ h (f.merged_lt old new)]

/-- A merged word is zero outside its fields (R15). -/
theorem bitsOf_mergeFields_outside (old new : Nat) (fs : List FieldSpec) (hfs : fs.Pairwise FieldSpec.Apart) (f : FieldSpec)
    (hf : ∀ g ∈ fs, f.Apart g) : bitsOf (mergeFields old new fs) f.lo f.n = 0 := by
  induction fs generalizing f with
  | nil => simp [mergeFields, bitsOf]
  | cons g fs ih =>
    obtain ⟨hg, hfs⟩ := List.pairwise_cons.mp hfs
    rw [mergeFields_cons_eq_setBits _ _ _ _ (ih hfs g hg), bitsOf_setBits_apart _ _ _ _ _ _ (hf g List.mem_cons_self)]
    exact ih hfs f fun x hx => hf x (List.mem_cons_of_mem _ hx)

/-- Each field of a merged word is what that field takes. -/
theorem bitsOf_mergeFields (old new : Nat) (fs : List FieldSpec) (hfs : fs.Pairwise FieldSpec.Apart) (f : FieldSpec) (hf : f ∈ fs) :
    bitsOf (mergeFields old new fs) f.lo f.n = f.merged old new := by
  induction fs with
  | nil => cases hf
  | cons g fs ih =>
    obtain ⟨hg, hfs⟩ := List.pairwise_cons.mp hfs
    rw [mergeFields_cons_eq_setBits _ _ _ _ (bitsOf_mergeFields_outside _ _ _ hfs g hg)]
    rcases List.mem_cons.mp hf with rfl | hf
    · exact bitsOf_setBits_same _ _ _ _ (f.merged_lt old new)
    · rw [bitsOf_setBits_apart _ _ _ _ _ _ (hg f hf).symm]
      exact ih hfs hf

/-- No two fields of a register of the map overlap. -/
theorem regSpecs_fieldsApart : ∀ r ∈ regSpecs, r.fields.Pairwise FieldSpec.Apart := by decide +kernel

/-! ### The register that an offset names -/

theorem mem_regSpecs_of_regAt {off : Nat} {r : RegSpec} {l : List Nat} (h : regAt off = some (r, l)) : r ∈ regSpecs := by
  unfold regAt at h
  split at h
  · cases h
  · obtain ⟨q, hq, hl⟩ := List.exists_of_findSome?_eq_some h
    split at hl
    · obtain ⟨_, _, hl⟩ := Option.map_eq_some_iff.mp hl
      cases hl
      exact hq
    · cases hl

theorem mem_regSpecs_of_regNamed {off : Nat} {r : RegSpec} {l : List Nat} (h : regNamed off = some (r, l, false)) :
    r ∈ regSpecs := by
  unfold regNamed at h
  split at h
  case h_1 hat =>
    cases h
    exact mem_regSpecs_of_regAt hat
  case h_2 =>
    repeat' split at h
    all_goals cases h

/-- The registers that a write treats by their base, by their names. -/
def regsByBase : List (Nat × String) :=
  [(R.MSH_SLT_DATA.off, "MSH_SLT_DATA"), ((R.CORE_SMAP_DATA 0).off, "CORE_SMAP_DATA"), (R.DMA_RMAP_DATA.off, "DMA_RMAP_DATA"),
    ((R.HAL_LBUF 0 0).off, "HAL_LBUF"), ((R.HEAT_H_GEOM 0).off, "HEAT_H_GEOM"), (R.LAP_CFG.off, "LAP_CFG"),
    ((R.NUM_SEED 0).off, "NUM_SEED")]

/-- In the map a base is a register's own. -/
theorem regSpecs_base_iff_name : ∀ r ∈ regSpecs, ∀ b ∈ regsByBase, r.base = b.1 ↔ r.name = b.2 := by decide +kernel

end Sys2Proof.Machine

namespace Sys2Proof.Machine

/-! ### Writes -/

theorem exec_registerWrite (p : Path) (a : AccWidth) (off : BitVec 26) (v : Word) (s : State) :
    exec (.registerWrite p a off v) s = execRegisterWrite p a off v s := rfl

theorem registerWrite_word (p : Path) (off : BitVec 26) (v : Word) (s : State) (h : s.reaches p off.toNat = true) :
    exec (.registerWrite p .word off v) s = .next (s.regWrite p off.toNat v.toNat) := by
  rw [exec_registerWrite, execRegisterWrite, if_pos (by simp [h])]

theorem registerWrite_narrow (p : Path) (a : AccWidth) (off : BitVec 26) (v : Word) (s : State) (h : a ≠ .word) :
    exec (.registerWrite p a off v) s = .next s := by
  rw [exec_registerWrite, execRegisterWrite, if_neg (by simp [h])]

theorem registerWrite_unreached (p : Path) (a : AccWidth) (off : BitVec 26) (v : Word) (s : State)
    (h : s.reaches p off.toNat = false) : exec (.registerWrite p a off v) s = .next s := by
  rw [exec_registerWrite, execRegisterWrite, if_neg (by simp [h])]

/-- A write whose bus effect is none changes nothing, whatever its width and path. -/
theorem registerWrite_inert (p : Path) (a : AccWidth) (off : BitVec 26) (v : Word) (s : State)
    (h : s.regWrite p off.toNat v.toNat = s) : exec (.registerWrite p a off v) s = .next s := by
  rw [exec_registerWrite, execRegisterWrite, h, ite_self]

theorem State.regWrite_unnamed (s : State) (p : Path) (off v : Nat) (h : regNamed off = none) : s.regWrite p off v = s := by
  unfold State.regWrite
  rw [h]

theorem State.regWrite_active (s : State) (p : Path) (off v : Nat) (r : RegSpec) (l : List Nat)
    (h : regNamed off = some (r, l, true)) : s.regWrite p off v = s := by
  unfold State.regWrite
  rw [h]

section
variable {s : State} {p : Path} {off v : Nat} {r : RegSpec} {l : List Nat} (hn : regNamed off = some (r, l, false))
include hn

/-- R323 refuses a write, of whatever effect. -/
theorem State.regWrite_numBusy (hb : s.numBusy r l = true) (hacc : r.acc ≠ .ro) :
    s.regWrite p off v = s.refuseWrite false off := by
  unfold State.regWrite
  rw [hn]
  simp [hb, hacc]

variable (hd : s.regDoes p r l v = none)
include hd

theorem State.regWrite_ro (hacc : r.acc = .ro) : s.regWrite p off v = s := by
  unfold State.regWrite
  rw [hn]
  simp [hd, hacc]

variable (hb : s.numBusy r l = false)
include hb

theorem State.regWrite_w1c (hacc : r.acc = .w1c) :
    s.regWrite p off v = { s with
      regs := Tab.put off (BitVec.ofNat 32 (s.regVal r l false).1 &&& ~~~(BitVec.ofNat 32 v &&& ~~~Tab.get 0 s.sets off)) s.regs } := by
  unfold State.regWrite
  rw [hn]
  simp [hd, hb, hacc]

theorem State.regWrite_rw (hacc : r.acc = .rw) (hseed : r.base ≠ (R.NUM_SEED 0).off) :
    s.regWrite p off v = s.regSet r l off v := by
  unfold State.regWrite
  rw [hn]
  simp [hd, hb, hacc, hseed]

theorem State.regWrite_rwl (hacc : r.acc = .rwl) (hlock : s.locked = false) (hgeom : r.base ≠ (R.HEAT_H_GEOM 0).off)
    (hcfg : r.base ≠ R.LAP_CFG.off) : s.regWrite p off v = s.regSet r l off v := by
  unfold State.regWrite
  rw [hn]
  simp [hd, hb, hacc, hlock, hgeom, hcfg]

theorem State.regWrite_locked (hacc : r.acc = .rwl) (hlock : s.locked = true) :
    s.regWrite p off v = s.refuseWrite true off := by
  unfold State.regWrite
  rw [hn]
  simp [hd, hb, hacc, hlock]

theorem State.regWrite_ws (hacc : r.acc = .ws) :
    s.regWrite p off v = if s.wsBusy r l then s.refuseWrite false off else s.regSet r l off v := by
  unfold State.regWrite
  rw [hn]
  simp [hd, hb, hacc]

end

/-- A register that holds what is written to it takes its merged fields; the word that a write of a masthead buffer replaces
is kept, the first of the fc (R115). -/
theorem State.regSet_merges (s : State) (r : RegSpec) (l : List Nat) (off v : Nat) (hslt : r.base ≠ R.MSH_SLT_DATA.off)
    (hsmap : r.base ≠ (R.CORE_SMAP_DATA 0).off) (hrmap : r.base ≠ R.DMA_RMAP_DATA.off) :
    s.regSet r l off v = { s with
      regs := Tab.put off (BitVec.ofNat 32 (mergeFields (s.regVal r l false).1 v r.fields)) s.regs
      was := if r.base = (R.HAL_LBUF 0 0).off ∧ Tab.find s.was off = none then
          Tab.put off (BitVec.ofNat 32 (s.regVal r l false).1) s.was else s.was } := by
  unfold State.regSet State.fieldsOf
  simp [hslt, hsmap, hrmap]

/-- The bits that a W1C write leaves (R17, R18). -/
theorem getLsbD_w1c (old : Nat) (v sets : Word) (i : Nat) (hi : i < 32) :
    (BitVec.ofNat 32 old &&& ~~~(v &&& ~~~sets)).getLsbD i = (old.testBit i && (!v.getLsbD i || sets.getLsbD i)) := by
  simp only [BitVec.getLsbD_and, BitVec.getLsbD_not, BitVec.getLsbD_ofNat, hi]
  simp

/-- What a refusal counts (R587). -/
theorem State.refuseWrite_counts (s : State) (off : Nat) :
    (s.refuseWrite false off).get F.MAR_CNT_LOCKWR_count = min (s.get F.MAR_CNT_LOCKWR_count + 1) 0xFFFFFFFF ∧
      (s.refuseWrite false off).get F.MAR_EVT_lockwr = 1 := by
  have hcount : ((s.bump F.MAR_CNT_LOCKWR_count).flag F.MAR_EVT_lockwr).get F.MAR_CNT_LOCKWR_count =
      (s.bump F.MAR_CNT_LOCKWR_count).get F.MAR_CNT_LOCKWR_count := State.get_congr (State.rd_flag_other _ _ _ (by decide))
  have hbump : (s.bump F.MAR_CNT_LOCKWR_count).get F.MAR_CNT_LOCKWR_count = min (s.get F.MAR_CNT_LOCKWR_count + 1) 0xFFFFFFFF :=
    State.get_bump _ _ _ (by decide)
  exact ⟨hcount.trans hbump, State.get_flag_same _ _ rfl (by decide)⟩

/-- A refusal under R20 counts as the others do, and is yellow too. -/
theorem State.refuseWrite_locked_counts (s : State) (off : Nat) :
    (s.refuseWrite true off).get F.MAR_CNT_LOCKWR_count = min (s.get F.MAR_CNT_LOCKWR_count + 1) 0xFFFFFFFF ∧
      (s.refuseWrite true off).get F.MAR_CNT_YELLOW_count = min (s.get F.MAR_CNT_YELLOW_count + 1) 0xFFFFFFFF := by
  have hq : F.MAR_CNT_LOCKWR_count.reg.NoDropCount := fun p => by
    show 0x3FE1014 ≠ 0x212C + 64 * p
    omega
  have hsplit : s.refuseWrite true off = (s.refuseWrite false off).yellow { code := 0x101, site := off % 65536, detail := off / 65536 } := rfl
  have hyellow : (s.refuseWrite false off).get F.MAR_CNT_YELLOW_count = s.get F.MAR_CNT_YELLOW_count :=
    (State.get_congr (State.rd_flag_other _ _ _ (by decide))).trans (State.get_congr (State.rd_bump_other _ _ _ _ (by decide)))
  rw [hsplit]
  refine ⟨?_, by rw [State.yellow_count _ _ rfl, hyellow]⟩
  rw [State.get_congr (State.rd_yellow hq _ _ rfl (by decide) (by decide) (by decide) (by decide))]
  exact (s.refuseWrite_counts off).1

theorem base_ne_of_name_ne {r : RegSpec} (hr : r ∈ regSpecs) (b : Nat × String) (hb : b ∈ regsByBase) (h : r.name ≠ b.2) :
    r.base ≠ b.1 := fun e => h ((regSpecs_base_iff_name r hr b hb).mp e)

/-- Settles O35, access type by access type. -/
theorem registerWriteKinds : Obligations.RegisterWriteKinds := by
  unfold Obligations.RegisterWriteKinds
  refine ⟨registerWrite_narrow, registerWrite_unreached,
    fun p a off v s h => registerWrite_inert p a off v s (s.regWrite_unnamed p _ _ h),
    fun p a off v s r l h => registerWrite_inert p a off v s (s.regWrite_active p _ _ r l h), ?_, fun s off => ?_, ?_⟩
  · intro p off v s r l hr hn hd
    have hr' := mem_regSpecs_of_regNamed hn
    rw [registerWrite_word p off v s hr]
    refine ⟨fun hacc => by rw [State.regWrite_ro hn hd hacc], fun hb hacc => by rw [State.regWrite_numBusy hn hb hacc],
      fun hb => ⟨fun hacc => ?_, fun hset hdata => ?_, fun hacc hlock => by rw [State.regWrite_locked hn hd hb hacc hlock],
        fun hacc hws => by rw [State.regWrite_ws hn hd hb hacc, if_pos hws]⟩⟩
    · rw [State.regWrite_w1c hn hd hb hacc, BitVec.ofNat_toNat, BitVec.setWidth_eq]
      exact ⟨_, _, rfl, rfl, fun i hi => getLsbD_w1c _ _ _ i hi⟩
    · have hregSet : s.regWrite p off.toNat v.toNat = s.regSet r l off.toNat v.toNat := by
        rcases hset with ⟨hacc, hname⟩ | ⟨hacc, hlock, hname⟩ | ⟨hacc, hws⟩
        · exact State.regWrite_rw hn hd hb hacc (base_ne_of_name_ne hr' (_, "NUM_SEED") (by decide) hname)
        · simp only [List.mem_cons, List.not_mem_nil, or_false, not_or] at hname
          exact State.regWrite_rwl hn hd hb hacc hlock (base_ne_of_name_ne hr' (_, "HEAT_H_GEOM") (by decide) hname.1)
            (base_ne_of_name_ne hr' (_, "LAP_CFG") (by decide) hname.2)
        · rw [State.regWrite_ws hn hd hb hacc, if_neg (by simp [hws])]
      simp only [List.mem_cons, List.not_mem_nil, or_false, not_or] at hdata
      obtain ⟨hslt, hsmap, hrmap⟩ := hdata
      rw [hregSet, State.regSet_merges s r l _ _ (base_ne_of_name_ne hr' (_, "MSH_SLT_DATA") (by decide) hslt)
        (base_ne_of_name_ne hr' (_, "CORE_SMAP_DATA") (by decide) hsmap)
        (base_ne_of_name_ne hr' (_, "DMA_RMAP_DATA") (by decide) hrmap)]
      have hlbuf := regSpecs_base_iff_name r hr' ((R.HAL_LBUF 0 0).off, "HAL_LBUF") (by decide)
      exact ⟨_, rfl, rfl, by simp only [hlbuf]⟩
  · obtain ⟨hcount, hevt⟩ := s.refuseWrite_counts off
    obtain ⟨hcount', hyellow⟩ := s.refuseWrite_locked_counts off
    exact ⟨hcount, hevt, hcount', hyellow⟩
  · exact fun r hr f hf old new => bitsOf_mergeFields old new r.fields (regSpecs_fieldsApart r hr) f hf

end Sys2Proof.Machine
